-- ==== Sys2Proof/Word.lean ====
section
/-!
DEFINITION. The word types of the head: bytes, 32-bit control-space words, byte strings (R7, R10).
-/

namespace Sys2Proof

/-- One byte of a structure, a buffer or a memory. -/
abbrev Byte := BitVec 8

/-- One control-space register: "Every register is 32 bits wide" (00_scope.md, Register space). -/
abbrev Word := BitVec 32

/-- A byte string, first byte first. -/
abbrev Bytes := List Byte

end Sys2Proof
end

