-- ==== Sys2Proof/Syntax.lean ====
section
/-!
DEFINITION. The commands of the CV-6400 head: one constructor for each row of spec/opcode_table.json, with the operands the
row's rule names. A command is an access or an event at the head's boundary; the data an event carries from outside
(a host's bytes, a bridge's report, a peer's message, a sensor's reading) is an operand.
-/

namespace Sys2Proof

/-- The two troupes of a pair (R240). -/
inductive Troupe where
  | a | b
  deriving DecidableEq, Repr

/-- The two fabrics transports of a host port (R46). -/
inductive Transport where
  | rdma | tcp
  deriving DecidableEq, Repr

/-- A command capsule as it reaches a submission queue buffer: the NVMe fields the head reads, the lengths of its
SGL descriptors (R63) and its in-capsule data, if any (R51). -/
structure Capsule where
  /-- command identifier -/
  cid : Nat
  /-- opcode byte -/
  opcode : Nat
  /-- namespace identifier -/
  nsid : Nat
  /-- command dwords 10 to 15 -/
  dw10 : Word := 0
  dw11 : Word := 0
  dw12 : Word := 0
  dw13 : Word := 0
  dw14 : Word := 0
  dw15 : Word := 0
  /-- lengths of the SGL data descriptors, in bytes -/
  sgl : List Nat := []
  /-- in-capsule data -/
  inCapsule : Option Bytes := none
  deriving DecidableEq, Repr

/-- The data and fields of a Fabrics Connect (R50, R52). -/
structure ConnectCmd where
  /-- host port, 0 to 7 -/
  port : Nat
  transport : Transport
  /-- 0 for the admin queue -/
  qid : Nat
  /-- controller named by an I/O queue Connect -/
  cntlid : Nat
  /-- zero-based queue size -/
  sqsize : Nat
  /-- keep-alive timeout in ms -/
  kato : Nat
  /-- 1: a Connect to the port's discovery controller (R47) -/
  discovery : Bool
  /-- host NQN as given in the Connect data -/
  hostNqn : Bytes
  cid : Nat
  deriving DecidableEq, Repr

/-- What the booth reports of a decode on the RD or RV chain (R135). -/
structure DecodeResult where
  /-- the header checks of R134 passed -/
  headerOk : Bool
  /-- the 128-bit tag verified -/
  tagOk : Bool
  /-- decoder code of R119, 0 when the frame decoded -/
  code : Nat
  /-- the decoded plaintext -/
  plain : Bytes
  deriving DecidableEq, Repr

/-- The stored copy a byte comparison reads (R98). -/
inductive StoredCopy where
  /-- no powered copy exists -/
  | notPowered
  /-- the stored copy fails its GCM tag or decoder checks -/
  | failed
  /-- the decoded stored copy -/
  | plain (bytes : Bytes)
  deriving DecidableEq, Repr

/-- How a firmware job stops (R116, R117, R119). -/
structure JobResult where
  /-- code of R119; 0 when the job is DONE or OUTPUT_FULL -/
  code : Nat
  /-- the output reached CMP_JOB_CAP before the input ended -/
  outputFull : Bool
  /-- input bytes consumed in this run -/
  consumed : Nat
  /-- bytes the algorithm produced in this run (Zstandard or DEFLATE) -/
  output : Bytes
  /-- the frame carried a content checksum and it matched -/
  checked : Bool
  deriving DecidableEq, Repr

/-- Which peer record set the peer's Strongroom holds (R130). -/
structure PeerRecords where
  /-- both proofs of the pair transport key verified -/
  proofOk : Bool
  /-- the nonce of the peer's Strongroom -/
  nonce : Bytes
  /-- the peer's sanitize generation -/
  sanitizeGen : Nat
  /-- the peer is unsealed -/
  unsealed : Bool
  /-- the record digests of the two heads agree -/
  digestEqual : Bool
  /-- the peer's slots: (slot, state code, epoch) -/
  slots : List (Nat × Nat × Nat)
  /-- the peer's domain key map: (domain, WRITE_SLOT, NEXT_SLOT) -/
  map : List (Nat × Nat × Nat)
  /-- the peer's salts: (index, salt) -/
  salts : List (Nat × Bytes)
  deriving DecidableEq, Repr

/-- A small in-place write on a landing stripe (R176). -/
structure LandingReq where
  troupe : Troupe
  stripe : Nat
  /-- row, 0 to 31 -/
  row : Nat
  /-- data index i -/
  data : Nat
  /-- the new 4,096-byte block, and the guard that came with it -/
  block : Bytes
  guard : BitVec 64
  deriving DecidableEq, Repr

/-- A completion record as a port delivers it to the Turnstile (R185); for a read, the block bytes that came. -/
structure Completion where
  /-- back-end operation index -/
  op : Nat
  /-- role, 0xFE journal copy, 0xFF booth or shelf record -/
  member : Nat
  /-- [7:0] SC, [10:8] SCT -/
  status : Nat
  /-- rows of the unit whose member-block tag failed at check point 0x4 (a read of one block names row 0) -/
  tagRows : List Nat
  /-- rows whose block returned a media error to a read block by block (R202) -/
  mediaRows : List Nat
  /-- the data a read returned -/
  data : Bytes
  deriving DecidableEq, Repr

/-- Causes a bridge or module reports (R188). -/
inductive ModuleCause where
  | removed | fatal | late | program | media | wornWarning | percentUsed (pct : Nat)
  deriving DecidableEq, Repr

/-- What a patrol step found in one stripe (R213). -/
structure PatrolFinding where
  shelf : Nat
  stripe : Nat
  /-- BITS of each 128 KiB unit, by role -/
  bits : List Nat
  /-- blocks that fail their tags: role and row -/
  tagFails : List (Nat × Nat)
  /-- rows whose P or Q disagrees although every tag passes -/
  parityRows : List Nat
  /-- uids of the chunks that failed their RV decode -/
  badChunks : List Nat
  deriving DecidableEq, Repr

/-- The four kinds of shelf demand (R224). -/
inductive DemandKind where
  | fill | stage | patrol | background
  deriving DecidableEq, Repr

/-- Map updates of R244: TYPE and operands, before RESULT and PRIOR. -/
structure Order where
  type : Nat
  flags : Nat
  domain : Nat
  nsid : Nat
  order : Nat
  opA : Nat
  opB : Nat
  location : Nat
  key : Bytes
  /-- the model's own carriage of what the map record of the update holds besides: APPTAG, first byte and length of an extent in
  the namespace and its first byte in the chunk; LOGICAL_LEN of an insert; in `start`, the old LOCATION of a relocation -/
  apptag : Nat
  start : Nat
  len : Nat
  offset : Nat
  logicalLen : Nat
  deriving DecidableEq, Repr

/-- What a stale Catcher reads from the landing shelf of a troupe that it takes over (R259). -/
structure LandingLog where
  /-- chunks of the vault zones: handle, stored bytes, guard -/
  chunks : List (Nat × Bytes × BitVec 64)
  /-- logged beats in beat order: beat, the orders of its records, PREV_DIGEST -/
  beats : List (Nat × List Order × Bytes)
  /-- a last-breath flush (R312, R313): its last matched beat, none without a header, with its orders -/
  flush : Option (Option Nat × List Order)
  deriving DecidableEq, Repr

/-- Control messages on the Iclin link (R243). -/
inductive ControlMsg where
  | heartbeat
  /-- roles, Baton levels: the peer's role and state per troupe and its HOLD lines -/
  | roles (roleA roleB stateA stateB : Nat) (hold : BitVec 2)
  /-- the shelf state table: (shelf, state code), and with it the power master's figures: (shelf, SHF_SHELF_PWR, SHF_SHELF_LOW,
  SHF_SHELF_TIME) -/
  | shelves (table : List (Nat × Nat)) (figures : List (Nat × BitVec 32 × BitVec 32 × BitVec 32))
  /-- the peer's waiting demands: (kind, shelf, deadline in µs) -/
  | demands (list : List (DemandKind × Nat × Nat))
  /-- a module state change: (shelf, module, state) -/
  | moduleState (shelf mdl state : Nat)
  /-- a module declaration reported to the spare master -/
  | declare (shelf mdl : Nat) (worn : Bool)
  /-- the spare master's assignment of spares to a module (R189, R191): (group or landing stripe, position, module, zone) -/
  | rebuild (shelf mdl : Nat) (copyOut : Bool) (kind : Nat) (todo : List (Nat × Nat × Nat × Nat))
  /-- a landing role has been rebuilt on `target`, or a group has been evacuated -/
  | rebuildMoved (shelf mdl item pos target : Nat)
  /-- pair digest and target beat of an armed image (R36) -/
  | imageArm (digest : Bytes) (beat : Nat)
  /-- the peer is entering a power state (R289) -/
  | powerEntry (state : Nat)
  /-- last-breath flush at the peer, with its last matched beats (R312) -/
  | flush (beatA beatB : Nat)
  /-- a handover of the troupe at a target beat (R261): sent by the giving head, or asked by the home head (R262); `leaving`: the
  giving head restarts or leaves at T -/
  | handover (t : Troupe) (beat : Nat) (leaving : Bool)
  /-- the commit point message of a handover -/
  | handoverCommit (t : Troupe)
  /-- the update state of the peer: bits 0 to 3 are conditions 0x1 to 0x4 of R71 (R354) -/
  | updateConditions (bits : BitVec 4)
  /-- the peer starts a crypto erase (R144) -/
  | sanitize
  /-- the peer reached step 5 of its crypto erase -/
  | sanitizeDone
  /-- resync page arrived -/
  | resyncPage (t : Troupe) (page : Nat)
  /-- a key record of the peer's Strongroom: state 0 destroyed, 2 ACTIVE, 3 RETIRED (R128, R130, R132) -/
  | keyRecord (slot state epoch : Nat) (key : Bytes)
  /-- a domain key map entry (R128, R130) -/
  | mapEntry (domain writeSlot nextSlot : Nat)
  /-- a salt, and the confirmation that it has been written (R140) -/
  | salt (index : Nat) (bytes : Bytes)
  | saltConfirm (index : Nat)
  deriving DecidableEq, Repr

/-- Verdict message of a freeze (R250). -/
structure VerdictMsg where
  troupe : Troupe
  ok : Bool
  /-- recomputed commit digests of beats b and b+1 -/
  recomputed : List Bytes
  /-- order digests of beats b and b+1 -/
  orderDigests : List Bytes
  deriving DecidableEq, Repr

/-- What an SRAM word held (R276). -/
inductive SramContent where
  | cleanLine (addr : Nat)
  | dirtyLine (addr : Nat)
  | larderBucket (gen bank bucket : Nat)
  | commandContext (ctx : Nat)
  | streamContext (ctx : Nat)
  | pendingEntry (chunk : Nat)
  | stashEntry (index : Nat)
  | journalStaging (stripe : Nat)
  | other
  deriving DecidableEq, Repr

/-- What an HBM word held (R278). -/
inductive HbmContent where
  | dirtyChunk (handle : Nat)
  | cleanChunk (handle : Nat)
  | tentative (chunk : Nat)
  | mapClean (t : Troupe) (page : Nat)
  | mapDirty (t : Troupe) (page : Nat)
  | spillContext (ctx : Nat)
  | queueEntry (cntlid qid : Nat)
  | other
  deriving DecidableEq, Repr

/-- One 1 µs sample of the power block (R302, R378): VIN and V_H in mV, input power in mW, rail voltages in mV and
currents in mA, the hottest die. -/
structure PowerSample where
  vinMv : Nat
  vhMv : Nat
  powerMw : Nat
  /-- the input stage clamped the current -/
  clamped : Bool
  railMv : List Nat
  railMa : List Nat
  dieC : Int
  sensor : Nat
  /-- Strongroom detector inputs now tripping (R141) -/
  tripping : BitVec 5
  deriving DecidableEq, Repr

/-- One sampler reading in CAROUSEL (R296). -/
structure SamplerReading where
  vin01 : Nat
  hupJ : Nat
  dieC : Nat
  /-- hottest module or bridge over all shelves -/
  shelfC : Nat
  /-- slowest fan, in 100 rpm -/
  fan : Nat
  /-- every enabled bridge answered -/
  answered : Bool
  deriving DecidableEq, Repr

/-- What the Strongroom reports of a boot image's signature (R346, code 0x5): the XMSS root computed from it. -/
structure ImageVerdict where
  root : Bytes
  deriving DecidableEq, Repr

/-- What a start finds outside the head (R338): the boot flash is readable, the computed XMSS root of each candidate image
(slot 0 is the recovery region), the DIMM population, the bridges and the peer. -/
structure StartInfo where
  /-- bank voltage fits the device (R366) -/
  flashOk : Bool
  roots : List (Nat × Bytes)
  /-- XMSS root computed from the signature of the image's Thiez component -/
  thiezRoot : Bytes
  dpc : Nat
  dimmGib : Nat
  /-- DIMMs are RDIMMs of one capacity, every channel alike -/
  populationOk : Bool
  channelsOk : BitVec 8
  /-- (shelf, running firmware digest, interface version) of each enabled bridge that answers -/
  bridges : List (Nat × Bytes × Nat)
  /-- shelves found with rails on -/
  railsOn : List Nat
  /-- the peer reports over Iclin that it holds these troupes -/
  peerHolds : List Troupe
  /-- write pointers found for uncommitted append entries: stripes whose member zones have all passed the unit with good tags -/
  programmed : List Nat
  deriving DecidableEq, Repr

/-- Instructions of the test port (R368). -/
inductive JtagInstr where
  | bypass | idcode | samplePreload | extest | extestPulse | extestTrain | clamp | highz
  deriving DecidableEq, Repr

/-- The commands of the head. -/
inductive Instr where
  /-- REGISTER_WRITE (R7): A write to a control-space register that has no row of its own takes effect according to each field's access type. -/
  | registerWrite (core addr : Nat) (value : Word)
  /-- UNMAPPED_ACCESS (R8): An access to a control-space address that holds no register reads 0 or is discarded, and source 929 is raised. -/
  | unmappedAccess (addr : Nat) (write : Bool)
  /-- CAPSULE_ACCEPT (R65): A command capsule is accepted into a submission queue buffer and receives a head-wide arrival number. -/
  | capsuleAccept (cntlid qid : Nat) (c : Capsule)
  /-- IN_CAPSULE_SLOT_FREED (R51): A freed in-capsule data slot lets a port accept a capsule that it had held back. -/
  | inCapsuleSlotFreed (port : Nat)
  /-- COMMAND_FETCH (R54): The queue engine fetches the next command round robin into a free command context. -/
  | commandFetch
  /-- COMMAND_CONTEXT_FREED (R54): A command context returns to the pool, and fetching resumes at the queue after the last one served. -/
  | commandContextFreed (ctx : Nat)
  /-- FENCE_RELEASE (R65): A command waiting at the overlap fence proceeds once the older overlapping command reaches the point it waited for. -/
  | fenceRelease (ctx : Nat)
  /-- READ (R15): A Read sends each needed chunk to a booth of the serving rings, or is deferred when a needed shelf is dark. -/
  | read (ctx : Nat)
  /-- WRITE (R13): A Write is dispatched to a booth, and its data is pulled in bursts. -/
  | write (ctx : Nat)
  /-- COMPARE (R59): A Compare reads the stored data and compares it byte for byte with the host data. -/
  | compare (ctx : Nat) (host : Bytes)
  /-- WRITE_ZEROES (R59): A Write Zeroes maps the range to the zero extent without using a booth. -/
  | writeZeroes (ctx : Nat)
  /-- DATASET_MANAGEMENT (R59): A Dataset Management command with AD deallocates up to 256 ranges. -/
  | datasetManagement (ctx : Nat) (ranges : List (Nat × Nat))
  /-- FLUSH (R80): A Flush waits for the older writers on the namespaces it names. -/
  | flush (ctx : Nat)
  /-- FLUSH_COMPLETE (R80): A Flush completes once every older writer has completed or ended. -/
  | flushComplete (ctx : Nat)
  /-- STAGE_IN (R236): A STAGE-IN resolves the shelves of its range and raises a Stage demand for each shelf that is not open. -/
  | stageIn (ctx : Nat)
  /-- STAGE_IN_COMPLETE (R237): STAGE-IN completes when the last shelf of its set is open, and a hold is granted. -/
  | stageInComplete (ctx : Nat)
  /-- STAGE_RELEASE (R238): STAGE-RELEASE removes the issuing controller's holds on the shelves of the range. -/
  | stageRelease (ctx : Nat)
  /-- WRITE_BURST_REQUEST (R14): The queue engine requests the next Write burst once the booth-local memory has room for it. -/
  | writeBurstRequest (ctx : Nat)
  /-- WRITE_BURST_ARRIVAL (R164): A burst reaches booth-local memory, and the P stage checks its protection information and feeds the chunker. -/
  | writeBurstArrival (ctx : Nat) (data : Bytes)
  /-- H2CDATA_PDU (R64): A TCP H2CData PDU arrives and is checked against its grant, its sequence and its data digest. -/
  | h2cdataPdu (ctx offset : Nat) (data : Bytes) (digestOk inSequence : Bool)
  /-- RDMA_TRANSFER_ERROR (R64): An RDMA transfer ends in error or short, so the queue pair errors and the connection is lost. -/
  | rdmaTransferError (cntlid qid : Nat)
  /-- TRANSPORT_LOSS (R53): A connection is lost, so its queue pair ends, or its controller when it is the admin connection. -/
  | transportLoss (cntlid qid : Nat)
  /-- KEEP_ALIVE_EXPIRY (R53): The keep-alive timer of a controller expires, and the controller ends. -/
  | keepAliveExpiry (cntlid : Nat)
  /-- CONNECT (R52): A Fabrics Connect creates a controller or an I/O queue pair, or is refused. -/
  | connect (c : ConnectCmd)
  /-- DISCONNECT (R53): A Fabrics Disconnect ends a queue pair, or the controller when it names the admin queue. -/
  | disconnect (cntlid qid cid : Nat)
  /-- PROPERTY_SET (R80): A Fabrics Property Set writes a controller property, and CC.EN 0 or CC.SHN starts a controller reset. -/
  | propertySet (ctx : Nat)
  /-- PROPERTY_GET (R58): A Fabrics Property Get returns a controller property. -/
  | propertyGet (ctx : Nat)
  /-- CONTROLLER_RESET_DONE (R80): Every fetched command of a reset controller has ended, so CSTS.RDY or CSTS.SHST reports completion. -/
  | controllerResetDone (cntlid : Nat)
  /-- AUTHENTICATION_SEND (R48): A DH-HMAC-CHAP message from the host is processed. -/
  | authenticationSend (ctx : Nat) (msg : Bytes)
  /-- AUTHENTICATION_RECEIVE (R48): The head returns its DH-HMAC-CHAP message to the host. -/
  | authenticationReceive (ctx : Nat)
  /-- GET_LOG_PAGE (R57): Get Log Page returns a standard or vendor log page. -/
  | getLogPage (ctx : Nat)
  /-- IDENTIFY (R58): Identify returns the controller or namespace data for the supported CNS values. -/
  | identify (ctx : Nat)
  /-- ABORT (R55): Abort completes, reporting that no command was aborted. -/
  | abort (ctx : Nat)
  /-- SET_FEATURES (R56): Set Features sets a supported feature. -/
  | setFeatures (ctx : Nat)
  /-- GET_FEATURES (R56): Get Features returns a supported feature. -/
  | getFeatures (ctx : Nat)
  /-- ASYNCHRONOUS_EVENT_REQUEST (R75): An Asynchronous Event Request is held outstanding until an event is posted. -/
  | asynchronousEventRequest (ctx : Nat)
  /-- KEEP_ALIVE (R53): Keep Alive restarts the controller's keep-alive timer. -/
  | keepAlive (ctx : Nat)
  /-- DEVICE_SELF_TEST (R76): Device Self-test starts a short or extended test, or aborts the running one. -/
  | deviceSelfTest (ctx : Nat)
  /-- SELF_TEST_SUSPEND (R77): Host I/O suspends the running self-test at the next 1 ms boundary of its running time. -/
  | selfTestSuspend
  /-- SELF_TEST_RESUME (R77): After 10 ms without host I/O, the suspended self-test resumes. -/
  | selfTestResume
  /-- SELF_TEST_FINISH (R77): The self-test finishes, and source 300 is raised. -/
  | selfTestFinish (passed : Bool)
  /-- SANITIZE (R143): Sanitize crypto erase is accepted while a SANITIZE ARM is in force, and starts the crypto erase. -/
  | sanitize (ctx : Nat)
  /-- SANITIZE_COMPLETE (R144): Both heads have reached step 5, and the Sanitize Status log reports completion. -/
  | sanitizeComplete
  /-- FIRMWARE_IMAGE_DOWNLOAD (R355): A 64 KiB block is programmed into the slot that is not ACTIVE. -/
  | firmwareImageDownload (ctx : Nat) (data : Bytes)
  /-- FIRMWARE_COMMIT (R356): Firmware Commit verifies a downloaded slot and marks it VALID, and sets TRIAL for CA 001 and 010. -/
  | firmwareCommit (ctx : Nat) (v : ImageVerdict)
  /-- PARADE (R334): The PARADE command builds a 4,096-byte summary and returns it. -/
  | parade (ctx : Nat)
  /-- THAW_QUEUE (R69): THAW QUEUE resumes a frozen queue, discarding its unfetched entries first when ACTION is 1. -/
  | thawQueue (ctx : Nat)
  /-- ATTIC_CLEAR (R332): ATTIC CLEAR passes an owner token to the Strongroom and clears the Attic when the token is accepted. -/
  | atticClear (ctx : Nat) (token : Bytes)
  /-- BATON_HANDBACK (R262): BATON HANDBACK starts a handover of a troupe to its home head. -/
  | batonHandback (ctx : Nat)
  /-- SCHEDULE_ACTIVATION (R357): SCHEDULE ACTIVATION sets the activation edge once the peer confirms. -/
  | scheduleActivation (ctx : Nat) (peerConfirms : Bool)
  /-- ENTER_POWER_STATE (R286): ENTER POWER STATE is checked and starts the entry into the named state. -/
  | enterPowerState (ctx : Nat)
  /-- POWER_ENTRY_REVERSAL (R79): A host command arrives during power-state entry, so the head returns to RUN and executes it. -/
  | powerEntryReversal (ctx : Nat)
  /-- FINGERPRINT_READY (R88): A chunk's fingerprint is ready, and the pending table and the Larder are probed. -/
  | fingerprintReady (chunk : Nat)
  /-- FAR_FILTER_ANSWER (R93): The far-filter and stash probe answers, deciding the chunk unique or sending it to the full index. -/
  | farFilterAnswer (chunk : Nat)
  /-- INDEX_PAGE_ARRIVAL (R97): An index page arrives, and the tentative chunks waiting on it resolve as duplicate or refuted. -/
  | indexPageArrival (t : Troupe) (page : Nat) (readable : Bool)
  /-- BYTE_COMPARE_DONE (R98): A mode 2 byte comparison finishes and confirms the duplicate, refutes it, or finds a collision. -/
  | byteCompareDone (chunk : Nat) (stored : StoredCopy)
  /-- LARDER_GENERATION_TURN (R91): Current-generation occupancy reaches GEN_FILL_PCT, so the oldest generation is cleared and becomes current. -/
  | larderGenerationTurn
  /-- LARDER_GENERATION_CLEARED (R91): Zeroing of the clearing generation ends, and it becomes the current one. -/
  | larderGenerationCleared
  /-- Z_ENGINE_BOUNDARY (R114): A burst, chunk or frame ends on the Z engine, the block closes, and the next stream is chosen;
  `cellarOk`: a watermark write that a counter lease needs succeeds (R131). -/
  | zEngineBoundary (site : Nat) (cellarOk : Bool)
  /-- OUTPUT_STALL_RELEASE (R115): The cipher drains enough output buffer, and a stalled assembled block moves in. -/
  | outputStallRelease (site : Nat)
  /-- SEGMENT_IDLE_EXPIRY (R109): SEG_IDLE passes without a continuing Write, and the segment stream ends. -/
  | segmentIdleExpiry (stream : Nat)
  /-- CMP_JOB_START (R117): A firmware compress or decode job starts on a booth site. -/
  | cmpJobStart
  /-- CMP_JOB_RESUME (R116): A job stopped in OUTPUT_FULL continues into a new buffer. -/
  | cmpJobResume
  /-- CMP_JOB_ABANDON (R116): The job ends and its context is freed. -/
  | cmpJobAbandon
  /-- CMP_JOB_END (R117): A job finishes in DONE or ERROR, and CMP_JOB_STATUS is set. -/
  | cmpJobEnd (r : JobResult)
  /-- CMP_STAT_CLEAR (R119): The compression statistics and decoder error counters are set to 0. -/
  | cmpStatClear
  /-- CHUNK_DECODE_DONE (R135): A chunk finishes decrypting and decoding, its tag, checksum and length are checked, and its blocks are released or it is retried. -/
  | chunkDecodeDone (task : Nat) (r : DecodeResult)
  /-- SLOT_RETIRED (R132): No booth holds an unused value of a retiring slot, so it becomes RETIRED. -/
  | slotRetired (slot : Nat)
  /-- TAKE_OWNERSHIP (R126): The owner key in the mailbox is wrapped into the owner record, and OWNED is set. -/
  | takeOwnership
  /-- UNSEAL (R129): An accepted UNSEAL token unwraps the key records and the salt table. -/
  | unseal
  /-- KEY_CREATE (R128): A new key is drawn into an EMPTY slot and replicated to the peer. -/
  | keyCreate
  /-- KEY_DESTROY (R128): A slot's key and wrapped records are destroyed on both heads. -/
  | keyDestroy
  /-- DOMAIN_MAP (R128): A domain's WRITE_SLOT and NEXT_SLOT are set. -/
  | domainMap
  /-- OWNER_LOCK_SET (R128): OWNER_LOCK is set. -/
  | ownerLockSet
  /-- OWNER_LOCK_CLEAR (R128): OWNER_LOCK is cleared. -/
  | ownerLockClear
  /-- ATTIC_CLEAR_TOKEN (R332): An accepted ATTIC CLEAR token through the mailbox clears the Attic. -/
  | atticClearToken
  /-- RETIREMENT_LIST_CLEAR (R44): The retirement list in the cellar store is cleared. -/
  | retirementListClear
  /-- ZEROISE (R128): The Strongroom alarm is raised with cause TOKEN. -/
  | zeroise
  /-- RELEASE_OWNERSHIP (R128): A crypto erase runs, and the owner record is cleared. -/
  | releaseOwnership
  /-- SANITIZE_ARM (R128): Sanitize is permitted for the given number of minutes. -/
  | sanitizeArm
  /-- SANITIZE_ARM_EXPIRY (R143): The SANITIZE ARM period ends, and SANITIZE_ARMED clears. -/
  | sanitizeArmExpiry
  /-- PEER_UNSEAL (R129): Once the pair transport key is agreed, the head unseals from its own records without a token. -/
  | peerUnseal
  /-- PAIR_KEY_AGREEMENT (R130): The two Strongrooms agree a new pair transport key and compare their record digests. -/
  | pairKeyAgreement (p : PeerRecords)
  /-- STRONGROOM_ALARM (R142): An alarm cause trips, and the keys are zeroed and the slots sealed. -/
  | strongroomAlarm (cause : Nat)
  /-- DGT_CLAIM (R149): A control core claims a free digest channel. -/
  | dgtClaim (core ch : Nat)
  /-- DGT_RELEASE (R149): The digest channel returns to FREE, and its contents are zeroed. -/
  | dgtRelease (core ch : Nat)
  /-- DGT_BEGIN (R151): CFG and the message length are sampled, and a message starts. -/
  | dgtBegin (core ch : Nat)
  /-- DGT_RESTORE (R153): A message continues from the state record in the window. -/
  | dgtRestore (core ch : Nat)
  /-- DGT_GO (R151): A DMA run of RUNLEN bytes starts, after its length checks. -/
  | dgtGo (core ch : Nat)
  /-- DGT_RUN_END (R151): A DMA run ends, and a held last word takes effect. -/
  | dgtRunEnd (ch : Nat)
  /-- DGT_SUSPEND (R153): The channel stops at a block boundary and exposes its state record. -/
  | dgtSuspend (core ch : Nat)
  /-- DGT_SQUEEZE (R145): A SHAKE256 channel in DONE produces the next OUTLEN bytes. -/
  | dgtSqueeze (core ch : Nat)
  /-- DGT_LAST_WORD (R151): The last-word write ends the message, which is padded, finished and compared. -/
  | dgtLastWord (core ch : Nat) (word : Word)
  /-- DGT_EXPECT_WRITE (R159): An expected-value write is stored both as written and inverted. -/
  | dgtExpectWrite (core ch k : Nat) (word : Word)
  /-- STRIPE_CLOSE_TIMER (R170): CLOSE_MS passes since a stripe's first chunk, so the stripe closes with fill. -/
  | stripeCloseTimer (stripe : Nat)
  /-- LANDING_WRITE_REQUEST (R176): A small in-place landing write requests the row lock of its stripe row. -/
  | landingWriteRequest (r : LandingReq)
  /-- ROW_LOCK_GRANT (R177): The row lock is granted to the next waiting write in arrival order. -/
  | rowLockGrant (stripe row : Nat)
  /-- MEMBER_COMPLETION (R183): A member, booth or shelf completion record enters its stripe's bin at the Turnstile. -/
  | memberCompletion (c : Completion)
  /-- MEMBER_LATE (R184): A member has not reported by LATE after launch, so its stripe is voided or retried, or its read is reconstructed. -/
  | memberLate (op : Nat)
  /-- JOURNAL_AREA_ROOM (R179): Room frees in a full journal area, and waiting launches proceed. -/
  | journalAreaRoom (t : Troupe)
  /-- PTY_CNT_CLEAR (R186): The parity statistics counters are set to 0. -/
  | ptyCntClear
  /-- MODULE_STATUS_REPORT (R188): A shelf bridge or module reports removal, link loss, a critical warning or an error, and the cause is counted or declared. -/
  | moduleStatusReport (shelf mdl : Nat) (cause : ModuleCause)
  /-- MODULE_ADMIT (R187): An ABSENT module is admitted, formatted and made HEALTHY. -/
  | moduleAdmit
  /-- REBUILD_UNIT_LAUNCH (R196): Rebuild credit reaches one unit row set, so its reads and writes are launched. -/
  | rebuildUnitLaunch (rebuild pointer : Nat)
  /-- JOURNAL_COPY_MOVED (R201): The copy of a lost journal area onto a new landing module ends. -/
  | journalCopyMoved (t : Troupe)
  /-- ZONE_GROUP_RECLAIM (R206): An emptied zone group is reset and returned to the free pool. -/
  | zoneGroupReclaim (group : Nat)
  /-- RESHAPE_START (R207): A reshape job is accepted or refused. -/
  | reshapeStart
  /-- RESHAPE_PAUSE (R211): The reshape job pauses at its next boundary move. -/
  | reshapePause
  /-- RESHAPE_RESUME (R207): A PAUSED reshape job resumes. -/
  | reshapeResume
  /-- RESHAPE_ABORT (R211): The reshape job stops at its next boundary move. -/
  | reshapeAbort
  /-- RESHAPE_BOUNDARY_MOVE (R208): A batch's target stripes have committed and matched, so the boundary moves and a checkpoint is written. -/
  | reshapeBoundaryMove
  /-- PATROL_VISIT_STEP (R213): Patrol scrub-reads a stripe, checks its tags and parity, and relocates what needs it. -/
  | patrolVisitStep (f : PatrolFinding)
  /-- PATROL_VISIT_COMPLETE (R213): A shelf's patrol visit ends, and source 572 is raised. -/
  | patrolVisitComplete (shelf : Nat)
  /-- PATROL_OVERDUE (R212): A shelf not fully visited within its interval raises source 571, once a day. -/
  | patrolOverdue (shelf : Nat)
  /-- MND_LOSS_READ (R200): A write of the index copies the addressed loss-list entry into MND_LOSS_DATA. -/
  | mndLossRead (index : Word)
  /-- BACKEND_PORT_LOST (R217): A port has had no link for 1 s, so its shelves become FAULT and the troupes may be handed over. -/
  | backendPortLost (port : Nat) (peerReaches : Bool)
  /-- SHELF_BUS_STUCK (R220): A shelf bus held low for 35 ms is cleared with 9 clocks and a STOP. -/
  | shelfBusStuck (bus : Nat) (cleared : Bool)
  /-- SHELF_DEMAND (R224): A Fill, Stage, Patrol or Background demand arrives and is served or starts a closing. -/
  | shelfDemand (kind : DemandKind) (shelf deadline : Nat)
  /-- POWER_SLOT (R222): At a power slot the power master serves demands, closes idle shelves and arms transitions within the rack account. -/
  | powerSlot (failed : List Nat)
  /-- SHELF_STRIPES_SETTLED (R225): All stripes of a closing shelf have committed or voided, so CC.SHN goes to its modules. -/
  | shelfStripesSettled (shelf : Nat)
  /-- SHELF_SHUTDOWN_DONE (R225): The modules report shutdown or CLOSE_MS passes, so ARM POWER off is sent. -/
  | shelfShutdownDone (shelf : Nat)
  /-- SHELF_LINK_UP (R226): A waking shelf's link comes up, so the bridge and modules are enumerated and SET CYCLE is sent. -/
  | shelfLinkUp (shelf : Nat)
  /-- SHELF_OPEN (R226): Every module is ready or 2 × WAKE_MS passes, so the shelf is OPEN. -/
  | shelfOpen (shelf : Nat) (notReady : List Nat)
  /-- SHELF_WAKE_TIMEOUT (R226): No link at 2 × WAKE_MS, so the shelf is retried once, then set to FAULT. -/
  | shelfWakeTimeout (shelf : Nat)
  /-- STAGE_HOLD_EXPIRY (R237): A STAGE-IN hold reaches its expiry and ends. -/
  | stageHoldExpiry (shelf cntlid : Nat)
  /-- BRIDGE_FENCED_REPORT (R255): A bridge reports FENCED for a head and troupe, and a new Flyer settles that shelf's launches. -/
  | bridgeFencedReport (shelf : Nat) (t : Troupe) (programmed : List Nat)
  /-- BRIDGE_BATON_REFUSAL (R255): A bridge refuses a write of a troupe whose Baton the head does not hold, and source 619 is raised. -/
  | bridgeBatonRefusal (op : Nat)
  /-- LATE_DOORBELL_REPORT (R231): A bridge reports a doorbell forwarded late, and WHL_LATE counts it. -/
  | lateDoorbellReport (op : Nat)
  /-- SLOT_SEAL (R231): A slot's launch list is sealed 2 µs before the slot, and operations are admitted by class and MAX_OPS. -/
  | slotSeal
  /-- SLOT_START (R232): A slot edge is driven on WHEEL_TICK_OUT and WHEEL_REF, and the next slot's plan goes to Calliope. -/
  | slotStart (peerOfs : Option Int)
  /-- BEAT_EDGE (R17): At a beat edge the Flyer sends its Marker and each head closes and digests the beat. -/
  | beatEdge
  /-- CYCLE_EDGE (R233): At a cycle edge the Wheel slews or steps its offset, and Calliope starts a new cycle. -/
  | cycleEdge
  /-- WHEEL_REF_MISSING (R232): No WHEEL_REF pulse arrives for 1 beat, so a qualifying head takes over the drive. -/
  | wheelRefMissing
  /-- WHEEL_REF_CONTENTION (R376): A driver sees WHEEL_REF contention for 2 slots, so head 1 stops driving. -/
  | wheelRefContention
  /-- PTP_LOCK_LOST (R234): The driver loses PTP lock, enters HOLDOVER and raises source 672. -/
  | ptpLockLost
  /-- DESCRIPTOR_MESSAGE (R243): The Catcher receives a Descriptor of a fetched writer. -/
  | descriptorMessage (t : Troupe) (opcode nsid slba nlb arrival ctx : Nat)
  /-- CHUNK_MESSAGE (R165): The Catcher receives a reduced chunk, checks its STAGE_GUARD, and confirms it or asks again. -/
  | chunkMessage (t : Troupe) (handle : Nat) (stored : Bytes) (guard : BitVec 64)
  /-- CONFIRM_MESSAGE (R18): The Flyer receives the Catcher's confirmation of a staged chunk. -/
  | confirmMessage (t : Troupe) (handle : Nat) (held : Bool)
  /-- ORDER_MESSAGE (R245): The Catcher executes a received map update against its own map. -/
  | orderMessage (t : Troupe) (o : Order)
  /-- MARKER_MESSAGE (R17): The end-of-beat Marker arrives, so the Catcher closes the beat and digests it. -/
  | markerMessage (t : Troupe) (beat count last : Nat)
  /-- DIGEST_MESSAGE (R247): The peer's commit digest arrives and is compared with the head's own. -/
  | digestMessage (t : Troupe) (beat : Nat) (digest : Bytes)
  /-- JOURNAL_MESSAGE (R178): The Catcher stores a stripe journal entry in its HBM. -/
  | journalMessage (t : Troupe) (entry : Bytes)
  /-- CONTROL_MESSAGE (R243): The head receives a control message: heartbeat, roles, shelf table, module state or image digests. -/
  | controlMessage (m : ControlMsg)
  /-- CATCHER_DIGEST_TIMEOUT (R247): No Catcher digest 64 µs after the edge, so the troupe goes ALONE. -/
  | catcherDigestTimeout (t : Troupe)
  /-- FREEZE_VERDICT_MESSAGE (R250): The verdicts and digests of a freeze are exchanged, and the outcome is decided. -/
  | freezeVerdictMessage (v : VerdictMsg)
  /-- FREEZE_OUTCOME (R250): At the first eligible beat edge the freeze outcome takes effect, and source 610 is raised. -/
  | freezeOutcome (t : Troupe)
  /-- KEEPER_BEAT_EXPIRY (R252): The commit path has closed no beat for KEEPER_BEATS beats, so the keeper drops HOLD. -/
  | keeperBeatExpiry
  /-- BATON_CLAIM (R253): After 20 µs of SEE low the head drives HOLD and opens the confirm window. -/
  | batonClaim (t : Troupe)
  /-- BATON_CONFIRM_WINDOW_END (R253): The 2 µs window ends, and the claim is confirmed or lost to the home head. -/
  | batonConfirmWindowEnd (t : Troupe) (seeRose : Bool)
  /-- BATON_SEE_FALL (R257): An in-step Catcher sees the peer's HOLD fall and starts a takeover. -/
  | batonSeeFall (t : Troupe)
  /-- TAKEOVER_COMPLETE (R257): At the first beat edge 48 µs after confirmation the head is Flyer, ALONE, and ANA Optimized. -/
  | takeoverComplete (t : Troupe) (found : LandingLog)
  /-- HANDOVER_GATE (R261): At T − 64 µs the handover goes on or its target moves to the next edge. -/
  | handoverGate (t : Troupe)
  /-- HANDOVER_COMMIT_POINT (R261): At T − 48 µs the Flyer stops launching, sends its last Marker and drops HOLD. -/
  | handoverCommitPoint (t : Troupe)
  /-- HANDOVER_END (R261): At T the receiving head is Flyer, and source 613 is raised. -/
  | handoverEnd (t : Troupe)
  /-- HANDOVER_START (R261): The troupe enters HANDOVER, and new commands complete with status 0x84. -/
  | handoverStart (t : Troupe)
  /-- ICLIN_LINK_DOWN (R264): The Iclin link goes down, and source 620 is raised. -/
  | iclinLinkDown
  /-- ICLIN_LINK_UP (R264): The Iclin link returns and pairs, or refuses a duplicate HEAD_ID. -/
  | iclinLinkUp (peerHead lanes peerCount : Nat)
  /-- RESYNC_START (R263): A restarting or stale head joins as Catcher, and the Flyer starts copying dirty pages and staging. -/
  | resyncStart (t : Troupe)
  /-- RESYNC_COPY_END (R263): The copy ends, and the troupe is PAIRED at the next beat edge. -/
  | resyncCopyEnd (t : Troupe)
  /-- TRP_HANDBACK (R262): A handback of HB_TROUPE starts at the target beat. -/
  | trpHandback
  /-- TRP_REJOIN (R251): LASTING is cleared, and the head rejoins. -/
  | trpRejoin
  /-- PANTRY_ACCESS (R272): A requester access hits, or misses and allocates by its class way mask. -/
  | pantryAccess (cls : Nat) (stream addr : Nat) (write : Option Bytes)
  /-- PANTRY_LINE_FILL (R272): A missed word or line arrives from memory, and the requester restarts. -/
  | pantryLineFill (addr : Nat)
  /-- DMA_SNOOP (R273): A DMA access to an allocating target is snooped against the Pantry's tags. -/
  | dmaSnoop (addr len : Nat) (write : Option Bytes)
  /-- PANTRY_DRAIN_START (R274): ENABLE written 0 starts a drain of dirty lines. -/
  | pantryDrainStart
  /-- PANTRY_DRAIN_STOP (R274): ENABLE written 1 during the drain returns the Pantry to ON. -/
  | pantryDrainStop
  /-- PANTRY_DRAINED (R274): The last line is invalidated, so the state is OFF and source 736 is raised. -/
  | pantryDrained
  /-- PAN_STAT_CLEAR (R274): The Pantry statistics are set to 0. -/
  | panStatClear
  /-- SRAM_ECC_ERROR (R276): An SRAM word reports a correctable or uncorrectable error, handled by what it held. -/
  | sramEccError (bank : Nat) (ue : Bool) (held : SramContent)
  /-- HBM_ECC_ERROR (R278): An HBM word reports a correctable or uncorrectable error, handled by its region. -/
  | hbmEccError (stack pc : Nat) (ue : Bool) (held : HbmContent)
  /-- DDR_ECC_ERROR (R280): A DDR5 error is corrected, or zeroes a far-filter bucket, or returns a bus error. -/
  | ddrEccError (channel addr : Nat) (ue : Bool)
  /-- HBM_SPARE_COPY_DONE (R277): The copy to the spare pseudo-channel ends, and the spare takes its addresses. -/
  | hbmSpareCopyDone (stack : Nat)
  /-- MEMORY_SCRUB_PASS (R278): A background scrub pass of HBM or DDR5 starts at its period. -/
  | memoryScrubPass (ddr : Bool)
  /-- MEM_ERR_CLEAR (R278): The memory error counters are set to 0. -/
  | memErrClear
  /-- UNMAPPED_MEMORY_ACCESS (R266): A head memory access outside the populated ranges returns an error and raises source 748. -/
  | unmappedMemoryAccess (addr : Nat)
  /-- POWER_STATE_REACHED (R287): TRIM or DOZE is reached at a beat edge, and ENTER POWER STATE completes. -/
  | powerStateReached
  /-- PORTS_POWER_DOWN (R289): Step 2 ends, so the host ports power down and the head drains and switches off to the target state. -/
  | portsPowerDown
  /-- RING_DEMAND_WAKE (R288): Work needs a gated ring, so the ring is powered and its microcode reloaded. -/
  | ringDemandWake (ring : Nat)
  /-- RING_REGATE (R288): REGATE_MS passes without work, and a woken ring is gated again. -/
  | ringRegate (ring : Nat)
  /-- CALENDAR_ALARM (R293): The calendar reaches the alarm second and wakes the head. -/
  | calendarAlarm
  /-- MGMT_ADDRESS_MATCH (R298): An SMBus transaction matches the management address while the management block is off. -/
  | mgmtAddressMatch (addr command : Nat)
  /-- CELLAR_STATUS (R298): The matcher answers CELLAR STATUS from the cellar. -/
  | cellarStatus
  /-- MGMT_WAKE (R298): The WAKE command wakes the head with cause 0x1 or 0x6. -/
  | mgmtWake
  /-- SAMPLER_TICK (R296): In CAROUSEL the sampler reads supplies, temperatures and bridges, and wakes on confirmed crossings. -/
  | samplerTick (r : SamplerReading)
  /-- VIN_RESTORED (R314): VIN at or above RESTART_V for 100 ms wakes the head from CELLAR. -/
  | vinRestored
  /-- VIN_BELOW_CELLAR (R283): VIN falls below 5.5 V, so the cellar runs from VBAK. -/
  | vinBelowCellar
  /-- VIN_ABOVE_CELLAR (R283): VIN rises above 5.8 V, so the cellar runs from VIN. -/
  | vinAboveCellar
  /-- VIN_APPLIED (R338): VIN is applied to an unpowered or OFF head, and the head starts. -/
  | vinApplied (info : StartInfo)
  /-- RESET_ASSERT (R372): RESET_N asserted for at least 1 µs stops the head and holds its domains in reset. -/
  | resetAssert
  /-- RESET_RELEASE (R372): RESET_N released wakes the head with cause 0x5. -/
  | resetRelease (info : StartInfo)
  /-- WAKE_PART_TIMEOUT (R294): A regulator, FIO or PLL misses its limit, so it is retried or the wake fails to CELLAR. -/
  | wakePartTimeout (part : Nat)
  /-- WAKE_GROUP_READY (R292): A wake group is ready, so the sequencer wakes the next group. -/
  | wakeGroupReady (group : Nat) (signatures : List (Nat × BitVec 64)) (info : StartInfo)
  /-- DOMAIN_FIRST_ACCESS (R292): A first access to a domain that is not ready wakes it and stalls the requester. -/
  | domainFirstAccess (domain : Nat)
  /-- DOMAIN_NOT_READY (R292): The domain is not ready within 200 µs, so the access gets a bus error. -/
  | domainNotReady (domain : Nat)
  /-- PWR_DOM_ON (R292): The selected ENABLED domain is woken. -/
  | pwrDomOn
  /-- PWR_CLK_SWITCH (R292): The control cores move to the core PLL once it is locked. -/
  | pwrClkSwitch
  /-- CALENDAR_SET (R297): A write of CEL_CAL_HI loads the calendar and sets VALID. -/
  | calendarSet (value : Word)
  /-- CALENDAR_CRYSTAL_STOPPED (R373): The oscillator stops for 4 ms, so VALID clears and the FIOs run unlocked. -/
  | calendarCrystalStopped
  /-- POWER_SAMPLE (R302): Each 1 µs sample runs the rail loops, the governor duty step and the plausibility check. -/
  | powerSample (p : PowerSample)
  /-- RAIL_OUT_OF_REGULATION (R301): A rail leaves ±8 % for 2 µs, so the keeper drops HOLD and a fault is counted. -/
  | railOutOfRegulation (rail : Nat)
  /-- CAL_SWAP (R307): The coefficient banks swap at the next sample, or the swap is refused on a CRC failure. -/
  | calSwap
  /-- CAL_COEF_WRITE (R307): A word of the inactive coefficient bank is written. -/
  | calCoefWrite (value : Word)
  /-- HOLDUP_UPDATE (R309): Every 1 ms the hold-up energy, the need and the trigger voltage are recomputed. -/
  | holdupUpdate (vhMv : Nat)
  /-- FLUSH_TRIGGER (R311): V_H or the early warning trips, so the last-breath flush starts. -/
  | flushTrigger (earlyWarning : Bool)
  /-- THERMAL_TRIP (R378): 115 °C for 10 µs switches off every domain but the cellar. -/
  | thermalTrip
  /-- FAULT_COUNT (R316): A counted fault of a part is added to its window, and becomes lasting at THRESH. -/
  | faultCount (cls part : Nat) (atOnce : Bool)
  /-- FAULT_AGE_OUT (R336): The last count of an open fault ages out of its window, and the fault closes. -/
  | faultAgeOut (cls part : Nat)
  /-- BRK_CLAIM (R323): A read of the claim register returns the highest-priority claimable source and marks it IN_SERVICE. -/
  | brkClaim (core : Nat)
  /-- BRK_DONE (R323): The service of an IN_SERVICE source ends. -/
  | brkDone (core source : Nat)
  /-- BRK_PEND_DISMISS (R323): A source is dismissed whatever its state. -/
  | brkPendDismiss (k : Nat) (mask : Word)
  /-- BRK_RAISE (R325): A firmware doorbell source is raised, or the raise is refused. -/
  | brkRaise (source : Nat)
  /-- ATTIC_RECORD_WRITE (R329): Every 4 µs the next queued record is written to its slot. -/
  | atticRecordWrite
  /-- ATC_READ_SLOT (R331): A slot is copied into ATC_READ_DATA. -/
  | atcReadSlot (slot : Nat)
  /-- ATC_SET_COMMIT (R333): A snapshot set is committed, its generation increments and a record is written. -/
  | atcSetCommit
  /-- PARADE_BUILD (R334): A summary is built into GLB_PARADE_DATA. -/
  | paradeBuild
  /-- HQE_PEAK_CLEAR (R50): The high-water marks are reset to the present values. -/
  | hqePeakClear
  /-- LDR_CNT_CLEAR (R103): The dedup statistics counters are set to 0. -/
  | ldrCntClear
  /-- CPH_STAT_CLEAR (R137): The cipher statistics counters are set to 0. -/
  | cphStatClear
  /-- TSI_LOAD (R33): An image copy into staging starts, or is refused. -/
  | tsiLoad
  /-- TSI_LOAD_DONE (R33): The copy ends, and the state is LOADED or FAILED. -/
  | tsiLoadDone (sourceError : Bool)
  /-- TSI_CHECK (R32): An agreement check of the merged staging copy starts. -/
  | tsiCheck
  /-- TSI_CHECK_DONE (R32): The check ends in CHECKED or FAILED, with its code. -/
  | tsiCheckDone (xmssRoot : Bytes)
  /-- TSI_ARM (R35): A checked image is armed for a target edge, or refused. -/
  | tsiArm
  /-- TSI_CANCEL (R35): An arm is withdrawn before the commit point. -/
  | tsiCancel
  /-- TSI_DISCARD (R33): Staging is emptied. -/
  | tsiDiscard
  /-- IMAGE_COMMIT_POINT (R37): At E − 32 µs the pair digests are exchanged, and affected sites stop taking bursts. -/
  | imageCommitPoint
  /-- IMAGE_APPLY (R37): At the target edge every block switches to the merged image. -/
  | imageApply
  /-- IMAGE_STREAMS_RESTORED (R37): At E + 16 µs the affected sites take bursts again, and source 933 is raised. -/
  | imageStreamsRestored
  /-- BOOTH_MICROCODE_LOADED (R41): Microcode is loaded into a booth site, and the site becomes ready. -/
  | boothMicrocodeLoaded (site : Nat)
  /-- BRIDGE_FIRMWARE_LOAD (R350): A pending bridge is loaded while its shelf is DARK. -/
  | bridgeFirmwareLoad (shelf : Nat)
  /-- FIRMWARE_ACTIVATION_EDGE (R358): At E the checks run again, TRIAL is set, and the troupes are handed over before a restart. -/
  | firmwareActivationEdge (peerConfirms : Bool)
  /-- FWU_CONFIRM (R360): The trial is confirmed, and ACTIVE takes TRIAL. -/
  | fwuConfirm
  /-- FWU_SVN_RAISE (R345): The fuse SVN floor is raised to the ACTIVE image's SVN. -/
  | fwuSvnRaise
  /-- FWU_CANCEL (R357): A scheduled activation is withdrawn. -/
  | fwuCancel
  /-- FWU_FIELD_RECOVERY (R342): FIELD is written and the head restarts. -/
  | fwuFieldRecovery
  /-- TRIAL_TIMEOUT (R362): TRIAL_S passes without CONFIRM, so the head rolls back. -/
  | trialTimeout
  /-- ATTESTATION_START (R353): A quote request starts in the Strongroom. -/
  | attestationStart
  /-- ATTESTATION_QUOTE_DONE (R353): The signed quote is written, and RESULT is set. -/
  | attestationQuoteDone (signature : Bytes)
  /-- JTAG_INSTRUCTION_LOAD (R368): A TAP instruction is loaded, and boundary-scan instructions hold the head in reset. -/
  | jtagInstructionLoad (instr : JtagInstr)
  /-- TAP_TEST_LOGIC_RESET (R368): The TAP returns to Test-Logic-Reset, and a held head starts again. -/
  | tapTestLogicReset
  /-- PTP_LOCK_ACQUIRED (R233): The PTP servo locks, and the driver head locks its Wheel phase to PTP and leaves FREE or HOLDOVER for state PTP. -/
  | ptpLockAcquired
  /-- REF_MISSING (R233): WHEEL_REF is missing for 2 slots, so the follower locks its phase to WHEEL_TICK_IN and source 676 is raised. -/
  | refMissing
  /-- BACKEND_PORT_LINK_UP (R217): A back-end port's link trains or retrains, its width and rate in SHF_PORT_n take effect, and PORT NARROW is left when it trains at x8 again. -/
  | backendPortLinkUp (port width speed : Nat)
  /-- HOST_PORT_LINK_DOWN (R46): A host port loses its Ethernet link, its connections are lost and source 288 + p is raised. -/
  | hostPortLinkDown (port : Nat)
  /-- MODULE_INSERTED (R187): A module is inserted into a shelf slot and enters ABSENT until it is admitted. -/
  | moduleInserted (shelf mdl : Nat)
  /-- START_WAIT_EXPIRY (R242): The Iclin link has reported the peer absent for START_WAIT since the head's start, so the head claims the other troupe. -/
  | startWaitExpiry
  /-- LOSS_OF_BOTH_SUPPLIES (R283): The cellar loses VBAK while VIN is absent, becomes unpowered, stops the calendar and clears VALID. -/
  | lossOfBothSupplies
  deriving DecidableEq, Repr

end Sys2Proof
end

