-- ==== Sys2Proof/Decode.lean ====
section
/-!
DEFINITION. The decoder over the rows of spec/opcode_table.json that give bits: none does, because the head's commands are
accesses and events at its boundary and not words.
-/

namespace Sys2Proof

/-- The command that a word of `nbits` bits spells: no row of the table gives bits. -/
def decodeTableWord (_nbits _w : Nat) : Option Instr := none

end Sys2Proof
end

