-- ==== Sys2Proof/Config.lean ====
section
/-!
DEFINITION. Values that the spec leaves open or that lie outside the model: constants without a body, so that no proof can lean
on a value of theirs (log 7).
-/

namespace Sys2Proof

/-- A free number: the value of a quantity the spec does not state, by the step's free-value counter. -/
opaque Config.freeNat : Nat → Nat

/-- Free bytes: a random draw of the Strongroom (keys, salts, nonces), by the free-value counter. -/
opaque Config.freeBytes : Nat → Bytes

/-- CODE of a record that accompanies a Barker source (R326: "record kind within the source"; no rule numbers the kinds), by
source and severity. -/
opaque Config.recordCode : Nat → Nat → Nat

/-- The identity public key, 68 bytes (R351). -/
opaque Config.identityKey : Bytes

/-- Free zones and units per zone that a module reports when it is admitted (R187), by shelf and module. -/
opaque Config.moduleZones : Nat → Nat → List Nat × Nat

/-- The DH-HMAC-CHAP answer of the head to the messages received so far (R48). -/
opaque Config.authReply : List Bytes → Bytes

/-- The compressed form that the match finder and the entropy coders choose for a block, by LEVEL, LITERALS, window, the history before
the frame's block, the blocks of the frame so far and the content (R106 to R110): the spec fixes the frame, not the parse. -/
opaque Config.zstdBlock : Nat → Nat → Nat → Bytes → Bytes → Bytes → Bytes

/-- The fields of the CAP property and of Identify and standard log pages that the spec does not state (R57, R58). -/
opaque Config.capRest : Nat
opaque Config.identifyRest : Nat → Bytes
opaque Config.logRest : Nat → Bytes

/-- The zone that a module gives to a zone group, as the landing shelves' metadata names it (R173): by group and module. -/
opaque Config.groupZone : Nat → Nat → Nat

/-- The map page that an update touches (R263), by type, namespace, first operand and LOCATION. -/
opaque Config.orderPage : Nat → Nat → Nat → Nat → Nat

end Sys2Proof
end

