-- ==== Sys2Proof/Machine/State.lean ====
section
/-!
DEFINITION. The state of the CV-6400 head: every register, queue, buffer, counter, mode and pin the spec gives it, as plain
data, with the queue of waiting commands. Each field's comment names its width, the rule that gives it and its value at reset;
`none stated` means that the spec states none and the log entry named there chose one.
-/

namespace Sys2Proof.Machine

open Sys2Proof

/-- The machine stops. -/
inductive Fault where
  /-- A limit of R369 is exceeded: "The head guarantees no behaviour while any limit is exceeded". Raised by POWER_SAMPLE
  and HOLDUP_UPDATE. Safe: the model stops where the head may do anything. -/
  | limitExceeded
  deriving DecidableEq, Repr

/-- A command is turned away without a meaning. -/
inductive Refusal where
  /-- The command has no meaning yet; raised only by an arm of Dispatch. Safe: the model stops where the head goes on. -/
  | notModelled (mnemonic : String)
  deriving DecidableEq, Repr

/-! ## Fuses and straps -/

/-- What manufacture fixes (R1, R344). -/
structure Fuse where
  /-- grade, 4 bits: 1 S, 2 M, 3 X; 00_scope.md R1; fuse, DESIGN CHOICE X (log 3) -/
  grade : Nat := 3
  /-- stepping, 8 bits; 00_scope.md R1; fuse, 0x10 for the first production stepping (log 3) -/
  stepping : BitVec 8 := 0x10
  /-- unit serial, 64 bits; 16_boot_trust_and_firmware.md R344; fuse, DESIGN CHOICE 0 (log 3) -/
  serial : BitVec 64 := 0
  /-- four key roots: OID, root and public seed, none when not blown; 16 R344; fuse, DESIGN CHOICE none blown (log 3) -/
  roots : List (Nat × Bytes) := []
  /-- four revocation bits; 16 R344; fuse, DESIGN CHOICE 0 (log 3) -/
  revoked : BitVec 4 := 0
  /-- SVN floor, a 63-bit thermometer held as its count; 16 R344; fuse, DESIGN CHOICE 0 (log 3) -/
  svnFloor : Nat := 0
  /-- MFG_OPEN, 1 bit; 16 R344; fuse, DESIGN CHOICE 0 (log 3) -/
  mfgOpen : Bool := false
  deriving DecidableEq, Repr

/-! ## Barker, the Attic and the fault windows -/

/-- The state of one Barker source (R323). -/
structure SrcState where
  /-- source number, 0 to 1,151 -/
  src : Nat
  /-- PENDING, 1 bit -/
  pending : Bool := false
  /-- IN_SERVICE, 1 bit -/
  inService : Bool := false
  /-- PENDING_AGAIN, 1 bit -/
  again : Bool := false
  /-- REPEAT, 8 bits, saturating -/
  rep : Nat := 0
  deriving DecidableEq, Repr

/-- An Attic record before it is laid out in its 128 bytes (R326). -/
structure AtticRec where
  /-- SEQ, 64 bits -/
  seq : Nat
  /-- operating-hours counter, 40 bits, in s -/
  opSec : Nat := 0
  /-- power-cycle count, 24 bits -/
  cycles : Nat := 0
  /-- 0 INFO, 1 NOTICE, 2 FAULT, 3 CRITICAL -/
  severity : Nat
  /-- FLAGS: bit 0 TRUNCATED, bit 1 CELLAR, bit 2 REWRITTEN -/
  flags : Nat := 0
  /-- Barker source, 0xFFFF when none -/
  source : Nat
  /-- record kind -/
  code : Nat
  /-- payload bytes -/
  payload : Bytes := []
  /-- snapshot words -/
  snaps : List Word := []
  /-- snapshot set and its generation -/
  set : Nat := 0
  setGen : Nat := 0
  /-- calendar seconds, 32 bits; 0 while the calendar is invalid -/
  calendar : Nat := 0
  deriving DecidableEq, Repr

/-- The Attic (R326 to R333). -/
structure Attic where
  /-- non-empty slots (slot, record) in ascending slot; 12,288 slots of 128 B in the cellar store; 15_faults_barker_attic.md R326; record, DESIGN CHOICE empty (log 4) -/
  slots : List (Nat × AtticRec) := []
  /-- record queue, at most 256; 15 R328; reset empty -/
  queue : List AtticRec := []
  /-- next SEQ, 64 bits, never reset; 15 R328, R332; record, DESIGN CHOICE 1 (log 4) -/
  nextSeq : Nat := 1
  /-- highest SEQ written, 64 bits; 15 R335 ATC_HEAD; record, DESIGN CHOICE 0 (log 4) -/
  head : Nat := 0
  /-- slot of the highest SEQ written; 15 R335; record, DESIGN CHOICE 0 (log 4) -/
  headSlot : Nat := 0
  /-- four drop counters, 32 bits; 15 R328; record, DESIGN CHOICE 0 (log 4) -/
  drops : List Nat := [0, 0, 0, 0]
  /-- snapshot sets 1 to 31 committed: (set, generation, addresses); 15 R333; record, DESIGN CHOICE none (log 4) -/
  sets : List (Nat × Nat × List Nat) := []
  /-- a clear is running: SEQ reserved for the clear record and the payload; 15 R332; reset none -/
  clearing : Option (Nat × Bytes) := none
  /-- SEQ of the last "Attic cleared" record; 15 R335; record, DESIGN CHOICE 0 (log 4) -/
  clearSeq : Nat := 0
  /-- ATC_READ_DATA_k: the copied slot, 32 words; 15 R331; reset 0 -/
  readData : List Word := []
  /-- when source 996 was last raised, in µs; 15 R328; reset none -/
  lastDropRaise : Option Nat := none
  /-- pending-record buffer of the power record: slot and record being written; 15 R329; record, DESIGN CHOICE none (log 4) -/
  buffer : Option (Nat × AtticRec) := none
  deriving DecidableEq, Repr

/-- One part's fault window (R316, R336). -/
structure FaultPart where
  /-- class of R316 -/
  cls : Nat
  /-- part number within the class -/
  part : Nat
  /-- times of its last counts on the operating-hours counter, in s, newest first -/
  times : List Nat := []
  /-- STATE of R336: 0 not open, 1 counting, 2 lasting, 3 spare in service, 4 reduced mode -/
  state : Nat := 0
  /-- STAMP of the last count -/
  last : Nat := 0
  deriving DecidableEq, Repr

/-- Spares of one kind (R70 log 0xC4, R318). -/
structure SpareKind where
  /-- KIND 0x1 to 0x8 -/
  kind : Nat
  /-- MODE: 0 spares remain, 1 last spare in use, 2 reduced mode -/
  mode : Nat := 0
  /-- TOTAL -/
  total : Nat := 0
  /-- IN_USE -/
  inUse : Nat := 0
  deriving DecidableEq, Repr

/-- Fault windows and spares (R316 to R321). -/
structure Faults where
  /-- parts with a history or an open fault; 15 R316; histories start empty (classes 0x9 and 0xC: record, DESIGN CHOICE empty, log 4) -/
  parts : List FaultPart := []
  /-- log 0xC4: eight kinds; 15 R318, 03 R70; TOTAL from the parts the spec provides, modules and zones DESIGN CHOICE 0 until admitted (log 4) -/
  spares : List SpareKind :=
    [⟨1, 0, 4, 0⟩, ⟨2, 0, 8, 0⟩, ⟨3, 0, 4, 0⟩, ⟨4, 0, 2, 0⟩, ⟨5, 0, 4, 0⟩, ⟨6, 0, 0, 0⟩, ⟨7, 0, 0, 0⟩, ⟨8, 0, 0, 0⟩]
  /-- REDUCED_MODES, one bit per mode of R321; reset 0 -/
  reduced : BitVec 6 := 0
  deriving DecidableEq, Repr

/-! ## The Thiez image and its loader -/

/-- A SITE entry (R29). -/
structure SiteEnt where
  state : Nat
  position : Nat
  programs : Nat
  deriving DecidableEq, Repr

/-- A GEOM entry (R169). -/
structure GeomEnt where
  id : Nat
  k : Nat
  parity : Nat
  unit : Nat
  cls : Nat
  writeMode : Nat
  rotate : Nat
  deriving DecidableEq, Repr

/-- A DOMAIN entry (R86). -/
structure DomainEnt where
  id : Nat
  enable : Nat
  verify : Nat
  gearMask : BitVec 64
  seed : BitVec 64
  saltIndex : Nat
  cprof : Nat
  coldGeom : Nat
  landingGeom : Nat
  deriving DecidableEq, Repr

/-- A CPROF entry (R108). -/
structure CprofEnt where
  id : Nat
  level : Nat
  windowLog : Nat
  history : Nat
  segmentKib : Nat
  literals : Nat
  deriving DecidableEq, Repr

/-- An HBM region entry of the BANK section (R267). -/
structure RegionEnt where
  function : Nat
  stackMask : Nat
  baseMib : Nat
  sizeMib : Nat
  deriving DecidableEq, Repr

/-- A PDOM entry (R282). -/
structure PdomEnt where
  flags : Nat
  group : Nat
  deriving DecidableEq, Repr

/-- A WHEEL entry (R230). -/
structure SlotPlan where
  classMask : Nat
  budgetW : Nat
  maxOps : Nat
  deriving DecidableEq, Repr

/-- The sections of an image, parsed (R28); a delta or a derived image holds only those it carries. -/
structure Sections where
  site : Option (List SiteEnt) := none
  /-- per ring: route of the eight positions and the four chain words -/
  xbar : Option (List (List Nat × List Nat)) := none
  /-- per ring: 36 lane bytes -/
  lane : Option (List (List Nat)) := none
  geom : Option (List GeomEnt) := none
  domain : Option (List DomainEnt) := none
  cprof : Option (List CprofEnt) := none
  /-- 64 bank functions and the HBM regions -/
  bank : Option (List Nat × List RegionEnt) := none
  pdom : Option (List PdomEnt) := none
  wheel : Option (List SlotPlan) := none
  dring : Option (List Nat) := none
  deriving DecidableEq, Repr

/-- An image in staging, in the course of application or in force (R26, R32). -/
structure Image where
  /-- KIND: 0 full, 1 delta, 2 derived -/
  kind : Nat
  imageId : Nat
  generation : Nat := 0
  grades : Nat := 7
  part : Nat := 0x640
  /-- BASE_DIGEST -/
  base : Bytes := []
  /-- AUTH_TYPE -/
  auth : Nat := 1
  /-- directory types in order, for a repeated or unknown one (code 0x05) -/
  types : List Nat := []
  /-- raw bytes of each section, by TYPE -/
  raw : List (Nat × Bytes) := []
  /-- first failing code of the container checks 0x01 and 0x05, with section and entry; 0 when they pass -/
  form : Nat × Nat × Nat := (0, 0, 0)
  crc : Nat × Nat × Nat := (0, 0, 0)
  deriving DecidableEq, Repr

/-- A retirement list entry (R44). -/
structure Retirement where
  /-- 1 booth site, 2 ring lane, 3 SRAM bank -/
  kind : Nat
  part : Nat
  replacement : Option Nat
  opSec : Nat
  cycles : Nat
  deriving DecidableEq, Repr

/-- An arm waiting for its edge (R35). -/
structure Armed where
  imageId : Nat
  /-- merged raw sections to apply, by TYPE -/
  raw : List (Nat × Bytes)
  /-- target beat -/
  beat : Nat
  /-- pair-scoped change (R36) -/
  pairScoped : Bool
  derived : Bool
  /-- commit point passed -/
  committed : Bool := false
  /-- sites affected (R37) -/
  affected : List Nat := []
  /-- its commit point has been reached and the peer has been sent the pair digest and target beat (R36) -/
  offered : Bool := false
  deriving DecidableEq, Repr

/-- A spare substitution in hand (R41, R42). -/
structure Substitution where
  /-- 1 booth site, 2 ring lane, 3 SRAM bank -/
  kind : Nat
  part : Nat
  replacement : Option Nat
  /-- the spare needs microcode before the derived image arms -/
  waitMicrocode : Bool
  deriving DecidableEq, Repr

/-- The loader (block TSI). -/
structure Tsi where
  /-- loader state, 3 bits; 02_thiez_structural_image.md R33; reset 0x0 EMPTY -/
  state : Nat := 0
  /-- staging copy; 02 R33; reset empty -/
  staging : Option Image := none
  /-- bytes of a LOAD in progress, with the state to return to on merge; 02 R33; reset none -/
  loading : Option Bytes := none
  /-- ABORT_REASON, 2 bits; reset 0 -/
  abortReason : Nat := 0
  /-- last CHECK: code, section, entry; reset 0 -/
  check : Nat × Nat × Nat := (0, 0, 0)
  /-- merged raw sections that the last CHECK passed, by TYPE; reset none -/
  checked : Option (List (Nat × Bytes)) := none
  /-- arm waiting for its edge; reset none -/
  armed : Option Armed := none
  /-- pair digest and target beat last received from the peer (R36); reset none -/
  peerArm : Option (Bytes × Nat) := none
  /-- derived images waiting or armed: spare substitutions in order; reset none -/
  substitutions : List Substitution := []
  /-- armed derived image; reset none -/
  derivedArm : Option Armed := none
  /-- image in force; reset none (02 R40: RWA open until the first arm) -/
  active : Option Image := none
  /-- raw sections in force, by TYPE, and the same parsed; reset none -/
  raw : List (Nat × Bytes) := []
  sections : Sections := {}
  /-- digest of the active merged image, 32 bytes; reset 0 -/
  digest : Bytes := []
  /-- TSI_APPLIED_BEAT; reset 0 -/
  appliedBeat : Nat := 0
  /-- the first arm has been made since reset (R40) -/
  firstArm : Bool := false
  /-- sites whose streams wait for E + 16 µs (R37 steps 4, 5) -/
  restoring : List Nat := []
  /-- booth sites fenced (R41) -/
  fenced : List Nat := []
  /-- booth sites whose microcode is loaded (R41, R349) -/
  microcode : List Nat := []
  /-- retirement list, at most 256; 02 R44; record, DESIGN CHOICE empty (log 4) -/
  retired : List Retirement := []
  /-- staged RWS set: (register address, value, time staged); 02 R39; reset none -/
  staged : List (Nat × Word × Nat) := []
  /-- the failed agreement of the staged set has been reported; 02 R39; reset 0 -/
  disagreed : Bool := false
  deriving DecidableEq, Repr

/-! ## Host queues -/

/-- An event retained for a controller (R75): type, information, log page. -/
structure AsyncEvent where
  type : Nat
  info : Nat
  page : Nat
  deriving DecidableEq, Repr

/-- A controller (R50, R53, R56). -/
structure Ctrl where
  /-- CNTLID, 1 to 1,024 -/
  cntlid : Nat
  discovery : Bool := false
  port : Nat := 0
  transport : Transport := .rdma
  hostNqn : Bytes := []
  /-- feature 0x0F, in ms -/
  kato : Nat := 0
  /-- last Keep Alive or Connect, in µs -/
  kaStart : Nat := 0
  /-- CC property -/
  cc : Word := 0
  /-- CSTS property -/
  csts : Word := 0
  /-- reset or shutdown in progress: true for shutdown (R80) -/
  resetting : Option Bool := none
  /-- feature 0x0B -/
  feat0B : Word := 0x0B00
  /-- feature 0x07 value granted -/
  queues : Nat := 0
  /-- feature 0xC1 -/
  featC1 : Word := 0x7
  /-- CIDs of outstanding Asynchronous Event Requests, at most 8, with their contexts -/
  aers : List (Nat × Nat) := []
  /-- events waiting for a request -/
  events : List AsyncEvent := []
  /-- events posted and retained until their log page is read with RAE clear -/
  retained : List AsyncEvent := []
  /-- GENERATION of log 0xC1 -/
  freezeGen : Nat := 0
  /-- summary of the last offset-0 read of log 0xC0 and its time (R334) -/
  summary : Option (Nat × Bytes) := none
  /-- DH-HMAC-CHAP messages received, newest first (R48) -/
  auth : List Bytes := []
  deriving DecidableEq, Repr

/-- A freeze record (R70). -/
structure Freeze where
  nsid : Nat
  seq : Nat
  cid : Nat
  opcode : Nat
  checkPoint : Nat
  status : Nat
  failCount : Nat
  slba : Nat
  nlb : Nat
  failLba : Nat
  guardExp : BitVec 64 := 0
  guardAct : BitVec 64 := 0
  refExp : Nat := 0
  refAct : Nat := 0
  appExp : Nat := 0
  appAct : Nat := 0
  appMask : Nat := 0
  site : Nat := 0xFFFF
  /-- PTP time of the freeze, in ns -/
  time : Nat := 0
  later : List Nat := []
  deriving DecidableEq, Repr

/-- An entry of a submission queue buffer: the capsule, its arrival number and arrival time. -/
structure Entry where
  cap : Capsule
  arrival : Nat
  deriving DecidableEq, Repr

/-- A queue pair (R50, R51). -/
structure QPair where
  cntlid : Nat
  qid : Nat
  port : Nat
  transport : Transport
  /-- entries of the submission queue buffer: SQSIZE + 1 -/
  size : Nat
  /-- unfetched entries, oldest first -/
  entries : List Entry := []
  /-- submission queue head -/
  sqhd : Nat := 0
  /-- freeze record while the queue is frozen -/
  frozen : Option Freeze := none
  /-- in-capsule data slots held, at most 8 -/
  slots : Nat := 0
  /-- capsules with in-capsule data that the port holds back (R51) -/
  heldBack : List Capsule := []
  deriving DecidableEq, Repr

/-- Where a command context stands. -/
inductive Phase where
  /-- waits at the overlap fence (R65) -/
  | fence
  /-- checks passed, ready to run its own command row -/
  | ready
  /-- waits for a booth, a hold, a ring or a power-state reversal -/
  | held
  /-- data is being pulled or decoded -/
  | running
  /-- all map updates issued; waits for R18 or R248 -/
  | waitAck
  /-- its completion is posted or it has ended; waits for COMMAND_CONTEXT_FREED -/
  | done
  deriving DecidableEq, Repr

/-- Who sees the failing block first (R62, R163). -/
structure PiFail where
  point : Nat
  sc : Nat
  lba : Nat
  guardExp : BitVec 64 := 0
  guardAct : BitVec 64 := 0
  refExp : Nat := 0
  refAct : Nat := 0
  appExp : Nat := 0
  appAct : Nat := 0
  appMask : Nat := 0
  deriving DecidableEq, Repr

/-- An extent of the map: bytes of a namespace that a chunk holds (R162); `chunk` none is the zero extent. -/
structure Extent where
  nsid : Nat
  /-- first byte and length in the namespace's data -/
  start : Nat
  len : Nat
  chunk : Option Nat
  /-- first byte within the chunk -/
  offset : Nat
  apptag : Nat
  poisoned : Bool := false
  /-- poisoned because the chunk was lost (R200) -/
  lost : Bool := false
  deriving DecidableEq, Repr

/-- A command context in the Cupboard (R50, R54). -/
structure Ctx where
  id : Nat
  cntlid : Nat
  qid : Nat
  cap : Capsule
  arrival : Nat
  admin : Bool
  phase : Phase
  /-- fetched at, in µs -/
  at_ : Nat
  /-- LBA ranges covered: (SLBA, blocks) -/
  ranges : List (Nat × Nat) := []
  /-- booth site chosen (R13); 0xFFFF none -/
  site : Nat := 0xFFFF
  /-- segment stream that the Write continues (R109); none: a stream of its own -/
  seg : Option Nat := none
  /-- bytes of host data requested by bursts so far, and received -/
  asked : Nat := 0
  got : Nat := 0
  /-- open R2T grant or RDMA Read: (offset, length) (R14) -/
  grant : Option (Nat × Nat) := none
  /-- host blocks received and not yet cut: the open chunk's bytes (R81) -/
  openBytes : Bytes := []
  /-- partial block bytes received past the last whole block -/
  partialBytes : Bytes := []
  /-- rolling hash of the open chunk (R83) -/
  hash : BitVec 64 := 0
  /-- application tag of each block received, first block first -/
  tags : List Nat := []
  /-- ends of the input bursts, as data bytes from the start of the Write (R106) -/
  bursts : List Nat := []
  /-- first byte of the open chunk within the Write -/
  chunkStart : Nat := 0
  /-- first byte of the Write not yet named by an extent order -/
  mapped : Nat := 0
  /-- chunks of this Write still undecided, unplaced or unconfirmed -/
  chunks : List Nat := []
  /-- staging handles whose confirmation (a) is awaited (R18) -/
  unconfirmed : List Nat := []
  /-- staging handles not yet written to the vault (R248) -/
  unvaulted : List Nat := []
  /-- beat of the last map update (R18 b) -/
  lastBeat : Option Nat := none
  /-- the last map update has been issued (R65) -/
  issued : Bool := false
  /-- a reader has resolved every location (R65) -/
  resolved : Bool := false
  /-- uids a reader holds references on -/
  refs : List Nat := []
  /-- blocks still to be sent or compared: lba list -/
  remaining : List Nat := []
  /-- the extents of a reader's range as it resolved them (R65) -/
  view : List Extent := []
  /-- chunks decoded for the command: (uid, plaintext) -/
  decoded : List (Nat × Bytes) := []
  /-- host data of a Compare, blocks of 4,112 or 4,096 bytes -/
  hostData : Bytes := []
  /-- ended without a completion but running on (R80) -/
  silent : Bool := false
  /-- shelves a STAGE-IN waits for (R236) -/
  shelves : List Nat := []
  /-- writers a Flush waits for (R80) -/
  waits : List Nat := []
  /-- held by a fence on a power-state entry (R79) -/
  powerHeld : Bool := false
  deriving DecidableEq, Repr

/-- A namespace of the pair (R56, R61, R240), as head firmware created it. -/
structure Namespace where
  nsid : Nat
  troupe : Troupe
  domain : Nat
  /-- blocks of 4 KiB -/
  size : Nat
  /-- feature 0xC0: strict mode (R67) -/
  strict : Bool := false
  deriving DecidableEq, Repr

/-- The running self-test (R76, R77). -/
structure SelfTest where
  /-- 1 short, 2 extended -/
  kind : Nat
  /-- running time so far, in µs -/
  ran : Nat := 0
  /-- running since, none while suspended -/
  since : Option Nat
  deriving DecidableEq, Repr

/-- The host queue engine (block HQE). -/
structure Hqe where
  /-- controllers, at most 1,024; 03_host_queues_and_ordering.md R50; reset none -/
  ctrls : List Ctrl := []
  /-- queue pairs, at most 4,096; 03 R50; reset none -/
  qpairs : List QPair := []
  /-- command contexts in use, at most 16,384, and the 1,024 STAGE-IN hold contexts (`holdCtxs`); 03 R50; reset none -/
  ctxs : List Ctx := []
  /-- STAGE-IN hold contexts in use; 03 R50; reset none -/
  holdCtxs : List Ctx := []
  /-- next context number of the model -/
  nextCtx : Nat := 0
  /-- next head-wide arrival number; 03 R65; none stated, DESIGN CHOICE 1 (log 5) -/
  nextArrival : Nat := 1
  /-- queue last served by the round robin: (cntlid, qid); 03 R54; reset none -/
  lastServed : Nat × Nat := (0, 0)
  /-- the pool-full episode has been reported (R54) -/
  poolFull : Bool := false
  /-- next freeze sequence number; 03 R67; none stated, DESIGN CHOICE 1 (log 5) -/
  nextFreeze : Nat := 1
  /-- high-water marks: controllers, contexts; 03 HQE_PEAK; reset 0 -/
  peakCtrls : Nat := 0
  peakCtxs : Nat := 0
  /-- in-capsule data slots in use per host port; 03 R51; reset 0 -/
  portSlots : List (Nat × Nat) := []
  /-- host ports with link: bit p; 03 R46; none stated, DESIGN CHOICE 0 (log 5) -/
  portsUp : BitVec 8 := 0
  /-- namespaces of the pair; 03 R55; on the landing shelves, DESIGN CHOICE none (log 4) -/
  namespaces : List Namespace := []
  /-- self-test in progress; 03 R76; reset none -/
  selfTest : Option SelfTest := none
  /-- log 0x06, newest first: (kind, result code); 03 R76; DESIGN CHOICE empty (log 4) -/
  testLog : List (Nat × Nat) := []
  /-- time of the last host I/O seen (R77) -/
  lastIo : Nat := 0
  /-- Error Information log 0x01, newest first: (cntlid, qid, cid, status); 03 R57, R74; DESIGN CHOICE empty (log 4) -/
  errors : List (Nat × Nat × Nat × Nat) := []
  /-- SMART data units: blocks read and written since reset; 03 R57; DESIGN CHOICE 0 (log 4) -/
  blocksRead : Nat := 0
  blocksWritten : Nat := 0
  deriving DecidableEq, Repr

/-! ## The write path, the map and staging -/

/-- Where a chunk of a Write stands (R88, R96, R97). -/
inductive Stage where
  /-- closed by the chunker; its fingerprint is not ready -/
  | cut
  /-- the Larder and the pending table missed; the far filter is probed -/
  | farWait
  /-- decided unique, but the pending table is full (R96) -/
  | held
  /-- waits for an index page -/
  | pageWait (page : Nat)
  /-- waits for another chunk of the pending table -/
  | pendingWait (chunk : Nat)
  /-- waits for the byte comparison with a stored chunk (R98) -/
  | compareWait (uid : Nat)
  /-- decided unique: compressed, encrypted, placed -/
  | unique
  /-- decided duplicate of a stored chunk -/
  | duplicate (uid : Nat)
  deriving DecidableEq, Repr

/-- A chunk of a Write between the chunker and its map updates. -/
structure PChunk where
  id : Nat
  ctx : Nat
  site : Nat
  nsid : Nat
  domain : Nat
  troupe : Troupe
  /-- first byte of the chunk within the Write -/
  start : Nat
  data : Bytes
  tail : Bool
  forced : Bool
  /-- burst ends inside the chunk, as byte counts from its start (R106) -/
  cuts : List Nat := []
  /-- fingerprint, zero in a WP domain (R84) -/
  fp : Bytes := []
  stage : Stage := .cut
  /-- compressed and encrypted while undecided (R97) -/
  tentative : Bool := false
  /-- stored without an index entry (R98, R101) -/
  noIndex : Bool := false
  /-- its index entry carries NOFILTER (R94) -/
  noFilter : Bool := false
  /-- Zstandard blocks written so far (R106) -/
  blocks : Bytes := []
  /-- segment stream whose context compresses it (R109); none: its Write's own -/
  stream : Option Nat := none
  /-- segment and index in the segment (R109); none: per chunk -/
  segment : Option (Nat × Nat) := none
  /-- plaintext of the earlier chunks of its segment -/
  history : Bytes := []
  /-- bytes of the chunk that the compressor has taken -/
  eaten : Nat := 0
  /-- staging handle once encrypted -/
  handle : Option Nat := none
  /-- its frame is complete and it waits for a counter value or for a place -/
  sealed : Bool := false
  deriving DecidableEq, Repr

/-- A stored chunk as the map and the full index hold it (R95, R102). -/
structure Chunk where
  uid : Nat
  troupe : Troupe
  domain : Nat
  fp : Bytes
  /-- index entry present, and its flags NOFILTER, NODEDUP, RELEASING -/
  indexed : Bool := true
  noFilter : Bool := false
  noDedup : Bool := false
  releasing : Bool := false
  /-- beat in which REFCOUNT reached 0 -/
  zeroBeat : Nat := 0
  /-- the release order has been issued; kept while a reader holds a reference (R65, R100) -/
  released : Bool := false
  /-- the number of extents that reference the chunk -/
  refcount : Nat := 0
  /-- LOCATION: stripe number and offset in 64-byte units -/
  stripe : Nat := 0
  off64 : Nat := 0
  reducedLen : Nat := 0
  logicalLen : Nat := 0
  /-- KEY_ID of the header -/
  keyId : Nat := 0
  /-- CHUNK_GUARD of the header -/
  guard : BitVec 64 := 0
  /-- segment and index in it (R109) -/
  segment : Option (Nat × Nat) := none
  poisoned : Bool := false
  deriving DecidableEq, Repr

/-- A reduced chunk in HBM staging (R18 to R20, R97, R165). -/
structure Staged where
  handle : Nat
  troupe : Troupe
  /-- the stored chunk it belongs to; none while tentative or while the Catcher holds it unnamed -/
  uid : Option Nat
  bytes : Bytes
  /-- STAGE_GUARD -/
  guard : BitVec 64
  dirty : Bool
  /-- the Catcher has confirmed it (R18 a) -/
  confirmed : Bool := false
  /-- written to the vault zones while ALONE (R248) -/
  vaulted : Bool := false
  /-- held as the peer's mirror copy -/
  mirror : Bool := false
  /-- the Catcher's copy has been asked for before parity; 08 R165 -/
  fetching : Bool := false
  deriving DecidableEq, Repr

/-- Why a stored chunk is decoded. -/
inductive Purpose where
  /-- for a Read or the read part of a Compare -/
  | read (ctx : Nat)
  /-- history of a segment for a Read (R111) -/
  | history (ctx : Nat)
  /-- the stored copy of a byte comparison -/
  | compare (chunk : Nat)
  /-- a patrol verification on the RV chain (R213) -/
  | verify
  deriving DecidableEq, Repr

/-- A decode waiting in a booth (R15, R111, R120, R136). -/
structure Task where
  id : Nat
  uid : Nat
  site : Nat
  purpose : Purpose
  /-- source in use: 0 staging, 1 flash, 2 other booth, 3 reconstruction, 4 the Catcher's copy -/
  source : Nat := 0
  /-- the copy came from dirty staging -/
  dirty : Bool := false
  /-- site of the first failure, with its code (0x100 for a tag failure) -/
  failed : Option (Nat × Nat) := none
  /-- bytes still to come from flash: bundle of the member reads -/
  waiting : Option Nat := none
  /-- the reduced bytes that a reconstruction gave -/
  rebuilt : Bytes := []
  deriving DecidableEq, Repr

/-- A piece of input for a Z engine: at most one burst (R114). -/
structure ZUnit where
  chunk : Nat
  bytes : Nat
  last : Bool
  deriving DecidableEq, Repr

/-- A stream at a Z engine (R112 to R114): KIND of R113. -/
structure ZStream where
  sid : Nat
  /-- 1 compress per chunk, 2 compress per segment, 3 decode stored chunk, 4 and 5 firmware decode jobs, 6 firmware compress job -/
  kind : Nat
  /-- command context, decode task or job -/
  owner : Nat
  units : List ZUnit := []
  /-- order of its last service or arrival -/
  since : Nat := 0
  /-- place of the context: 0 booth slot, 1 HBM spill pool, 2 Cupboard save area -/
  place : Nat := 0
  deriving DecidableEq, Repr

/-- A booth site's engines (R104, R112 to R115). -/
structure Booth where
  site : Nat
  streams : List ZStream := []
  /-- stream that holds the Z engine -/
  holder : Option Nat := none
  /-- decode bursts run in a row -/
  readRun : Nat := 0
  /-- compress stream whose turn it is and the bursts it has run in the turn -/
  turn : Nat := 0
  turnBursts : Nat := 0
  /-- bytes in the 64 KiB compressor output buffer at time `outAt`; the cipher drains 32 bytes a ns (R133) -/
  outUsed : Nat := 0
  outAt : Nat := 0
  /-- the engine is stalled with an assembled block (R115) -/
  stalled : Bool := false
  /-- an episode of refused spills has been raised (R112) -/
  spillEpisode : Bool := false
  /-- BTH_CMP_LAST_ERR code and domain -/
  lastErr : Nat := 0
  lastErrDomain : Nat := 0
  /-- BTH_CPH_TAGFAIL and BTH_DGT_MISMATCH counts -/
  tagFail : Nat := 0
  mismatch : Nat := 0
  deriving DecidableEq, Repr

/-- The datapath: booths, chunks in hand, the map and staging. -/
structure Dp where
  /-- booth sites with a stream or a count: Z engine, contexts, counts; 05_compression_engine.md R104, R112 to R115; reset idle -/
  booths : List Booth := []
  /-- chunks of Writes in hand; 04_chunking_and_dedup.md R81 to R97; reset none -/
  pchunks : List PChunk := []
  /-- stored chunks named by the map; 04 R95, R100; on the landing shelves, DESIGN CHOICE none (log 4) -/
  chunks : List Chunk := []
  /-- extents of both troupes' maps; 08 R162, 11 R244; on the landing shelves, DESIGN CHOICE none (log 4) -/
  extents : List Extent := []
  /-- HBM staging; 01 R18 to R20, 04 R97, 08 R165; reset empty -/
  staged : List Staged := []
  /-- decodes in hand; 01 R15, 06 R135; reset none -/
  tasks : List Task := []
  /-- next chunk, stored-chunk, staging, task and stream numbers of the model -/
  nextChunk : Nat := 0
  nextUid : Nat := 1
  nextHandle : Nat := 0
  nextTask : Nat := 0
  nextStream : Nat := 0
  /-- service order counter of the Z engines -/
  order : Nat := 0
  /-- R4 pacing in force and time of its last source 441; 01 R4; reset off -/
  pacing : Bool := false
  lastPacing : Nat := 0
  deriving DecidableEq, Repr

/-- Dedup: Larder, far filter, stash, pending table, index pages (block LDR). -/
structure Ldr where
  /-- Larder buckets that hold a tag: four generations of 6 banks of 524,288 buckets of four 16-bit tags, as
  ((generation × 6 + bank) × 524,288 + bucket, tags); 04_chunking_and_dedup.md R90; reset empty -/
  larder : List (Nat × List Nat) := []
  /-- current generation, 2 bits; 04 LDR_STATUS; reset 0 -/
  curGen : Nat := 0
  /-- generation being cleared; 04 R91; reset none -/
  clearing : Option Nat := none
  /-- Larder banks lost, 8 bits; 04 R92; reset 0 -/
  banksLost : Nat := 0
  /-- far-filter buckets that hold a tag: (bucket, 16-bit tags, 32 to a bucket); 04 R93; reset empty -/
  far : List (Nat × List Nat) := []
  /-- FAR_READY, 1 bit; 04 LDR_STATUS; reset 0 -/
  farReady : Bool := false
  /-- stash, 16,384 entries: (tag, first bucket); 04 R94; reset empty -/
  stash : List (Nat × Nat) := []
  /-- sources 786 and 787 raised for the present episode; 04 R94; reset 0 -/
  farHigh : Bool := false
  stashHigh : Bool := false
  /-- source 791 raised once; 04 R94; reset 0 -/
  noFarRaised : Bool := false
  /-- pending table, 65,536 entries: (domain, fingerprint, chunk); 04 R96; reset empty -/
  pending : List (Nat × Bytes × Nat) := []
  /-- index pages in the map cache: (troupe, page); 04 R95; reset none -/
  cached : List (Troupe × Nat) := []
  /-- index pages being read; 04 R97; reset none -/
  fetching : List (Troupe × Nat) := []
  /-- map pages dirty in the map cache: (troupe, page); 11 R263, 12 R278; reset none -/
  dirtyPages : List (Troupe × Nat) := []
  /-- statistics counters 0x0 to 0xE, 64 bits each; 04 R103; reset 0 -/
  cnt : List Nat := List.replicate 16 0
  /-- pages unreadable, bits [63:48] of counter 0xB; 04 R103; reset 0 -/
  unreadable : Nat := 0
  deriving DecidableEq, Repr

/-- A segment stream (R109, R110). -/
structure SegStream where
  id : Nat
  nsid : Nat
  site : Nat
  /-- LBA after the last Write -/
  nextLba : Nat
  /-- dispatch time of the last Write -/
  lastAt : Nat
  segment : Nat
  index : Nat := 0
  bytes : Nat := 0
  /-- holds a 4 MiB history slot; without one the stream runs per chunk -/
  history : Bool := true
  /-- plaintext of the open segment in the history slot -/
  hist : Bytes := []
  deriving DecidableEq, Repr

/-- The firmware compression job (R116, R117). -/
structure Job where
  /-- 0 IDLE, 1 RUNNING, 2 DONE, 3 OUTPUT_FULL, 4 ERROR -/
  state : Nat := 0
  /-- 0 compress; 1 Zstandard; 2 DEFLATE; 3 stored-chunk rules -/
  kind : Nat := 0
  cprof : Nat := 0
  site : Nat := 0x3F
  src : Nat := 0
  dst : Nat := 0
  len : Nat := 0
  cap : Nat := 0
  checked : Bool := false
  code : Nat := 0
  out : Nat := 0
  inp : Nat := 0
  deriving DecidableEq, Repr

/-- Compression (block CMP). -/
structure Cmp where
  /-- firmware job; 05_compression_engine.md CMP_JOB_*; reset IDLE -/
  job : Job := {}
  /-- statistics 0x0 to 0x5, 32 bits each, and bytes towards the next KiB; 05 CMP_STAT; reset 0 -/
  stat : List Nat := List.replicate 6 0
  plainBytes : Nat := 0
  frameBytes : Nat := 0
  /-- decoder errors by code, 11 × 32 bits; 05 CMP_DEC_ERR_n; reset 0 -/
  decErr : List Nat := List.replicate 11 0
  /-- segment streams; 05 R109; reset none -/
  segs : List SegStream := []
  nextSeg : Nat := 1
  deriving DecidableEq, Repr

/-! ## The Strongroom, the cipher and the digest engine -/

/-- A key slot (R123, R131, R132). -/
structure Slot where
  slot : Nat
  /-- 0 EMPTY, 1 SEALED, 2 ACTIVE, 3 RETIRED -/
  state : Nat := 0
  /-- state that the key record holds (2 or 3) -/
  record : Nat := 0
  epoch : Nat := 0
  /-- 256-bit key; the wrapped record in the cellar store carries it through a start -/
  key : Bytes := []
  /-- invocation counter C and watermark W -/
  c : Nat := 0
  w : Nat := 0
  /-- STG_SLOT_INFO.WARN -/
  warn : Bool := false
  /-- the final lease has been granted -/
  retiring : Bool := false
  deriving DecidableEq, Repr

/-- A lease of counter values (R131). -/
structure Lease where
  slot : Nat
  site : Nat
  next : Nat
  stop : Nat
  deriving DecidableEq, Repr

/-- The Strongroom (block STG). -/
structure Stg where
  /-- OWNED and the owner key, 32 bytes; 06_cipher_and_strongroom.md R126; record, DESIGN CHOICE unowned (log 4) -/
  owner : Option Bytes := none
  /-- last accepted token sequence, 64 bits; 06 R127; record, DESIGN CHOICE 0 (log 4) -/
  lastSeq : Nat := 0
  /-- UNSEALED, 1 bit; 06 R129; reset 0 -/
  unsealed : Bool := false
  /-- ALARM_LATCH, 1 bit; 06 R142; record, DESIGN CHOICE 0 (log 4) -/
  alarmLatch : Bool := false
  /-- OWNER_LOCK, 1 bit; 06 R128; record, DESIGN CHOICE 0 (log 4) -/
  ownerLock : Bool := false
  /-- SANITIZE_PHASE, 2 bits; 06 R144; record, DESIGN CHOICE 0 (log 4) -/
  sanPhase : Nat := 0
  /-- SANITIZE_GEN, 16 bits; 06 R144; record, DESIGN CHOICE 0 (log 4) -/
  sanGen : Nat := 0
  /-- end of the SANITIZE ARM period; 06 R143; reset none -/
  armedUntil : Option Nat := none
  /-- a pair-wide crypto erase is in progress on this head (steps 1 to 5) and at the peer; 06 R144; reset none -/
  erasing : Bool := false
  peerErasing : Bool := false
  /-- result reported by log 0x81: 0 never, 1 in progress, 2 completed; 06 R144; DESIGN CHOICE 0 (log 4) -/
  sanStatus : Nat := 0
  /-- key slots with a history, up to 128; 06 R123; record, DESIGN CHOICE all EMPTY (log 4) -/
  slots : List Slot := []
  /-- leases held by booths; 06 R131; reset none -/
  leases : List Lease := []
  /-- domain key map entries other than (0xFF, 0xFF): (domain, WRITE_SLOT, NEXT_SLOT), 4,096 entries of 16 bits; 06 R124; record, none until a DOMAIN MAP token -/
  map : List (Nat × Nat × Nat) := []
  /-- salt table, 4,096 × 32 bytes: salts that exist; 06 R140; record, DESIGN CHOICE none (log 4) -/
  salts : List (Nat × Bytes) := []
  /-- salts drawn and not yet confirmed by the peer; 06 R140; reset none -/
  saltWait : List Nat := []
  /-- context key of this start, 32 bytes; 06 R139; drawn at every start -/
  ctxKey : Bytes := []
  /-- pair transport key, 32 bytes; 06 R130; reset none -/
  pairKey : Option Bytes := none
  /-- STG_TOKEN_CMD.RESULT, 8 bits; reset 0 -/
  result : Nat := 0
  /-- TRIPPING, 5 bits; 06 R141; reset 0 -/
  tripping : BitVec 5 := 0
  deriving DecidableEq, Repr

/-- Cipher statistics (block CPH). -/
structure Cph where
  /-- counters 0x0 to 0x7, 32 bits each; 06_cipher_and_strongroom.md CPH_STAT; reset 0 -/
  stat : List Nat := List.replicate 8 0
  /-- CPH_LAST_FAIL: site, kind, domain, slot; reset 0 -/
  lastFail : Nat × Nat × Nat × Nat := (0, 0, 0, 0)
  deriving DecidableEq, Repr

/-- What a digest channel has absorbed: whole message so far; the hash state follows from it. -/
structure Chan where
  /-- channel, 0 to 3 -/
  ch : Nat
  /-- 0 FREE, 1 CLAIMED, 2 ABSORBING, 3 RUNNING, 4 DONE, 5 SUSPENDED, 6 ERROR -/
  state : Nat := 0
  owner : Nat := 0x1F
  code : Nat := 0
  mtch : Bool := false
  /-- configuration sampled by BEGIN or RESTORE -/
  alg : Nat := 0
  mode : Nat := 0
  keySrc : Nat := 0
  cmpClass : Nat := 0
  outLen : Nat := 0
  slot : Nat := 0
  key : Bytes := []
  /-- declared length L and absorbed count -/
  len : Nat := 0
  count : Nat := 0
  /-- chaining value or sponge lanes after the whole blocks absorbed, and the bytes of the open block -/
  words : List (BitVec 64) := []
  part : Bytes := []
  /-- a run in progress: address and length -/
  run : Option (Nat × Nat) := none
  /-- a last word held during a run: VALID and data -/
  lastWord : Option (Nat × Word) := none
  /-- the outer pass of a hardware HMAC has begun -/
  outer : Bool := false
  /-- digest bytes shown; squeeze position of SHAKE256 -/
  digest : Bytes := []
  squeezed : Nat := 0
  /-- expected value as written and inverted (R159), 16 words each -/
  expect : List Word := List.replicate 16 0
  expectInv : List Word := List.replicate 16 0xFFFFFFFF
  verdict : Word := 0
  verdictInv : Word := 0
  /-- state window DGT_STATE_n_k as bytes -/
  window : Bytes := []
  /-- the channel holds a wrapped record -/
  wrapped : Bool := false
  deriving DecidableEq, Repr

/-- The shared digest engine (block DGT). -/
structure Dgt where
  /-- four channels; 07_digest_engine.md R149 to R159; reset FREE -/
  chans : List Chan := [{ ch := 0 }, { ch := 1 }, { ch := 2 }, { ch := 3 }]
  deriving DecidableEq, Repr

/-! ## Stripes, journal, Turnstile -/

/-- A zone group (R173, R206). -/
structure Group where
  id : Nat
  troupe : Troupe
  geom : Nat
  k : Nat
  shelf : Nat
  /-- module and zone of each position -/
  members : List (Nat × Nat)
  /-- capacity in units and next unit -/
  units : Nat
  next : Nat := 0
  /-- finished or closed to new stripes -/
  closed : Bool := false
  /-- bytes counted free -/
  free : Nat := 0
  /-- units marked void -/
  voids : List Nat := []
  /-- a reset has been sent; the group returns to the free pool -/
  reset : Bool := false
  /-- used by the peer at a takeover and not yet fenced (R258) -/
  fencing : Bool := false
  deriving DecidableEq, Repr

/-- Where a stripe stands. -/
inductive StripePhase where
  | opened | waiting | flying | reported | committed | voided
  deriving DecidableEq, Repr

/-- A stripe (R170 to R175). -/
structure Stripe where
  number : Nat
  troupe : Troupe
  geom : Nat
  k : Nat
  shelf : Nat
  group : Nat
  unit : Nat
  /-- owning ring (R23) -/
  ring : Nat
  /-- stored chunks in placement order: (uid, offset in 64-byte units, length) -/
  chunks : List (Nat × Nat × Nat) := []
  used : Nat := 0
  fill : Nat := 0
  openedAt : Nat := 0
  closeAt : Nat := 0
  phase : StripePhase := .opened
  /-- launch cycle and slot -/
  cycle : Nat := 0
  slot : Nat := 0
  /-- opened by a reshape job (R208) -/
  reshape : Bool := false
  deriving DecidableEq, Repr

/-- What a bundle of back-end operations is for. -/
inductive BundleKind where
  /-- the members of a cold stripe -/
  | append (stripe : Nat)
  /-- filler of a void stripe -/
  | filler (stripe : Nat)
  /-- Finish of a zone group -/
  | finish (group : Nat)
  /-- Reset of a zone group -/
  | zoneReset (group : Nat)
  /-- steps 2, 5 and 6 of R176 on a landing row -/
  | rowRead (stripe row : Nat)
  | rowJournal (stripe row : Nat)
  | rowWrite (stripe row : Nat)
  /-- landing copies of a cold stripe's journal entry without a Catcher -/
  | journal (stripe : Nat)
  /-- member reads for a decode task -/
  | chunkRead (task : Nat)
  /-- reads of every surviving role for a reconstruction -/
  | rebuildRead (task : Nat)
  /-- read of an index page -/
  | pageRead (t : Troupe) (page : Nat)
  /-- a rebuild's unit row set -/
  | rebuildUnit (rebuild : Nat)
  /-- both copies of a beat log entry (R248) -/
  | beatLog (t : Troupe) (beat : Nat)
  /-- a vault write of a staged chunk (R248, R313) -/
  | vault (handle : Nat)
  /-- scrub reads of a stripe (R213) -/
  | scrub (stripe : Nat)
  /-- member reads of a chunk to be relocated, without the roles to avoid; for a reshape job or not (R203, R208) -/
  | relocRead (uid : Nat) (avoid : List Nat) (job : Bool)
  deriving DecidableEq, Repr

/-- One back-end operation (R182, R185). -/
structure BackOp where
  op : Nat
  /-- role, 0xFE journal copy, 0xFF other -/
  member : Nat
  mdl : Nat
  /-- status reported; none while in flight -/
  status : Option Nat := none
  /-- rows whose block failed its tag, and rows whose block returned a media error (R199, R202) -/
  tagRows : List Nat := []
  mediaRows : List Nat := []
  /-- a read block by block, after a media error that names no block (R202) -/
  byBlock : Bool := false
  data : Bytes := []
  /-- time of arrival, µs -/
  arrived : Nat := 0
  deriving DecidableEq, Repr

/-- Operations that launch together in one slot (R231). -/
structure Bundle where
  id : Nat
  kind : BundleKind
  /-- launch class bit 0 to 6 (R230) -/
  cls : Nat
  troupe : Troupe
  shelf : Nat
  stripe : Nat
  row : Nat := 0xFFFF
  ops : List BackOp
  /-- time at which the operations became ready -/
  readyAt : Nat
  /-- launch cycle, slot and time; none before launch -/
  launched : Option (Nat × Nat × Nat) := none
  /-- LATE sampled at launch, in µs -/
  lateAfter : Nat := 0
  deriving DecidableEq, Repr

/-- A small in-place write on its way through R176: step 1 to 7. -/
structure RowWrite where
  stripe : Nat
  row : Nat
  data : Nat
  troupe : Troupe
  block : Bytes
  guard : BitVec 64 := 0
  /-- holds the row lock -/
  locked : Bool := false
  step : Nat := 1
  /-- P_new and Q_new once computed -/
  p : Bytes := []
  q : Bytes := []
  deriving DecidableEq, Repr

/-- A journal entry (R179). -/
structure Jrn where
  troupe : Troupe
  /-- 1 append launch; 2 in-place write; 3 commit; 4 void -/
  kind : Nat
  ring : Nat
  geom : Nat
  members : Nat
  stripe : Nat
  seq : Nat
  cycle : Nat := 0
  slot : Nat := 0
  shelf : Nat := 0
  row : Nat := 0xFFFF
  group : Nat := 0
  unit : Nat := 0
  fill : Nat := 0
  role : Nat := 0xFFFF
  payload : List Bytes := []
  modules : List Nat := []
  deriving DecidableEq, Repr

/-- Parity and stripes (block PTY). -/
structure Pty where
  /-- zone groups; 08_block_protection_and_stripes.md R173; on flash, DESIGN CHOICE none (log 4) -/
  groups : List Group := []
  nextGroup : Nat := 0
  /-- stripes; 08 R170; on flash, DESIGN CHOICE none (log 4) -/
  stripes : List Stripe := []
  /-- next stripe sequence of troupe A and B, 47 bits each; 08 R171; part of the map, DESIGN CHOICE 0 (log 4) -/
  nextStripe : Nat × Nat := (0, 0)
  /-- back-end bundles waiting or in flight; 08 R182, 10 R231; reset none -/
  bundles : List Bundle := []
  nextBundle : Nat := 0
  /-- next back-end operation index, 0 to 32,767; 08 R185; reset 0 -/
  nextOp : Nat := 0
  /-- row writes and their locks, oldest first; 08 R176, R177; reset none -/
  rows : List RowWrite := []
  /-- landing stripes assigned by head firmware: (stripe, shelf, geometry, modules by role); 08 R173; DESIGN CHOICE none (log 4) -/
  landing : List (Nat × Nat × Nat × List Nat) := []
  /-- live journal entries of both troupes, oldest first, as held in HBM and on the landing copies; 08 R178, R179; DESIGN CHOICE none (log 4) -/
  journal : List Jrn := []
  /-- next journal SEQ of troupe A and B, 64 bits; 08 R179; DESIGN CHOICE 1 (log 4) -/
  nextSeq : Nat × Nat := (1, 1)
  /-- launches wait for room in a full journal area, per troupe (R179); reset 0 -/
  jrnWait : Bool × Bool := (false, false)
  /-- copy A, copy B healthy, Catcher copy held, per troupe; 08 PTY_JRN_USE_n; reset 0 -/
  copies : List (Bool × Bool × Bool) := [(false, false, false), (false, false, false)]
  /-- source 551 raised while the area is above 80 % (A, B); 08 R179; reset 0 -/
  jrnHigh : Bool × Bool := (false, false)
  /-- counters 0x0 to 0xE, 64 bits each; 08 R186; reset 0 -/
  cnt : List Nat := List.replicate 16 0
  fillBytes : Nat := 0
  /-- PTY_LAST_FAIL: point, site, shelf, module; reset 0 -/
  lastFail : Nat × Nat × Nat × Nat := (0, 0, 0, 0)
  /-- PTY_TSTL.PEAK, 16 bits; reset 0 -/
  peak : Nat := 0
  deriving DecidableEq, Repr

/-! ## Mend -/

/-- A flash module (R187). -/
structure Module where
  shelf : Nat
  mdl : Nat
  /-- 0 HEALTHY, 1 WORN, 2 FAILED, 3 REBUILDING, 4 RETIRED, 5 ABSENT -/
  state : Nat := 5
  spare : Bool := false
  /-- times (operating hours counter, s) of counted causes: late, media, program -/
  late : List Nat := []
  media : List Nat := []
  program : List Nat := []
  /-- free zones and capacity of a zone in units -/
  zones : List Nat := []
  zoneUnits : Nat := 0
  deriving DecidableEq, Repr

/-- A rebuild or copy-out (R193 to R198, R204). -/
structure Rebuild where
  id : Nat
  shelf : Nat
  mdl : Nat
  copyOut : Bool := false
  /-- 1 spare module, 2 distributed zones, 3 none (evacuation) -/
  spareKind : Nat
  /-- zones still to move: (group, position, target module, target zone) -/
  todo : List (Nat × Nat × Nat × Nat) := []
  moved : Nat := 0
  /-- zones of a second rebuild that go in one pass with the group in hand (R198) -/
  joint : List (Nat × Nat × Nat × Nat) := []
  /-- unit of the group in hand -/
  unit : Nat := 0
  m : Nat := 1
  /-- rate in MB/s, credit in bytes -/
  rate : Nat := 0
  credit : Nat := 0
  atFloor : Bool := false
  /-- a unit row set is in flight, and its spare's blocks have been sent -/
  busy : Bool := false
  written : Bool := false
  /-- the group in hand goes on at its spare's write pointer; the tags of the last unit written are to be checked (R195) -/
  resumed : Bool := false
  verify : Bool := false
  deriving DecidableEq, Repr

/-- The reshape job (R207 to R211). -/
structure Reshape where
  /-- 0 IDLE; 1 RUNNING; 2 PAUSED; 3 DONE; 4 ABORTED; 5 REFUSED -/
  state : Nat := 0
  reason : Nat := 0
  shelf : Nat := 0
  troupe : Troupe := .a
  src : Nat := 0
  dst : Nat := 0
  batch : Nat := 64
  /-- boundary: zone group, unit -/
  group : Nat := 0
  unit : Nat := 0
  total : Nat := 0
  moved : Nat := 0
  pauseAsked : Bool := false
  abortAsked : Bool := false
  /-- stripes of the batch in hand -/
  inBatch : List Nat := []
  /-- beat of the job's last map update -/
  lastBeat : Nat := 0
  deriving DecidableEq, Repr

/-- A loss list entry (R200). -/
structure Loss where
  domain : Nat
  fp : Bytes
  stripe : Nat
  off64 : Nat
  logicalLen : Nat
  nsid : Nat
  lba : Nat
  deriving DecidableEq, Repr

/-- Mend (block MND). -/
structure Mnd where
  /-- module state table; 09_rebuild_and_reshape.md R187; record, DESIGN CHOICE all ABSENT (log 4) -/
  modules : List Module := []
  /-- declarations this head reported and the spare master has not answered: (shelf, module, state); 09 R189; reset none -/
  reported : List (Nat × Nat × Nat) := []
  /-- rebuilds and copy-outs; 09 R197; reset none -/
  rebuilds : List Rebuild := []
  nextRebuild : Nat := 0
  /-- shelves with rows that have no redundancy left, as EXPOSED shows; 09 R198; reset 0 -/
  exposed : List Nat := []
  /-- reduced mode for flash modules; 09 R205; reset 0 -/
  reduced : Bool := false
  /-- reshape job with its checkpoint; 09 R207 to R210; reset IDLE -/
  reshape : Reshape := {}
  /-- patrol visits in progress: shelf, chunks relocated, REWRITE_BITS sampled at the start; 09 R212, R214; reset none -/
  patrol : List (Nat × Nat × Nat) := []
  /-- a rebuild at the floor takes a port past its planning capacity, so host writes are paced; 09 R196; reset 0 -/
  floorPace : Bool := false
  /-- end of each shelf's last complete visit, operating hours counter in s; 09 R212; record, DESIGN CHOICE 0 (log 4) -/
  lastPatrol : List (Nat × Nat) := []
  /-- shelves overdue, with the time source 571 was last raised for each, operating hours counter in s; 09 R212; reset none -/
  overdue : List (Nat × Nat) := []
  /-- chunks waiting for relocation (dark shelf or room): uid; 09 R203; reset none -/
  relocate : List Nat := []
  /-- loss list on the landing shelves, its COUNT 32 bits; 09 R200; record, DESIGN CHOICE empty (log 4) -/
  loss : List Loss := []
  /-- MND_LOSS_DATA_k, 16 words; reset 0 -/
  lossData : List Word := List.replicate 16 0
  /-- journal modules in effect (A, B) for each troupe and the module a copy is being moved onto; 09 R201; record, DESIGN CHOICE 0, which stands for the configured ones (log 4) -/
  jrnEff : List (Nat × Nat × Option Nat) := [(0, 0, none), (0, 0, none)]
  /-- back-end load of each port in the last beat, bytes; 09 R196; reset none -/
  portLoad : List (Nat × Nat) := []
  /-- cold-append bytes of each port in the last beat; 10 R381; reset none -/
  appendLoad : List (Nat × Nat) := []
  deriving DecidableEq, Repr

/-! ## Shelves and the Wheel -/

/-- A shelf (R221 to R227). -/
structure Shelf where
  shelf : Nat
  /-- 0 ABSENT, 1 DARK, 2 WAKING, 3 OPEN, 4 CLOSING, 5 PARTIAL, 6 FAULT -/
  state : Nat := 0
  /-- time of the last change to OPEN, WAKING or CLOSING -/
  since : Nat := 0
  /-- CC.SHN has been sent; modules have shut down -/
  shn : Bool := false
  shutDown : Bool := false
  /-- arm in force: (slot count, action 0 off, 1 on, 2 modules) -/
  armed : Option (Nat × Nat) := none
  /-- link up and enumerated since the wake -/
  linked : Bool := false
  /-- wakes of the present demand: 1 after the first has failed, 2 once it has been powered on again; 10 R226 -/
  failed : Nat := 0
  lastWakeMs : Nat := 0
  /-- modules powered in PARTIAL, 48-bit mask -/
  partialMask : Nat := 0
  /-- modules that have power once the ARM MODULES in force takes effect, 48-bit mask; 10 R220 -/
  armMask : Nat := 0
  /-- rails confirmed off (FAULT) -/
  railsOff : Bool := false
  /-- power slot at which it leaves the account -/
  leaving : Bool := false
  /-- opened for a Fill demand -/
  fill : Bool := false
  deriving DecidableEq, Repr

/-- A waiting demand (R224). -/
structure Demand where
  kind : DemandKind
  shelf : Nat
  /-- time in µs; none for Background -/
  deadline : Option Nat
  /-- commands that share it -/
  ctxs : List Nat := []
  deriving DecidableEq, Repr

/-- A STAGE-IN hold entry (R237). -/
structure Hold where
  shelf : Nat
  cntlid : Nat
  expiry : Nat
  deriving DecidableEq, Repr

/-- A back-end port (R215 to R217). -/
structure Port where
  port : Nat
  /-- lanes in use; 0: no link -/
  width : Nat := 0
  /-- SPEED code of SHF_PORT_n -/
  speed : Nat := 0
  /-- spare lanes serving the port -/
  spares : Nat := 0
  /-- stops launching until this time while it retrains -/
  retrain : Nat := 0
  narrow : Bool := false
  lost : Bool := false
  deriving DecidableEq, Repr

/-- Shelves (block SHF). -/
structure Shf where
  /-- shelves configured or found; 10_shelves_and_the_wheel.md R221; reset none (ABSENT) -/
  shelves : List Shelf := []
  /-- demand queue; 10 R224; reset empty -/
  demands : List Demand := []
  /-- demands and shelf table received from the peer; 10 R224; reset none -/
  peerDemands : List (DemandKind × Nat × Nat) := []
  peerTable : List (Nat × Nat) := []
  /-- hold table, 8,192 entries; 10 R237; reset empty -/
  holds : List Hold := []
  /-- back-end ports 0 to 15; 10 R215; reset no link -/
  ports : List Port := []
  /-- spare lanes j: (port and lane replaced) and FAILED; 10 R216; reset 0x1F none -/
  spareLanes : List (Option Nat × Bool) := List.replicate 8 (none, false)
  /-- RACK_W in effect, 24 bits; 10 R223; reset 0xFF_FFFF -/
  rackW : Nat := 0xFFFFFF
  /-- source 438 raised for the present episode; reset 0 -/
  holdsOver : Bool := false
  /-- shelf buses stuck: bit n; 10 R220; reset 0 -/
  busStuck : BitVec 4 := 0
  /-- SHF_SHELF_PWR, SHF_SHELF_LOW and SHF_SHELF_TIME of a shelf as last sampled at a power slot, or as the power master sent them; 10
  R222, R239; reset none: the registers' reset values -/
  figures : List (Nat × BitVec 32 × BitVec 32 × BitVec 32) := []
  /-- SHF_POLICY as last sampled at a power slot; 10 R239; reset the register's reset value -/
  policy : BitVec 32 := 0x3C1E1078
  /-- slot count of the last power slot taken; 10 R222; reset none -/
  slotDone : Option Nat := none
  deriving DecidableEq, Repr

/-- The Wheel (block WHL). -/
structure Whl where
  /-- cycle count, 40 bits; 10_shelves_and_the_wheel.md R229; record (resumes from the reserved value), DESIGN CHOICE 0 (log 4) -/
  cycle : Nat := 0
  /-- slot in cycle, 8 bits; 10 R229; resumes at 0 -/
  slot : Nat := 0
  /-- reserved cycle count in the cellar store, 40 bits; 10 R229; record, DESIGN CHOICE 0 (log 4) -/
  reserved : Nat := 0
  /-- time of the last slot start; none stated, DESIGN CHOICE 0 (log 5) -/
  slotAt : Nat := 0
  /-- the Wheel is running; 11 R252; reset 0 -/
  running : Bool := false
  /-- LOCK code of WHL_STATUS, 3 bits; 10 R234; reset 0 -/
  lock : Nat := 0
  /-- DRIVER, REF_SEEN, TICK_SEEN, PTP_LOCKED; 10 WHL_STATUS; reset 0 -/
  driver : Bool := false
  refSeen : Bool := false
  tickSeen : Bool := false
  ptpLocked : Bool := false
  /-- offsets in ns, none before a measurement; 10 WHL_PTP_OFS, WHL_PEER_OFS; reset 0x8000_0000 -/
  ptpOfs : Option Int := none
  peerOfs : Option Int := none
  /-- PTP time at `now` 0, in ns; none stated, DESIGN CHOICE 0 (log 5) -/
  ptpBase : Nat := 0
  /-- slot sealed last (slot count) and the operations launched in each slot of the cycle; 10 WHL_PLAN_1; reset 0 -/
  sealedFor : Nat := 0
  launched : List (Nat × Nat) := []
  /-- operations launched so far in the cycle in hand -/
  launching : List (Nat × Nat) := []
  /-- WHL_OVERRUN and WHL_LATE, 32 bits each; reset 0 -/
  overrun : Nat := 0
  late : Nat := 0
  /-- beats in which sources 677 and 440 were last raised, time of the last 673; 10 R231, R234; reset none -/
  overrunBeat : Option Nat := none
  lateBeat : Option Nat := none
  driftMinute : Option Nat := none
  /-- the follower steps at the next cycle edge; 10 R234; reset 0 -/
  stepDue : Bool := false
  /-- slots reported missing on WHEEL_REF; 10 R232, R233; reset 0 -/
  refMissing : Nat := 0
  /-- a source has locked the Wheel since the start (LOCK FREE); 10 WHL_STATUS; reset 0 -/
  everLocked : Bool := false
  /-- this head stops driving WHEEL_REF at its next slot edge; 17 R376; reset 0 -/
  dropDrive : Bool := false
  /-- µs by which a step lengthens the cycle in hand; 10 R233; reset 0 -/
  stretch : Nat := 0
  /-- beat whose edge, and cycle whose edge, have been taken last; 00 R17, 10 R233; reset none -/
  edgeDone : Option Nat := none
  cycleDone : Option Nat := none
  deriving DecidableEq, Repr

/-! ## The pair -/

/-- A complete 64-byte map record (R244). -/
structure OrderRec where
  type : Nat
  flags : Nat := 0
  domain : Nat := 0
  nsid : Nat := 0
  order : Nat
  a : Nat := 0
  b : Nat := 0
  result : Nat := 0
  location : Nat := 0
  prior : Nat := 0
  key : Bytes := []
  deriving DecidableEq, Repr

/-- A closed beat of a troupe kept until it matches (R246, R250). -/
structure Beat where
  beat : Nat
  records : List OrderRec
  /-- PREV_DIGEST of its header -/
  prev : Bytes
  digest : Bytes
  orderDigest : Bytes
  /-- time of the beat edge -/
  closedAt : Nat
  matched : Bool := false
  /-- both landing copies of its beat log entry have reported (R248) -/
  logged : Bool := false
  deriving DecidableEq, Repr

/-- A handover in hand (R261). -/
structure Handover where
  /-- this head gives the troupe -/
  giving : Bool
  /-- beat of T -/
  beat : Nat
  moves : Nat := 0
  /-- commit point passed -/
  committed : Bool := false
  /-- for activation: the head restarts at T -/
  activation : Bool := false
  /-- a head leaving by R251 restarts at T -/
  leaving : Bool := false
  /-- handback through TRP_CTRL, or the context of BATON HANDBACK -/
  viaReg : Bool := false
  ctx : Option Nat := none
  deriving DecidableEq, Repr

/-- One troupe as this head sees it (R241 to R263). -/
structure Trp where
  /-- 0 none, 1 Flyer, 2 Catcher in step, 3 Catcher stale -/
  role : Nat := 0
  /-- 0 IDLE, 1 PAIRED, 2 ALONE, 3 FROZEN, 4 TAKEOVER, 5 HANDOVER, 6 RESYNC, 7 OUT -/
  state : Nat := 0
  /-- last ORDER number issued or received -/
  order : Nat := 0
  /-- records of the open beat, oldest first, and its beat count -/
  openRecs : List OrderRec := []
  openBeat : Nat := 0
  /-- closed beats not yet matched or logged, oldest first -/
  beats : List Beat := []
  prevDigest : Bytes := List.replicate 32 0
  /-- low 32 bits in TRP_DIGEST_n -/
  digestBeat : Nat := 0
  /-- peer digests that arrived before the own beat closed -/
  peerDigests : List (Nat × Bytes) := []
  /-- FROZEN: beat b, this head's verdict and digests, the peer's verdict, target beat edge and outcome -/
  frozenBeat : Nat := 0
  verdictOk : Option Bool := none
  redone : List Bytes := []
  outcome : Nat := 0
  outcomeBeat : Nat := 0
  handover : Option Handover := none
  /-- time F of the fall of SEE and time of the confirmed claim -/
  fallAt : Nat := 0
  confirmAt : Nat := 0
  /-- a claim runs: guard time waited or confirm window open -/
  claiming : Bool := false
  /-- claim lost to the home head -/
  lostClaim : Bool := false
  /-- replay of the beat log before serving (stale takeover) -/
  replay : Bool := false
  /-- beats in a row in which bridges refused writes, and the last one -/
  refusedBeats : Nat := 0
  refusedBeat : Nat := 0
  /-- chunks confirmed to the Flyer as Catcher: handles -/
  confirmedHandles : List Nat := []
  /-- orders received for pages not yet arrived in RESYNC -/
  waitingOrders : List Order := []
  /-- Markers received whose orders still wait: (beat, last ORDER number); 11 R245; reset none -/
  marks : List (Nat × Nat) := []
  /-- Turnstile records that the giving head relays in a handover; 11 R261; reset none -/
  relays : List Bytes := []
  /-- pages arrived in RESYNC -/
  pages : List Nat := []
  /-- Descriptors held as Catcher: (opcode, nsid, slba, nlb, arrival, context) -/
  descriptors : List (Nat × Nat × Nat × Nat × Nat × Nat) := []
  /-- troupe closing under R290 -/
  closing : Bool := false
  /-- the peer's verdict, arrived before this head's own (R250) -/
  peerVerdict : Option VerdictMsg := none
  /-- the resync copy has ended: PAIRED at the next beat edge (R263) -/
  joinAtEdge : Bool := false
  /-- bytes of the beat log in use (R248) -/
  blogUsed : Nat := 0
  deriving DecidableEq, Repr

/-- Both troupes, the Baton and the Iclin link (block TRP). -/
structure Pair where
  /-- troupe A; 11_troupes_flyer_catcher_baton.md R240 to R263; reset role none, state IDLE -/
  a : Trp := {}
  /-- troupe B; 11 R240 to R263; reset role none, state IDLE -/
  b : Trp := {}
  /-- BATON_HOLD levels driven, 2 bits; 11 TRP_BATON; reset 0 -/
  hold : BitVec 2 := 0
  /-- BATON_SEE levels sensed, 2 bits; 11 TRP_BATON; reset 0 -/
  see : BitVec 2 := 0
  /-- CONFIRMED, 2 bits; 11 R253; reset 0 -/
  confirmed : BitVec 2 := 0
  /-- KEEPER_OK, 1 bit; 11 R252; reset 0 -/
  keeperOk : Bool := false
  /-- the Iclin link is up and paired; 11 R264; reset 0 -/
  icl : Bool := false
  /-- the Iclin link has reported the peer absent since the start; 11 R242; reset 0 -/
  absent : Bool := false
  /-- good lanes, 7 bits; 11 TRP_ICL_STATUS; reset 0 -/
  lanes : Nat := 0
  /-- Iclin spare lanes j: lane replaced, FAILED; 11 TRP_ICL_SPARE_j; reset 0x3F none -/
  spares : List (Nat × Bool) := List.replicate 4 (0x3F, false)
  /-- LOAD_PCT, 8 bits; 11 TRP_ICL_STATUS; reset 0 -/
  loadPct : Nat := 0
  /-- mirror bytes sent in the beat in hand -/
  mirrorBytes : Nat := 0
  /-- PACING of each troupe (R5) and time of the last source 627; 11 R264; reset 0 -/
  pacing : Bool := false
  lastPacing : Nat := 0
  /-- slots begun since the peer's last heartbeat; 11 R243, R264; reset 0 -/
  heartbeats : Nat := 0
  /-- SPARE_MASTER, 1 bit; 09 R189; reset 0 -/
  spareMaster : Bool := false
  /-- LASTING, 1 bit; 11 R251; reset 0 -/
  lasting : Bool := false
  /-- HB_BUSY, HB_RESULT; 11 TRP_CTRL; reset 0 -/
  hbBusy : Bool := false
  hbResult : Nat := 0
  /-- TRP_MISMATCH: COUNT 16 bits, LAST_OUTCOME, LAST_TROUPE; reset 0 -/
  mismatch : Nat := 0
  lastOutcome : Nat := 0
  lastTroupe : Nat := 0
  /-- TRP_RESYNC: bytes copied and to copy, troupe, ACTIVE; 11 R263; reset 0 -/
  resyncDone : Nat := 0
  resyncTotal : Nat := 0
  resyncTroupe : Troupe := .a
  resyncActive : Bool := false
  /-- roles and states the peer last reported (A, B); 11 R243; reset 0 -/
  peerRole : Nat × Nat := (0, 0)
  peerState : Nat × Nat := (0, 0)
  /-- shelves on which the peer's launches of a troupe are not yet fenced; 11 R258; reset none -/
  fencing : List (Nat × Troupe) := []
  /-- the peer's update conditions 0x1 to 0x4 (R354) and entered power state; 16 R354, 13 R289; reset 0 -/
  peerConditions : BitVec 4 := 0
  peerPower : Nat := 0
  /-- time of this head's start; 11 R242; reset 0 -/
  startAt : Nat := 0
  deriving DecidableEq, Repr

/-! ## Memory -/

/-- A valid Pantry line (R268). -/
structure Line where
  /-- line address: address / 64 -/
  addr : Nat
  bank : Nat
  set : Nat
  way : Nat
  /-- the 64 bytes -/
  data : Bytes
  dirty : Bool := false
  /-- order of the last use; 0 is least recently used (R271) -/
  used : Nat := 0
  /-- requester class that allocated it -/
  cls : Nat := 0
  deriving DecidableEq, Repr

/-- A line fill in flight (R272). -/
structure Fill where
  addr : Nat
  cls : Nat
  stream : Nat
  /-- bank, set and way kept for the line; none when it is not allocated -/
  slot : Option (Nat × Nat × Nat)
  /-- write that caused the miss: offset in the line and bytes -/
  write : Option (Nat × Bytes) := none
  /-- bytes of DMA writes to merge when the fill lands: (offset, bytes) -/
  merge : List (Nat × Bytes) := []
  /-- the fill was discarded by a whole-line DMA write and is issued again -/
  again : Bool := false
  prefetch : Bool := false
  deriving DecidableEq, Repr

/-- A stride detector (R271). -/
structure Detector where
  cls : Nat
  stream : Nat
  last : Nat
  stride : Int := 0
  /-- misses made with the stride -/
  count : Nat := 0
  armed : Bool := false
  used : Nat := 0
  deriving DecidableEq, Repr

/-- The Pantry (block PAN). -/
structure Pan where
  /-- PAN_STATUS.STATE, 2 bits: 0 OFF, 1 ON, 2 DRAINING; 12_pantry_and_memory.md R274; reset 0, OFF until the first arm -/
  state : Nat := 0
  /-- valid lines, 64 B each, in up to 32 banks of 4,096 sets of 16 ways; 12_pantry_and_memory.md R268; reset none valid -/
  lines : List Line := []
  /-- fills in flight; 12 R272; reset none -/
  fills : List Fill := []
  /-- accesses that wait behind an outstanding miss: (class, stream, address, write); 12 R272; reset none -/
  waiting : List (Nat × Nat × Nat × Option Bytes) := []
  /-- slice table, 256 entries: serving bank; 12 R268; reset empty until an image is applied -/
  slices : List Nat := []
  /-- stride detectors; 12 R271; reset none -/
  detectors : List Detector := []
  /-- use order counter of the replacement -/
  clock : Nat := 1
  /-- statistics by PAN_STAT_SEL, 32 bits each; 12 PAN_STAT; reset 0 -/
  stat : List Nat := List.replicate 16 0
  deriving DecidableEq, Repr

/-- One HBM stack (R277 to R279). -/
structure Stack where
  stack : Nat
  spareUsed : Bool := false
  /-- pseudo-channel the spare replaces; 0x3F none -/
  spareFor : Nat := 0x3F
  /-- pseudo-channel being copied to the spare -/
  copying : Option Nat := none
  mappedOut : List Nat := []
  deriving DecidableEq, Repr

/-- Memory controllers (block MEM). -/
structure Memc where
  /-- HBM stacks; 12_pantry_and_memory.md R277; reset SPARE_USED 0, SPARE_FOR 0x3F, MAPPED_OUT 0 -/
  hbm : List Stack := [{ stack := 0 }, { stack := 1 }, { stack := 2 }, { stack := 3 }]
  /-- MEM_DDR: DPC, DIMM_GIB, CH_OK; 12 R280; reset 0 -/
  dpc : Nat := 0
  dimmGib : Nat := 0
  chOk : BitVec 8 := 0
  /-- error counters by MEM_ERR_SEL, 32 bits each; reset 0 -/
  errs : List Nat := List.replicate 16 0
  /-- MEM_LAST_ERR: KIND, UNIT, PC, UE; reset 0 -/
  lastErr : Nat × Nat × Nat × Nat := (0, 0, 0, 0)
  /-- DIRTY_LIMIT_MIB, 16 bits; 12 R279, 14 R310; reset 0x4000 -/
  dirtyLimitMib : Nat := 0x4000
  /-- scrub passes made of HBM and DDR5; 12 R278, R280; reset 0 -/
  scrubs : Nat × Nat := (0, 0)
  deriving DecidableEq, Repr

/-! ## Power -/

/-- A power domain (R282, R292). -/
structure Domain where
  dom : Nat
  /-- 0 off, 1 waking, 2 ready -/
  state : Nat := 0
  retained : Bool := false
  lost : Bool := false
  /-- requesters stalled on a first access -/
  stalled : Bool := false
  /-- time at which it began to wake -/
  since : Nat := 0
  deriving DecidableEq, Repr

/-- A power-state entry in hand (R286 to R291). -/
structure PowerEntry where
  target : Nat
  mask : BitVec 4
  acceptedAt : Nat
  /-- context of ENTER POWER STATE; none once completed or lost to a reset -/
  ctx : Option Nat
  /-- step 3 has begun: ports down, no reversal -/
  portsDown : Bool := false
  /-- troupes being closed (R290) -/
  closing : List Troupe := []
  deriving DecidableEq, Repr

/-- The PWR block: states, domains, governor, thermal. -/
structure Pwr where
  /-- STATE, 3 bits; 13_power_states_and_wake.md R285; reset 0x0 RUN -/
  state : Nat := 0
  /-- entry under way; 13 R287, R289; reset none -/
  entry : Option PowerEntry := none
  /-- rings switched on; 13 PWR_STATE.RINGS_ON; fuse (rings enabled) -/
  ringsOn : BitVec 4 := 0xF
  /-- rings kept by TRIM or RUN; 13 PWR_STATE.RINGS_KEPT; fuse (rings enabled) -/
  ringsKept : BitVec 4 := 0xF
  /-- rings woken on demand and time of their last work; 13 R288; reset none -/
  demandWoken : List (Nat × Nat) := []
  /-- power domains not off, of 162; 13 R282; none stated, DESIGN CHOICE all off (log 5) -/
  domains : List Domain := []
  /-- PLL_LOCK and ON_PLL; 13 PWR_CLK; reset 0 -/
  pllLock : BitVec 4 := 0
  onPll : Bool := false
  /-- failed attempts of a part in the present wake: (part, attempts); 13 R294; reset none -/
  attempts : List (Nat × Nat) := []
  /-- the wake sequence runs: next wake group; 13 R292; reset none -/
  waking : Option Nat := none
  /-- booth duty D in sixteenths; 14_calliope_power_delivery.md R302; reset 0x10 -/
  duty : Nat := 16
  /-- LEVEL; 14 R302; reset 0 FULL -/
  level : Nat := 0
  /-- rings gated by the governor, 4 bits; 14 PWR_GOV.RINGS_GATED; reset 0 -/
  govGated : BitVec 4 := 0
  /-- ILIM, 1 bit; 14 R300; reset 0 -/
  ilim : Bool := false
  /-- in the beat in hand: P > B seen, P above B − 5 % of the envelope seen; 14 R302; reset 0 -/
  overB : Bool := false
  overBack : Bool := false
  /-- beats in which sources 808, 810 and 821 were last raised; 14 R300, R302, 17 R378; reset none -/
  levelBeat : Option Nat := none
  ilimBeat : Option Nat := none
  hotBeat : Option Nat := none
  /-- PWR_VIN: VIN in mV, envelope in mW; 14 R300; reset 0 -/
  vinMv : Nat := 0
  envMw : Nat := 0
  /-- hottest die in °C and its sensor; 17_package_pins_electrical.md PWR_THERM; reset 0 -/
  dieC : Int := 0
  sensor : Nat := 0
  /-- thermal governor (until below 97 °C), thermal HOLD (until below 100 °C); 17 R378; reset 0 -/
  hot : Bool := false
  hotHold : Bool := false
  /-- samples at or above 108 °C in a row; 17 R378; reset 0 -/
  run108 : Nat := 0
  /-- HUP_SENSE unconnected: samples below 5 V in a row, and the verdict; 17 R371; reset 0 -/
  hupLow : Nat := 0
  hupOpen : Bool := false
  deriving DecidableEq, Repr

/-- The cellar (block CEL). -/
structure Cel where
  /-- VALID, 1 bit; 13_power_states_and_wake.md R297; reset 0 -/
  calValid : Bool := false
  /-- calendar seconds (48 bits) at `calAt`, which advances with `now`; 13 R297; none stated, DESIGN CHOICE 0 (log 5) -/
  calSec : Nat := 0
  calAt : Nat := 0
  /-- operating-hours counter, 40 bits, in s, at `opAt`; 13 CEL_OPHOURS; record, DESIGN CHOICE 0 (log 4) -/
  opSec : Nat := 0
  opAt : Nat := 0
  /-- power-cycle count, 24 bits; 13 CEL_OPHOURS; record, DESIGN CHOICE 0 (log 4) -/
  cycles : Nat := 0
  /-- CEL_WAKE_REC: CAUSE, PART, ATTEMPTS, FIO_ALT, FAILED, DDR_LOST; 13 R293 to R295; reset 0 -/
  cause : Nat := 0
  part : Nat := 0
  attempts : Nat := 0
  fioAlt : Bool := false
  failed : Bool := false
  ddrLost : Bool := false
  /-- CEL_LAST_SAMPLE: VIN in 0.1 V, die in °C, CROSSED; 13 R296; reset 0 -/
  lastVin : Nat := 0
  lastDie : Nat := 0
  crossed : BitVec 4 := 0
  /-- samples in a row over a limit, by limit; 13 R296; reset 0 -/
  runs : List Nat := [0, 0, 0, 0]
  /-- the cellar runs from VBAK; 13 R283; reset 0 -/
  onVbak : Bool := false
  /-- CELLAR was entered by VIN loss or by a flush; 13 R293; reset 0 -/
  vinLoss : Bool := false
  /-- retention signatures of the power record: (bank, signature); 13 R295; record, DESIGN CHOICE none (log 4) -/
  signatures : List (Nat × BitVec 64) := []
  /-- the calendar crystal has stopped; 17 R373; reset 0 -/
  crystalStopped : Bool := false
  /-- TRIPPED; 17 PWR_THERM; record, DESIGN CHOICE 0 (log 4) -/
  tripped : Bool := false
  /-- source 823 raised for that trip; 17 R378; reset 0 -/
  tripRaised : Bool := false
  /-- CAL_FLUSH.LAST_MS, 16 bits; 14 CAL_FLUSH; record, DESIGN CHOICE 0 (log 4) -/
  flushMs : Nat := 0
  deriving DecidableEq, Repr

/-- One rail (R301, R304, R308). -/
structure Rail where
  mv : Nat := 0
  ma : Nat := 0
  inReg : Bool := false
  implausible : Bool := false
  /-- samples in a row implausible, and plausible -/
  bad : Nat := 0
  good : Nat := 0
  /-- integrator (clamped to the rated current), Calliope term, phase current command u[n]; exact -/
  integ : Rat := 0
  term : Rat := 0
  u : Rat := 0
  /-- Calliope memory: r and e of each of the 4,096 samples of a cycle; samples not listed are 0 -/
  r : List Rat := []
  e : List Int := []
  deriving DecidableEq, Repr

/-- Calliope and hold-up (block CAL). -/
structure Cal where
  /-- coefficient banks A and B, 512 words each; 14_calliope_power_delivery.md R307; reset 0 -/
  bankA : List Word := List.replicate 512 0
  bankB : List Word := List.replicate 512 0
  /-- bank in force: none is the boot law (R349), else 0 A or 1 B; reset none -/
  bank : Option Nat := none
  /-- SWAP_PENDING; reset 0 -/
  swapPending : Bool := false
  /-- rails 0 to 5; 14 R301 to R308; reset 0 -/
  rails : List Rail := List.replicate 6 {}
  /-- input power implausible: samples in a row, verdict; 14 R308; reset 0 -/
  inputBad : Nat := 0
  inputGood : Nat := 0
  inputImplausible : Bool := false
  /-- learning suspended by a step of the Wheel; 14 R305; reset 0 -/
  stepped : Bool := false
  learn : Bool := true
  ff : Bool := true
  /-- plan counts of the slot in hand: classes 0 to 6, booths starting, duty change, rings waking; 14 R306; reset 0 -/
  plan : List Int := List.replicate 10 0
  nextPlan : List Int := List.replicate 10 0
  /-- booths at work, duty and rings awake at the last seal, which the plan's changes count from; 14 R306; reset 0, 16, 0 -/
  planned : Nat × Nat × Nat := (0, 16, 0)
  /-- E_avail and E_need in mJ, V_H and V_trig in mV; 14 R309; reset 0 -/
  availMj : Nat := 0
  needMj : Nat := 0
  vhMv : Nat := 0
  trigMv : Nat := 0
  /-- flush volume F of the last beat edge, bytes; 14 R309, R310; reset 0 -/
  volume : Nat := 0
  /-- CAL_FLUSH.STATE and CAUSE; 14 R311; reset 0 -/
  flush : Nat := 0
  flushCause : Nat := 0
  /-- time T of the trigger; reset none -/
  flushAt : Nat := 0
  /-- a vault exists on the landing shelves: troupes, last matched beats, chunks, orders; 14 R312, R313; on flash, DESIGN CHOICE none (log 4) -/
  vault : Option (List (Nat × Nat) × List Nat × List OrderRec) := none
  /-- source 819 raised since the start; reset 0 -/
  noHoldup : Bool := false
  deriving DecidableEq, Repr

/-! ## Firmware update and pins -/

/-- A boot image's header and directory (R343), with the component bytes the head loads. -/
structure BootImage where
  keyIndex : Nat
  svn : Nat
  part : Nat
  grades : Nat
  phases : Nat
  serial : BitVec 64
  length : Nat
  fwRev : Bytes
  pairIf : Nat
  pairIfMin : Nat
  bridgeIfMin : Nat
  bridgeIfMax : Nat
  revokeBelow : Bool
  /-- directory: (TYPE, OFFSET, SIZE, VERSION, DIGEST) -/
  dir : List (Nat × Nat × Nat × Nat × Bytes)
  deriving DecidableEq, Repr

/-- A boot control block (R340). -/
structure Bctl where
  seq : Nat := 0
  active : Nat := 0
  trial : Nat := 0
  attempts : Nat := 0
  field : Nat := 0
  valid : BitVec 16 := 0
  digest1 : Bytes := List.replicate 32 0
  digest2 : Bytes := List.replicate 32 0
  /-- MAGIC and CRC valid -/
  ok : Bool := false
  deriving DecidableEq, Repr

/-- Firmware update (block FWU) and the boot flash. -/
structure Fwu where
  /-- boot control block copies A and B, 128 B each; 16_boot_trust_and_firmware.md R340; on boot flash, DESIGN CHOICE not valid (log 4) -/
  bctlA : Bctl := {}
  bctlB : Bctl := {}
  /-- image slots 1 and 2 and the recovery region (0): 64 KiB sectors programmed (index, bytes); 16 R339, R355; on boot flash, DESIGN CHOICE empty (log 4) -/
  flash : List (Nat × Nat × Bytes) := []
  /-- PHASE, BOOTED, FALLBACK; 16 R347, FWU_STATUS; record, DESIGN CHOICE 0 (log 4) -/
  phase : Nat := 0
  booted : Nat := 0
  fallback : Bool := false
  /-- this start runs the slot on trial; 16 R360; record, DESIGN CHOICE 0 (log 4) -/
  trial : Bool := false
  /-- header of the booted image and its SHA3-256; 16 R343; none before a start -/
  image : Option BootImage := none
  imageDigest : Bytes := []
  /-- DL_OPEN, slot being downloaded, its controller, EXPECTED blocks; 16 R355; reset 0 -/
  dlOpen : Bool := false
  dlSlot : Nat := 0
  dlCtrl : Nat := 0
  dlBlocks : List Nat := []
  dlExpected : Nat := 0
  /-- SCHEDULED: slot and cycle count of E; 16 R357; reset none -/
  schedule : Option (Nat × Nat) := none
  /-- REFUSE_REASON, VERIFY_CODE; 16 R354, R346; reset 0 -/
  reason : Nat := 0
  verifyCode : Nat := 0
  /-- activation in progress: handovers running before the restart; 16 R358; reset 0 -/
  activating : Bool := false
  /-- a restart is due when the handovers end; 11 R251, 16 R358, R362; reset 0 -/
  restartDue : Bool := false
  /-- time S of this start; 16 R338; reset 0 -/
  startS : Nat := 0
  /-- bridges: (shelf, digest, interface, 0 match 1 pending 2 outside); 16 R350; reset none -/
  bridges : List (Nat × Bytes × Nat × Nat) := []
  /-- attestation: BUSY, RESULT, next index I, watermark W_A; 16 R352, R353; W_A record, DESIGN CHOICE 0 (log 4) -/
  attBusy : Bool := false
  attResult : Nat := 0
  attIndex : Nat := 0
  attMark : Nat := 0
  /-- the destination of the quote, sampled at START; 16 R353; reset 0 -/
  attDst : Nat := 0
  /-- a start has been made and firmware runs; 16 R338; reset 0 -/
  running : Bool := false
  /-- starts are refused because nothing verifies (R342); reset 0 -/
  noImage : Bool := false
  /-- what the last start found outside the head, which a restart of its own finds again (log 41); the model's own, reset none -/
  found : Option StartInfo := none
  deriving DecidableEq, Repr

/-- Pins and supplies (R366, R368, R372). -/
structure Pins where
  /-- VIN applied; 17_package_pins_electrical.md R366; none stated, DESIGN CHOICE 0 (log 5) -/
  vin : Bool := false
  /-- VBAK present; 17 R366; none stated, DESIGN CHOICE 1 (log 5) -/
  vbak : Bool := true
  /-- RESET_N low; 17 R372; pulled up, reset 0 -/
  resetLow : Bool := false
  /-- TAP instruction loaded; 17 R368; reset Test-Logic-Reset -/
  tap : Option JtagInstr := none
  /-- ALERT_N asserted by the wake sequencer or by R342; 13 R294, 16 R342; reset 0 -/
  wakeAlert : Bool := false
  /-- WHEEL_REF driven and its last edge kind (1 slot, 2 beat, 3 cycle); 10 R232; reset 0 -/
  refDriven : Bool := false
  refKind : Nat := 0
  tickKind : Nat := 0
  deriving DecidableEq, Repr

/-! ## What the head sends out -/

/-- A completion's status: SC, SCT and DNR. -/
structure Status where
  sct : Nat
  sc : Nat
  dnr : Bool
  deriving DecidableEq, Repr

/-- What the head has sent to the outside: completions, transfers, messages, shelf-bus commands, launches. The list is
the model's own observation of the boundary; newest first. -/
inductive Out where
  /-- a completion: controller, queue, CID, status, dword 0, More bit, SQHD -/
  | completion (cntlid qid cid : Nat) (status : Status) (dw0 : Nat) (more : Bool) (sqhd : Nat)
  /-- a Connect reply on a port -/
  | connectReply (port cid : Nat) (status : Status) (cntlid : Nat)
  /-- an asynchronous event posted: controller, type, information, log page -/
  | event (cntlid type info page : Nat)
  /-- an RDMA Read or an R2T grant: context, offset, length -/
  | pull (ctx offset len : Nat)
  /-- blocks sent to the host: context, LBA, bytes as they leave the port -/
  | hostData (ctx lba : Nat) (bytes : Bytes)
  /-- admin data returned to the host -/
  | adminData (ctx : Nat) (bytes : Bytes)
  /-- a C2HTermReq: controller, queue; Data Transfer Out of Range, else PDU Sequence Error -/
  | termReq (cntlid qid : Nat) (outOfRange : Bool)
  /-- a connection closed by the head -/
  | closed (cntlid qid : Nat)
  /-- Receiver Not Ready or a stopped connection (R51) -/
  | heldBack (cntlid qid : Nat)
  /-- Iclin messages -/
  | descriptor (t : Troupe) (opcode nsid slba nlb arrival ctx : Nat)
  | chunk (t : Troupe) (handle : Nat) (bytes : Bytes) (guard : BitVec 64)
  | confirm (t : Troupe) (handle : Nat) (held : Bool)
  | order (t : Troupe) (r : OrderRec)
  | marker (t : Troupe) (beat count last : Nat)
  | digest (t : Troupe) (beat : Nat) (d : Bytes)
  | verdict (v : VerdictMsg)
  | journal (t : Troupe) (entry : Bytes)
  | control (m : ControlMsg)
  /-- ask the Catcher for its mirror copy -/
  | fetchMirror (t : Troupe) (handle : Nat)
  /-- a resync copy of dirty pages and staging (bytes) -/
  | resyncCopy (t : Troupe) (bytes : Nat)
  /-- shelf-bus commands: code and data words -/
  | shelfBus (shelf code : Nat) (data : List Nat)
  /-- operations launched in a slot: bundle, cycle, slot -/
  | launch (bundle cycle slot : Nat)
  /-- the blocks, each with its member tag, that a program writes to unit `unit` of a module's zone -/
  | program (shelf mdl zone unit : Nat) (blocks : Bytes)
  /-- the blocks of an in-place row write: role, block with its tag -/
  | rowBlock (shelf mdl stripe row role : Nat) (block : Bytes)
  /-- CC.SHN to a shelf's modules -/
  | shutdown (shelf : Nat)
  /-- an NVMe command to a module: 0 Format, 1 Finish, 2 Reset, 3 other -/
  | moduleCmd (shelf mdl code : Nat)
  /-- bridge firmware load -/
  | bridgeLoad (shelf : Nat)
  /-- pulse on WHEEL_TICK_OUT and, when driven, on WHEEL_REF: width in ns -/
  | pulse (width : Nat) (ref : Bool)
  /-- answer to a management transaction -/
  | smbus (bytes : Bytes)
  | smbusNack
  /-- a bus error to a requester of head memory or a domain -/
  | busError (addr : Nat)
  /-- records to a Strongroom's peer under the pair transport key -/
  | strongroom (bytes : Bytes)
  deriving DecidableEq, Repr

/-! ## The head and the state -/

/-- Everything in the head but its memory and the queue of waiting commands. -/
structure Head where
  /-- time since the model's start, in µs: advances only on an empty queue (log 1) -/
  now : Nat := 0
  /-- fuses and straps; 00_scope.md R1, 16 R344 -/
  fuse : Fuse := {}
  /-- written control-space fields that differ from their reset value: (register key, word); 00 R7; reset none -/
  regs : List (Nat × Word) := []
  /-- Barker sources that are not idle; 15_faults_barker_attic.md R323; reset none -/
  brk : List SrcState := []
  /-- the Attic; 15_faults_barker_attic.md R326; see Attic -/
  atc : Attic := {}
  flt : Faults := {}
  tsi : Tsi := {}
  hqe : Hqe := {}
  dp : Dp := {}
  ldr : Ldr := {}
  cmp : Cmp := {}
  stg : Stg := {}
  cph : Cph := {}
  dgt : Dgt := {}
  pty : Pty := {}
  mnd : Mnd := {}
  shf : Shf := {}
  whl : Whl := {}
  pair : Pair := {}
  pan : Pan := {}
  memc : Memc := {}
  pwr : Pwr := {}
  cel : Cel := {}
  cal : Cal := {}
  fwu : Fwu := {}
  pins : Pins := {}
  /-- PARADE: last summary (4,096 bytes), SUMMARY_SEQ (32 bits), BUSY; 15 R334; reset 0 -/
  parade : Bytes := []
  paradeSeq : Nat := 0
  /-- what the head has sent out; the model's own (log 2) -/
  out : List Out := []
  /-- free-value counter; the model's own, reset DESIGN CHOICE 0 (log 7) -/
  free : Nat := 0
  deriving DecidableEq, Repr

/-- The state of the machine: the head, its memory and the commands that wait. -/
structure State where
  head : Head := {}
  /-- head memory (HBM window and DDR5): bytes that differ from 0, by address; 12_pantry_and_memory.md R266; contents none stated, an unlisted byte reads 0, DESIGN CHOICE (log 6) -/
  mem : List Host.Cell := []
  /-- commands that wait, first in, first out; reset empty -/
  pending : List Instr := []
  deriving DecidableEq, Repr

/-- The head right after reset. -/
def State.reset : State := {}

end Sys2Proof.Machine
end

