-- ==== Sys2Proof/Machine/Operands.lean ====
section
/-!
DEFINITION. Byte order and bit fields of structures (R10), and the operand fields of a command capsule (R63, R68).
-/

namespace Sys2Proof.Machine

open Sys2Proof

/-! ## Byte order -/

/-- `n` bytes of `v`, little-endian (R10). -/
def leBytes : Nat → Nat → Bytes
  | 0, _ => []
  | n + 1, v => BitVec.ofNat 8 v :: leBytes n (v / 256)

/-- `n` bytes of `v`, big-endian: fields of NVMe protection information (R10). -/
def beBytes (n v : Nat) : Bytes := (leBytes n v).reverse

/-- The value of a little-endian byte string (R10). -/
def leNat : Bytes → Nat
  | [] => 0
  | b :: bs => b.toNat + 256 * leNat bs

/-- The value of a big-endian byte string. -/
def beNat (bs : Bytes) : Nat := leNat bs.reverse

/-- `n` bytes at offset `off`; bytes past the end are left out. -/
def slice (off n : Nat) (bs : Bytes) : Bytes := (bs.drop off).take n

/-- A little-endian field of `n` bytes at offset `off`. -/
def leAt (off n : Nat) (bs : Bytes) : Nat := leNat (slice off n bs)

/-- `n` zero bytes. -/
def zeros (n : Nat) : Bytes := List.replicate n 0

/-- `bs` padded with zeros, or cut, to `n` bytes. -/
def fit (n : Nat) (bs : Bytes) : Bytes := bs.take n ++ zeros (n - bs.length)

/-- `bs` with `new` written over it from offset `off`; the length stays. -/
def patch (off : Nat) (new bs : Bytes) : Bytes :=
  (bs.take off ++ new ++ bs.drop (off + new.length)).take bs.length

/-- `bs` padded with zeros to a multiple of `n` (n > 0). -/
def padTo (n : Nat) (bs : Bytes) : Bytes := bs ++ zeros ((n - bs.length % n) % n)

/-- 32-bit words of a byte string, little-endian. -/
def leWords : Nat → Bytes → List Word
  | 0, _ => []
  | n + 1, bs => BitVec.ofNat 32 (leNat (bs.take 4)) :: leWords n (bs.drop 4)

/-- Bytes of 32-bit words, little-endian. -/
def wordBytes (ws : List Word) : Bytes := ws.flatMap (fun w => leBytes 4 w.toNat)

/-- Field [hi:lo] of a number. -/
def bits (hi lo v : Nat) : Nat := v / 2 ^ lo % 2 ^ (hi + 1 - lo)

/-- Bit `i` of a number. -/
def bitAt (i v : Nat) : Bool := v / 2 ^ i % 2 == 1

/-- A flag as the bit it shows in a register. -/
def flag (b : Bool) : Nat := if b then 1 else 0

/-- ⌈a / b⌉ for b > 0. -/
def ceilDiv (a b : Nat) : Nat := (a + b - 1) / b

/-- `if n = 0 then d else n`: a field of which 0 acts as another value. -/
def orIfZero (d n : Nat) : Nat := if n = 0 then d else n

/-- A field clamped to 32 bits: the saturating counters. -/
def sat32 (n : Nat) : Nat := min n 0xFFFFFFFF

/-! ## Lists used as tables -/

/-- Set or add the entry of a key. -/
def assocSet {α β : Type} [DecidableEq α] (k : α) (v : β) (l : List (α × β)) : List (α × β) :=
  (k, v) :: l.filter (fun e => decide (e.1 ≠ k))

/-- The entry of a key, or a default. -/
def assocGet {α β : Type} [DecidableEq α] (k : α) (d : β) (l : List (α × β)) : β :=
  ((l.find? (fun e => decide (e.1 = k))).map (·.2)).getD d

/-- Add 1, or more, to entry `i` of a counter list. -/
def bump (i n : Nat) (l : List Nat) : List Nat := l.modify i (· + n)

end Sys2Proof.Machine

namespace Sys2Proof

/-! ## Capsule fields -/

/-- SLBA: command dwords 10 and 11. -/
def Capsule.slba (c : Capsule) : Nat := c.dw10.toNat + 2 ^ 32 * c.dw11.toNat

/-- NLB of a Read, Write, Compare or Write Zeroes: zero-based, dword 12 bits [15:0]. -/
def Capsule.nlb (c : Capsule) : Nat := c.dw12.toNat % 2 ^ 16

/-- NLB of STAGE-IN and STAGE-RELEASE: the whole of dword 12 (R68). -/
def Capsule.stageNlb (c : Capsule) : Nat := c.dw12.toNat

/-- PRINFO: dword 12 bits [29:26]; PRACT is bit 29, PRCHK bits [28:26] (guard, application tag, reference tag). -/
def Capsule.pract (c : Capsule) : Bool := c.dw12.getLsbD 29
def Capsule.prchkGuard (c : Capsule) : Bool := c.dw12.getLsbD 28
def Capsule.prchkApp (c : Capsule) : Bool := c.dw12.getLsbD 27
def Capsule.prchkRef (c : Capsule) : Bool := c.dw12.getLsbD 26

/-- LBAT and LBATM: dword 15 bits [15:0] and [31:16]. -/
def Capsule.lbat (c : Capsule) : Nat := c.dw15.toNat % 2 ^ 16
def Capsule.lbatm (c : Capsule) : Nat := c.dw15.toNat / 2 ^ 16

/-- Bytes that one block transfers (R61, R62). -/
def Capsule.blockBytes (c : Capsule) : Nat := if c.pract then 4096 else 4112

/-- The required length of a data command (R63). -/
def Capsule.required (c : Capsule) : Nat := (c.nlb + 1) * c.blockBytes

/-- Declared length: the SGL sum. -/
def Capsule.declared (c : Capsule) : Nat := c.sgl.sum

/-! ## I/O opcodes (R59, R68) -/

def opFlush : Nat := 0x00
def opWrite : Nat := 0x01
def opRead : Nat := 0x02
def opCompare : Nat := 0x05
def opWriteZeroes : Nat := 0x08
def opDsm : Nat := 0x09
def opStageIn : Nat := 0x81
def opStageRelease : Nat := 0x82

/-- Supported I/O opcodes. -/
def ioOpcode (o : Nat) : Bool :=
  [opFlush, opWrite, opRead, opCompare, opWriteZeroes, opDsm, opStageIn, opStageRelease].contains o

/-- Supported admin opcodes (R55, R68): the vendor opcodes 0xC2 and 0xC4 are reserved. -/
def adminOpcode (o : Nat) : Bool :=
  [0x02, 0x06, 0x08, 0x09, 0x0A, 0x0C, 0x10, 0x11, 0x14, 0x18, 0x84, 0x7F, 0xC0, 0xC1, 0xC3, 0xC5, 0xC6, 0xC7].contains o

/-- Writers of the overlap fence: Write, Write Zeroes, Dataset Management with AD (R65). -/
def Capsule.isWriter (c : Capsule) : Bool :=
  c.opcode == opWrite || c.opcode == opWriteZeroes || (c.opcode == opDsm && c.dw11.getLsbD 2)

/-- Readers of the overlap fence: Read and Compare (R65). -/
def Capsule.isReader (c : Capsule) : Bool := c.opcode == opRead || c.opcode == opCompare

end Sys2Proof

namespace Sys2Proof.Machine

open Sys2Proof

/-! ## Statuses -/

def stSuccess : Status := ⟨0, 0, false⟩
def stInvalidOpcode : Status := ⟨0, 0x01, true⟩
def stInvalidField : Status := ⟨0, 0x02, true⟩
/-- Invalid Field in Command where the rule does not set DNR. -/
def stInvalidFieldRetry : Status := ⟨0, 0x02, false⟩
def stInternal : Status := ⟨0, 0x06, false⟩
def stInvalidNs : Status := ⟨0, 0x0B, true⟩
def stSequence : Status := ⟨0, 0x0C, false⟩
def stSglLength : Status := ⟨0, 0x0F, true⟩
def stDenied : Status := ⟨0, 0x15, false⟩
def stSanitizing : Status := ⟨0, 0x1D, false⟩
def stInterrupted : Status := ⟨0, 0x21, false⟩
def stTransport : Status := ⟨0, 0x22, false⟩
def stLbaRange : Status := ⟨0, 0x80, true⟩
def stCapacity : Status := ⟨0, 0x81, true⟩
def stNotReady : Status := ⟨0, 0x82, false⟩
def stFirmwareSlot : Status := ⟨1, 0x06, false⟩
def stFirmwareImage : Status := ⟨1, 0x07, false⟩
def stInvalidLog : Status := ⟨1, 0x09, false⟩
def stSelfTest : Status := ⟨1, 0x1D, false⟩
def stUnrecovered : Status := ⟨2, 0x81, false⟩
def stGuard : Status := ⟨2, 0x82, false⟩
def stAppTag : Status := ⟨2, 0x83, false⟩
def stRefTag : Status := ⟨2, 0x84, false⟩
def stCompare : Status := ⟨2, 0x85, false⟩
def stInaccessible : Status := ⟨3, 0x02, false⟩
def stDeferred : Status := ⟨7, 0x80, false⟩
def stFrozen : Status := ⟨7, 0x81, false⟩
def stLocked : Status := ⟨7, 0x82, false⟩
def stRetired : Status := ⟨7, 0x83, true⟩
def stTakeover : Status := ⟨7, 0x84, false⟩
def stUpdateRefused : Status := ⟨7, 0x85, false⟩
/-- Fabrics Connect statuses (R52): Controller Busy, Invalid Parameters. -/
def stConnectBusy : Status := ⟨1, 0x81, false⟩
def stConnectInvalid : Status := ⟨1, 0x82, true⟩

/-- The status byte pair as the freeze record shows it: [7:0] SC, [10:8] SCT (R70). -/
def Status.field (s : Status) : Nat := s.sc + 256 * s.sct

end Sys2Proof.Machine
end

