-- ==== Sys2Proof/Machine/RegTable.lean ====
section
/-!
DEFINITION. The registers of the control space: address, reset value and access type of every field (00_scope.md R7, and the
register tables of every chapter).
-/

namespace Sys2Proof.Machine

open Sys2Proof

/-- A register, or an array of registers at `addr + stride * i + stride2 * j` for `i < count`, `j < count2`: the reset value of
its writable fields and the bits of each access type (R7). -/
structure RegRow where
  addr : Nat
  stride : Nat
  count : Nat
  stride2 : Nat
  count2 : Nat
  reset : Word
  rw : Word
  rwa : Word
  rws : Word
  w1c : Word
  w1p : Word
  deriving DecidableEq, Repr

/-! ## Addresses -/

def Adr.GLB_IDENT : Nat := 0x0
def Adr.GLB_RESOURCES : Nat := 0x4
def Adr.TSI_CTRL : Nat := 0x60000
def Adr.TSI_STATUS : Nat := 0x60004
def Adr.TSI_SRC_LO : Nat := 0x60008
def Adr.TSI_SRC_HI : Nat := 0x6000C
def Adr.TSI_SRC_LEN : Nat := 0x60010
def Adr.TSI_ARM_BEAT : Nat := 0x60014
def Adr.TSI_CHECK : Nat := 0x60018
def Adr.TSI_ACTIVE_ID : Nat := 0x6001C
def Adr.TSI_APPLIED_BEAT : Nat := 0x60020
def Adr.TSI_SHADOW_ADDR : Nat := 0x60024
def Adr.TSI_SHADOW_DATA : Nat := 0x60028
def Adr.TSI_RETIRE_COUNT : Nat := 0x6002C
def Adr.TSI_ACTIVE_DIGEST (n : Nat) : Nat := 0x60040 + 0x4 * n
def Adr.HQE_CFG : Nat := 0x80000
def Adr.HQE_USE : Nat := 0x80004
def Adr.HQE_PEAK : Nat := 0x80008
def Adr.HQE_FROZEN : Nat := 0x8000C
def Adr.HQE_EVT : Nat := 0x80010
def Adr.LDR_CTRL : Nat := 0x140000
def Adr.LDR_STATUS : Nat := 0x140004
def Adr.LDR_GEN_OCC (n : Nat) : Nat := 0x140010 + 0x4 * n
def Adr.LDR_FAR_BASE : Nat := 0x140020
def Adr.LDR_FAR_SIZE : Nat := 0x140024
def Adr.LDR_FAR_OCC : Nat := 0x140028
def Adr.LDR_STASH : Nat := 0x14002C
def Adr.LDR_CNT_SEL : Nat := 0x140030
def Adr.LDR_CNT_LO : Nat := 0x140034
def Adr.LDR_CNT_HI : Nat := 0x140038
def Adr.LDR_EVT : Nat := 0x14003C
def Adr.LDR_PENDING : Nat := 0x140040
def Adr.LDR_IDX_PAGES (n : Nat) : Nat := 0x140044 + 0x4 * n
def Adr.CMP_CTRL : Nat := 0x150000
def Adr.CMP_SPILL_BASE : Nat := 0x150004
def Adr.CMP_SPILL_SIZE : Nat := 0x150008
def Adr.CMP_SPILL_USE : Nat := 0x15000C
def Adr.CMP_JOB_SRC_LO : Nat := 0x150010
def Adr.CMP_JOB_SRC_HI : Nat := 0x150014
def Adr.CMP_JOB_DST_LO : Nat := 0x150018
def Adr.CMP_JOB_DST_HI : Nat := 0x15001C
def Adr.CMP_JOB_LEN : Nat := 0x150020
def Adr.CMP_JOB_CAP : Nat := 0x150024
def Adr.CMP_JOB_CTRL : Nat := 0x150028
def Adr.CMP_JOB_STATUS : Nat := 0x15002C
def Adr.CMP_JOB_OUT : Nat := 0x150030
def Adr.CMP_JOB_IN : Nat := 0x150034
def Adr.CMP_STAT_SEL : Nat := 0x150038
def Adr.CMP_STAT : Nat := 0x15003C
def Adr.CMP_DEC_ERR (n : Nat) : Nat := 0x150040 + 0x4 * n
def Adr.BTH_CMP_STATE (n : Nat) : Nat := 0x100100 + 0x1000 * n
def Adr.BTH_CMP_LAST_ERR (n : Nat) : Nat := 0x100104 + 0x1000 * n
def Adr.CPH_STAT_SEL : Nat := 0x160000
def Adr.CPH_STAT : Nat := 0x160004
def Adr.CPH_LAST_FAIL : Nat := 0x160008
def Adr.BTH_CPH_STATE (n : Nat) : Nat := 0x100200 + 0x1000 * n
def Adr.BTH_CPH_TAGFAIL (n : Nat) : Nat := 0x100204 + 0x1000 * n
def Adr.STG_STATUS : Nat := 0x180000
def Adr.STG_CTRL : Nat := 0x180004
def Adr.STG_TOKEN_CMD : Nat := 0x180008
def Adr.STG_SLOT_SEL : Nat := 0x18000C
def Adr.STG_SLOT_INFO : Nat := 0x180010
def Adr.STG_SLOT_CTR (n : Nat) : Nat := 0x180014 + 0x4 * n
def Adr.STG_SLOT_WM (n : Nat) : Nat := 0x18001C + 0x4 * n
def Adr.STG_RETIRE_WARN : Nat := 0x180024
def Adr.STG_DOM_SEL : Nat := 0x180028
def Adr.STG_DOM_KEY : Nat := 0x18002C
def Adr.STG_ALARM : Nat := 0x180030
def Adr.STG_EVT : Nat := 0x180034
def Adr.STG_TOKEN (n : Nat) : Nat := 0x180040 + 0x4 * n
def Adr.DGT_EVT : Nat := 0x170000
def Adr.DGT_CH_CTRL (n : Nat) : Nat := 0x170100 + 0x100 * n
def Adr.DGT_CH_CFG (n : Nat) : Nat := 0x170104 + 0x100 * n
def Adr.DGT_CH_MSGLEN_LO (n : Nat) : Nat := 0x170108 + 0x100 * n
def Adr.DGT_CH_MSGLEN_HI (n : Nat) : Nat := 0x17010C + 0x100 * n
def Adr.DGT_CH_SRC_LO (n : Nat) : Nat := 0x170110 + 0x100 * n
def Adr.DGT_CH_SRC_HI (n : Nat) : Nat := 0x170114 + 0x100 * n
def Adr.DGT_CH_RUNLEN (n : Nat) : Nat := 0x170118 + 0x100 * n
def Adr.DGT_CH_LASTCNT (n : Nat) : Nat := 0x17011C + 0x100 * n
def Adr.DGT_CH_LASTWORD (n : Nat) : Nat := 0x170120 + 0x100 * n
def Adr.DGT_CH_STATUS (n : Nat) : Nat := 0x170124 + 0x100 * n
def Adr.DGT_CH_VERDICT (n : Nat) : Nat := 0x170128 + 0x100 * n
def Adr.DGT_CH_VERDICT_INV (n : Nat) : Nat := 0x17012C + 0x100 * n
def Adr.DGT_DIGEST (n k : Nat) : Nat := 0x170140 + 0x100 * n + 4 * k
def Adr.DGT_EXPECT (n k : Nat) : Nat := 0x170180 + 0x100 * n + 4 * k
def Adr.DGT_KEY (n k : Nat) : Nat := 0x170800 + 0x80 * n + 4 * k
def Adr.DGT_STATE (n k : Nat) : Nat := 0x171000 + 0x100 * n + 4 * k
def Adr.BTH_DGT_STATE (n : Nat) : Nat := 0x100300 + 0x1000 * n
def Adr.BTH_DGT_MISMATCH (n : Nat) : Nat := 0x100304 + 0x1000 * n
def Adr.PTY_CFG : Nat := 0x190000
def Adr.PTY_JRN_LOC (n : Nat) : Nat := 0x190010 + 0x4 * n
def Adr.PTY_JRN_BASE (n : Nat) : Nat := 0x190018 + 0x4 * n
def Adr.PTY_JRN_SIZE (n : Nat) : Nat := 0x190020 + 0x4 * n
def Adr.PTY_JRN_USE (n : Nat) : Nat := 0x190028 + 0x4 * n
def Adr.PTY_TSTL : Nat := 0x190030
def Adr.PTY_OPEN : Nat := 0x190034
def Adr.PTY_CNT_SEL : Nat := 0x190038
def Adr.PTY_CNT_LO : Nat := 0x19003C
def Adr.PTY_CNT_HI : Nat := 0x190040
def Adr.PTY_LAST_FAIL : Nat := 0x190044
def Adr.PTY_EVT : Nat := 0x190048
def Adr.PTY_TSTL_PEEK (n : Nat) : Nat := 0x190060 + 0x4 * n
def Adr.PTY_RING (n : Nat) : Nat := 0x190100 + 0x4 * n
def Adr.MND_CFG : Nat := 0x1A0000
def Adr.MND_RATE_FLOOR : Nat := 0x1A0004
def Adr.MND_RATE_CEIL : Nat := 0x1A0008
def Adr.MND_FAIL_THRESH : Nat := 0x1A000C
def Adr.MND_STATUS : Nat := 0x1A0010
def Adr.MND_MEMBER_SEL : Nat := 0x1A0014
def Adr.MND_MEMBER_INFO : Nat := 0x1A0018
def Adr.MND_MEMBER_CTRL : Nat := 0x1A001C
def Adr.MND_REB_SEL : Nat := 0x1A0020
def Adr.MND_REB_INFO : Nat := 0x1A0024
def Adr.MND_REB_RATE : Nat := 0x1A0028
def Adr.MND_RSH_CTRL : Nat := 0x1A0030
def Adr.MND_RSH_CFG : Nat := 0x1A0034
def Adr.MND_RSH_STATUS : Nat := 0x1A0038
def Adr.MND_RSH_BOUND (n : Nat) : Nat := 0x1A003C + 0x4 * n
def Adr.MND_PATROL : Nat := 0x1A0044
def Adr.MND_PATROL_DUE : Nat := 0x1A0048
def Adr.MND_RECLAIM : Nat := 0x1A004C
def Adr.MND_LOSS_COUNT : Nat := 0x1A0050
def Adr.MND_LOSS_READ : Nat := 0x1A0054
def Adr.MND_LOSS_DATA (n : Nat) : Nat := 0x1A0080 + 0x4 * n
def Adr.MND_JRN_EFF (n : Nat) : Nat := 0x1A0058 + 0x4 * n
def Adr.MND_EVT : Nat := 0x1A0060
def Adr.SHF_BUDGET : Nat := 0x1B0000
def Adr.SHF_POLICY : Nat := 0x1B0004
def Adr.SHF_HOLD : Nat := 0x1B0008
def Adr.SHF_CTRL : Nat := 0x1B000C
def Adr.SHF_STATUS : Nat := 0x1B0010
def Adr.SHF_DRAW : Nat := 0x1B0014
def Adr.SHF_SEL : Nat := 0x1B0020
def Adr.SHF_SHELF_CFG : Nat := 0x1B0024
def Adr.SHF_SHELF_PWR : Nat := 0x1B0028
def Adr.SHF_SHELF_LOW : Nat := 0x1B002C
def Adr.SHF_SHELF_TIME : Nat := 0x1B0030
def Adr.SHF_SHELF_STATUS : Nat := 0x1B0034
def Adr.SHF_PORT (n : Nat) : Nat := 0x1B0100 + 0x4 * n
def Adr.SHF_LANE_MAP (n : Nat) : Nat := 0x1B0140 + 0x4 * n
def Adr.SHF_EVT : Nat := 0x1B0180
def Adr.WHL_CFG : Nat := 0x1C0000
def Adr.WHL_STATUS : Nat := 0x1C0004
def Adr.WHL_CYCLE_LO : Nat := 0x1C0008
def Adr.WHL_CYCLE_HI : Nat := 0x1C000C
def Adr.WHL_BEAT : Nat := 0x1C0010
def Adr.WHL_PTP_OFS : Nat := 0x1C0014
def Adr.WHL_PEER_OFS : Nat := 0x1C0018
def Adr.WHL_PLAN_SEL : Nat := 0x1C001C
def Adr.WHL_PLAN_0 : Nat := 0x1C0020
def Adr.WHL_PLAN_1 : Nat := 0x1C0024
def Adr.WHL_OVERRUN : Nat := 0x1C0028
def Adr.WHL_LATE : Nat := 0x1C002C
def Adr.WHL_EVT : Nat := 0x1C0030
def Adr.TRP_CFG : Nat := 0x1D0000
def Adr.TRP_ROLE : Nat := 0x1D0004
def Adr.TRP_BATON : Nat := 0x1D0008
def Adr.TRP_CTRL : Nat := 0x1D000C
def Adr.TRP_HANDBACK_BEAT : Nat := 0x1D0010
def Adr.TRP_DIGEST (n : Nat) : Nat := 0x1D0020 + 0x4 * n
def Adr.TRP_MISMATCH : Nat := 0x1D0028
def Adr.TRP_ICL_STATUS : Nat := 0x1D0030
def Adr.TRP_RESYNC : Nat := 0x1D0034
def Adr.TRP_ICL_SPARE (n : Nat) : Nat := 0x1D0040 + 0x4 * n
def Adr.TRP_BLOG_BASE (n : Nat) : Nat := 0x1D0050 + 0x4 * n
def Adr.TRP_BLOG_SIZE (n : Nat) : Nat := 0x1D0058 + 0x4 * n
def Adr.TRP_EVT : Nat := 0x1D0060
def Adr.PAN_CTRL : Nat := 0x1E0000
def Adr.PAN_STATUS : Nat := 0x1E0004
def Adr.PAN_LOCK : Nat := 0x1E0008
def Adr.PAN_STAT_SEL : Nat := 0x1E000C
def Adr.PAN_STAT : Nat := 0x1E0010
def Adr.PAN_EVT : Nat := 0x1E0014
def Adr.PAN_WAYMASK (n : Nat) : Nat := 0x1E0040 + 0x4 * n
def Adr.MEM_HBM (n : Nat) : Nat := 0x1F0000 + 0x4 * n
def Adr.MEM_DDR : Nat := 0x1F0010
def Adr.MEM_SCRUB : Nat := 0x1F0014
def Adr.MEM_ERR_SEL : Nat := 0x1F0018
def Adr.MEM_ERR_CNT : Nat := 0x1F001C
def Adr.MEM_STAGING : Nat := 0x1F0020
def Adr.MEM_LAST_ERR : Nat := 0x1F0024
def Adr.MEM_EVT : Nat := 0x1F0028
def Adr.CEL_CAL_SEC_LO : Nat := 0x10000
def Adr.CEL_CAL_HI : Nat := 0x10004
def Adr.CEL_ALARM_LO : Nat := 0x10008
def Adr.CEL_ALARM_HI : Nat := 0x1000C
def Adr.CEL_WAKE_CFG : Nat := 0x10010
def Adr.CEL_SAMPLE_CFG : Nat := 0x10014
def Adr.CEL_LIMIT_0 : Nat := 0x10018
def Adr.CEL_LIMIT_1 : Nat := 0x1001C
def Adr.CEL_LAST_SAMPLE : Nat := 0x10020
def Adr.CEL_WAKE_REC : Nat := 0x10024
def Adr.CEL_MGMT : Nat := 0x10028
def Adr.CEL_OPHOURS_LO : Nat := 0x1002C
def Adr.CEL_OPHOURS_HI : Nat := 0x10030
def Adr.PWR_STATE : Nat := 0x20000
def Adr.PWR_CTRL : Nat := 0x20004
def Adr.PWR_CLK : Nat := 0x20008
def Adr.PWR_DOM_SEL : Nat := 0x2000C
def Adr.PWR_DOM_INFO : Nat := 0x20010
def Adr.PWR_DOM_CTRL : Nat := 0x20014
def Adr.PWR_RET_LOST (n : Nat) : Nat := 0x20018 + 0x4 * n
def Adr.PWR_EVT : Nat := 0x20020
def Adr.PWR_GOV : Nat := 0x20040
def Adr.PWR_VIN : Nat := 0x20044
def Adr.CAL_CTRL : Nat := 0x30000
def Adr.CAL_COEF_ADDR : Nat := 0x30004
def Adr.CAL_COEF_DATA : Nat := 0x30008
def Adr.CAL_SUPV : Nat := 0x3000C
def Adr.CAL_RAIL (n : Nat) : Nat := 0x30010 + 0x4 * n
def Adr.CAL_HUP_CFG : Nat := 0x30028
def Adr.CAL_EW : Nat := 0x3002C
def Adr.CAL_HUP_E : Nat := 0x30030
def Adr.CAL_HUP_TRIG : Nat := 0x30034
def Adr.CAL_FLUSH : Nat := 0x30038
def Adr.CAL_EVT : Nat := 0x3003C
def Adr.BRK_SRC_SEL : Nat := 0x40000
def Adr.BRK_SRC_CFG : Nat := 0x40004
def Adr.BRK_SRC_STAT : Nat := 0x40008
def Adr.BRK_RAISE : Nat := 0x4000C
def Adr.BRK_STATUS : Nat := 0x40010
def Adr.BRK_CORE_CFG (n : Nat) : Nat := 0x40040 + 0x4 * n
def Adr.BRK_CLAIM (n : Nat) : Nat := 0x40080 + 0x4 * n
def Adr.BRK_DONE (n : Nat) : Nat := 0x400C0 + 0x4 * n
def Adr.BRK_PEND (n : Nat) : Nat := 0x40100 + 0x4 * n
def Adr.BRK_FLT_SEL : Nat := 0x40200
def Adr.BRK_FLT_CFG : Nat := 0x40204
def Adr.BRK_FLT_COUNT : Nat := 0x40208
def Adr.ATC_STATUS : Nat := 0x50000
def Adr.ATC_HEAD_LO : Nat := 0x50004
def Adr.ATC_HEAD_HI : Nat := 0x50008
def Adr.ATC_DROPS (n : Nat) : Nat := 0x50010 + 0x4 * n
def Adr.ATC_READ_SLOT : Nat := 0x50020
def Adr.ATC_SET_SEL : Nat := 0x50024
def Adr.ATC_SET_CTRL : Nat := 0x50028
def Adr.ATC_SET_ADDR (n : Nat) : Nat := 0x50040 + 0x4 * n
def Adr.ATC_READ_DATA (n : Nat) : Nat := 0x50080 + 0x4 * n
def Adr.ATC_EVT : Nat := 0x50100
def Adr.GLB_PARADE_CTRL : Nat := 0x10
def Adr.GLB_PARADE_SEQ : Nat := 0x14
def Adr.GLB_PARADE_DATA (n : Nat) : Nat := 0x1000 + 0x4 * n
def Adr.FWU_STATUS : Nat := 0x200000
def Adr.FWU_CTRL : Nat := 0x200004
def Adr.FWU_CFG : Nat := 0x200008
def Adr.FWU_DL : Nat := 0x20000C
def Adr.FWU_ACT_CYCLE_LO : Nat := 0x200010
def Adr.FWU_ACT_CYCLE_HI : Nat := 0x200014
def Adr.FWU_BRIDGE : Nat := 0x200018
def Adr.FWU_ATT_CTRL : Nat := 0x200020
def Adr.FWU_ATT_DST_LO : Nat := 0x200024
def Adr.FWU_ATT_DST_HI : Nat := 0x200028
def Adr.FWU_ATT_IDX_LO : Nat := 0x20002C
def Adr.FWU_ATT_IDX_HI : Nat := 0x200030
def Adr.FWU_EVT : Nat := 0x200034
def Adr.FWU_ATT_NONCE (n : Nat) : Nat := 0x200040 + 0x4 * n
def Adr.FWU_ATT_USER (n : Nat) : Nat := 0x200060 + 0x4 * n
def Adr.FWU_ID_PUB (n : Nat) : Nat := 0x200080 + 0x4 * n
def Adr.PWR_THERM : Nat := 0x20048

/-! ## The table -/

/-- Registers, part 1: GLB_IDENT to HQE_PEAK. -/
def regTable1 : List RegRow :=
  [ ⟨0x0, 0x4, 1, 0x4, 1, 0x0, 0x0, 0x0, 0x0, 0x0, 0x0⟩,
    ⟨0x4, 0x4, 1, 0x4, 1, 0x0, 0x0, 0x0, 0x0, 0x0, 0x0⟩,
    ⟨0x60000, 0x4, 1, 0x4, 1, 0x0, 0x100, 0x0, 0x0, 0x0, 0x1F⟩,
    ⟨0x60004, 0x4, 1, 0x4, 1, 0x0, 0x0, 0x0, 0x0, 0xF0, 0x0⟩,
    ⟨0x60008, 0x4, 1, 0x4, 1, 0x0, 0xFFFFFFC0, 0x0, 0x0, 0x0, 0x0⟩,
    ⟨0x6000C, 0x4, 1, 0x4, 1, 0x0, 0xFFFF, 0x0, 0x0, 0x0, 0x0⟩,
    ⟨0x60010, 0x4, 1, 0x4, 1, 0x0, 0xFFFFFF, 0x0, 0x0, 0x0, 0x0⟩,
    ⟨0x60014, 0x4, 1, 0x4, 1, 0x0, 0xFFFFFFFF, 0x0, 0x0, 0x0, 0x0⟩,
    ⟨0x60018, 0x4, 1, 0x4, 1, 0x0, 0x0, 0x0, 0x0, 0x0, 0x0⟩,
    ⟨0x6001C, 0x4, 1, 0x4, 1, 0x0, 0x0, 0x0, 0x0, 0x0, 0x0⟩,
    ⟨0x60020, 0x4, 1, 0x4, 1, 0x0, 0x0, 0x0, 0x0, 0x0, 0x0⟩,
    ⟨0x60024, 0x4, 1, 0x4, 1, 0x0, 0xFFFFFC, 0x0, 0x0, 0x0, 0x0⟩,
    ⟨0x60028, 0x4, 1, 0x4, 1, 0x0, 0x0, 0x0, 0x0, 0x0, 0x0⟩,
    ⟨0x6002C, 0x4, 1, 0x4, 1, 0x0, 0x0, 0x0, 0x0, 0x0, 0x0⟩,
    ⟨0x60040, 0x4, 8, 0x4, 1, 0x0, 0x0, 0x0, 0x0, 0x0, 0x0⟩,
    ⟨0x80000, 0x4, 1, 0x4, 1, 0x800010, 0x0, 0xFF00FF, 0x0, 0x0, 0x0⟩,
    ⟨0x80004, 0x4, 1, 0x4, 1, 0x0, 0x0, 0x0, 0x0, 0x0, 0x0⟩,
    ⟨0x80008, 0x4, 1, 0x4, 1, 0x0, 0x0, 0x0, 0x0, 0x0, 0x80000000⟩ ]

/-- Registers, part 2: HQE_FROZEN to CMP_SPILL_SIZE. -/
def regTable2 : List RegRow :=
  [ ⟨0x8000C, 0x4, 1, 0x4, 1, 0x0, 0x0, 0x0, 0x0, 0x0, 0x0⟩,
    ⟨0x80010, 0x4, 1, 0x4, 1, 0x0, 0x0, 0x0, 0x0, 0xFF7F, 0x0⟩,
    ⟨0x140000, 0x4, 1, 0x4, 1, 0x4B5A01, 0xFFFF00, 0x1, 0x0, 0x0, 0x0⟩,
    ⟨0x140004, 0x4, 1, 0x4, 1, 0x0, 0x0, 0x0, 0x0, 0x0, 0x0⟩,
    ⟨0x140010, 0x4, 4, 0x4, 1, 0x0, 0x0, 0x0, 0x0, 0x0, 0x0⟩,
    ⟨0x140020, 0x4, 1, 0x4, 1, 0x0, 0x0, 0xFFF, 0x0, 0x0, 0x0⟩,
    ⟨0x140024, 0x4, 1, 0x4, 1, 0x0, 0x0, 0x8F, 0x0, 0x0, 0x0⟩,
    ⟨0x140028, 0x4, 1, 0x4, 1, 0x0, 0x0, 0x0, 0x0, 0x0, 0x0⟩,
    ⟨0x14002C, 0x4, 1, 0x4, 1, 0x0, 0x0, 0x0, 0x0, 0x0, 0x0⟩,
    ⟨0x140030, 0x4, 1, 0x4, 1, 0x0, 0xF, 0x0, 0x0, 0x0, 0x80000000⟩,
    ⟨0x140034, 0x4, 1, 0x4, 1, 0x0, 0x0, 0x0, 0x0, 0x0, 0x0⟩,
    ⟨0x140038, 0x4, 1, 0x4, 1, 0x0, 0x0, 0x0, 0x0, 0x0, 0x0⟩,
    ⟨0x14003C, 0x4, 1, 0x4, 1, 0x0, 0x0, 0x0, 0x0, 0xFF, 0x0⟩,
    ⟨0x140040, 0x4, 1, 0x4, 1, 0x0, 0x0, 0x0, 0x0, 0x0, 0x0⟩,
    ⟨0x140044, 0x4, 2, 0x4, 1, 0x0, 0x0, 0xFFFFFFFF, 0x0, 0x0, 0x0⟩,
    ⟨0x150000, 0x4, 1, 0x4, 1, 0x480A01, 0xFFFF01, 0x0, 0x0, 0x0, 0x0⟩,
    ⟨0x150004, 0x4, 1, 0x4, 1, 0x0, 0x0, 0xFFFFFF, 0x0, 0x0, 0x0⟩,
    ⟨0x150008, 0x4, 1, 0x4, 1, 0x4040, 0x0, 0xFFFF, 0x0, 0x0, 0x0⟩ ]

/-- Registers, part 3: CMP_SPILL_USE to CPH_STAT. -/
def regTable3 : List RegRow :=
  [ ⟨0x15000C, 0x4, 1, 0x4, 1, 0x0, 0x0, 0x0, 0x0, 0x0, 0x0⟩,
    ⟨0x150010, 0x4, 1, 0x4, 1, 0x0, 0xFFFFFFFF, 0x0, 0x0, 0x0, 0x0⟩,
    ⟨0x150014, 0x4, 1, 0x4, 1, 0x0, 0xFFFF, 0x0, 0x0, 0x0, 0x0⟩,
    ⟨0x150018, 0x4, 1, 0x4, 1, 0x0, 0xFFFFFFFF, 0x0, 0x0, 0x0, 0x0⟩,
    ⟨0x15001C, 0x4, 1, 0x4, 1, 0x0, 0xFFFF, 0x0, 0x0, 0x0, 0x0⟩,
    ⟨0x150020, 0x4, 1, 0x4, 1, 0x0, 0xFFFFFFFF, 0x0, 0x0, 0x0, 0x0⟩,
    ⟨0x150024, 0x4, 1, 0x4, 1, 0x0, 0xFFFFFFFF, 0x0, 0x0, 0x0, 0x0⟩,
    ⟨0x150028, 0x4, 1, 0x4, 1, 0x3F0000, 0x3F0F70, 0x0, 0x0, 0x0, 0x7⟩,
    ⟨0x15002C, 0x4, 1, 0x4, 1, 0x0, 0x0, 0x0, 0x0, 0x10000, 0x0⟩,
    ⟨0x150030, 0x4, 1, 0x4, 1, 0x0, 0x0, 0x0, 0x0, 0x0, 0x0⟩,
    ⟨0x150034, 0x4, 1, 0x4, 1, 0x0, 0x0, 0x0, 0x0, 0x0, 0x0⟩,
    ⟨0x150038, 0x4, 1, 0x4, 1, 0x0, 0xF, 0x0, 0x0, 0x0, 0x80000000⟩,
    ⟨0x15003C, 0x4, 1, 0x4, 1, 0x0, 0x0, 0x0, 0x0, 0x0, 0x0⟩,
    ⟨0x150040, 0x4, 11, 0x4, 1, 0x0, 0x0, 0x0, 0x0, 0x0, 0x0⟩,
    ⟨0x100100, 0x1000, 36, 0x4, 1, 0x0, 0x0, 0x0, 0x0, 0x0, 0x0⟩,
    ⟨0x100104, 0x1000, 36, 0x4, 1, 0x0, 0x0, 0x0, 0x0, 0x80000000, 0x0⟩,
    ⟨0x160000, 0x4, 1, 0x4, 1, 0x0, 0xF, 0x0, 0x0, 0x0, 0x80000000⟩,
    ⟨0x160004, 0x4, 1, 0x4, 1, 0x0, 0x0, 0x0, 0x0, 0x0, 0x0⟩ ]

/-- Registers, part 4: CPH_LAST_FAIL to DGT_CH_CTRL_n. -/
def regTable4 : List RegRow :=
  [ ⟨0x160008, 0x4, 1, 0x4, 1, 0x0, 0x0, 0x0, 0x0, 0x80000000, 0x0⟩,
    ⟨0x100200, 0x1000, 36, 0x4, 1, 0x0, 0x0, 0x0, 0x0, 0x0, 0x0⟩,
    ⟨0x100204, 0x1000, 36, 0x4, 1, 0x0, 0x0, 0x0, 0x0, 0x0, 0x0⟩,
    ⟨0x180000, 0x4, 1, 0x4, 1, 0x0, 0x0, 0x0, 0x0, 0x0, 0x0⟩,
    ⟨0x180004, 0x4, 1, 0x4, 1, 0x3, 0x0, 0x3, 0x0, 0x0, 0x0⟩,
    ⟨0x180008, 0x4, 1, 0x4, 1, 0x0, 0x0, 0x0, 0x0, 0x0, 0x3⟩,
    ⟨0x18000C, 0x4, 1, 0x4, 1, 0x0, 0xFF, 0x0, 0x0, 0x0, 0x0⟩,
    ⟨0x180010, 0x4, 1, 0x4, 1, 0x0, 0x0, 0x0, 0x0, 0x0, 0x0⟩,
    ⟨0x180014, 0x4, 2, 0x4, 1, 0x0, 0x0, 0x0, 0x0, 0x0, 0x0⟩,
    ⟨0x18001C, 0x4, 2, 0x4, 1, 0x0, 0x0, 0x0, 0x0, 0x0, 0x0⟩,
    ⟨0x180024, 0x4, 1, 0x4, 1, 0x2C, 0x3F, 0x0, 0x0, 0x0, 0x0⟩,
    ⟨0x180028, 0x4, 1, 0x4, 1, 0x0, 0xFFF, 0x0, 0x0, 0x0, 0x0⟩,
    ⟨0x18002C, 0x4, 1, 0x4, 1, 0x0, 0x0, 0x0, 0x0, 0x0, 0x0⟩,
    ⟨0x180030, 0x4, 1, 0x4, 1, 0x0, 0x0, 0x0, 0x0, 0x1F, 0x0⟩,
    ⟨0x180034, 0x4, 1, 0x4, 1, 0x0, 0x0, 0x0, 0x0, 0x3FF, 0x0⟩,
    ⟨0x180040, 0x4, 16, 0x4, 1, 0x0, 0xFFFFFFFF, 0x0, 0x0, 0x0, 0x0⟩,
    ⟨0x170000, 0x4, 1, 0x4, 1, 0x0, 0x0, 0x0, 0x0, 0x7, 0x0⟩,
    ⟨0x170100, 0x100, 4, 0x4, 1, 0x0, 0x0, 0x0, 0x0, 0x0, 0x7F⟩ ]

/-- Registers, part 5: DGT_CH_CFG_n to PTY_CFG. -/
def regTable5 : List RegRow :=
  [ ⟨0x170104, 0x100, 4, 0x4, 1, 0x1, 0xFFFF7FF7, 0x0, 0x0, 0x0, 0x0⟩,
    ⟨0x170108, 0x100, 4, 0x4, 1, 0x0, 0xFFFFFFFF, 0x0, 0x0, 0x0, 0x0⟩,
    ⟨0x17010C, 0x100, 4, 0x4, 1, 0x0, 0xFF, 0x0, 0x0, 0x0, 0x0⟩,
    ⟨0x170110, 0x100, 4, 0x4, 1, 0x0, 0xFFFFFFFF, 0x0, 0x0, 0x0, 0x0⟩,
    ⟨0x170114, 0x100, 4, 0x4, 1, 0x0, 0xFFFF, 0x0, 0x0, 0x0, 0x0⟩,
    ⟨0x170118, 0x100, 4, 0x4, 1, 0x0, 0xFFFFFFFF, 0x0, 0x0, 0x0, 0x0⟩,
    ⟨0x17011C, 0x100, 4, 0x4, 1, 0x0, 0x3, 0x0, 0x0, 0x0, 0x0⟩,
    ⟨0x170120, 0x100, 4, 0x4, 1, 0x0, 0xFFFFFFFF, 0x0, 0x0, 0x0, 0x0⟩,
    ⟨0x170124, 0x100, 4, 0x4, 1, 0x0, 0x0, 0x0, 0x0, 0x700, 0x0⟩,
    ⟨0x170128, 0x100, 4, 0x4, 1, 0x0, 0x0, 0x0, 0x0, 0x0, 0x0⟩,
    ⟨0x17012C, 0x100, 4, 0x4, 1, 0x0, 0x0, 0x0, 0x0, 0x0, 0x0⟩,
    ⟨0x170140, 0x100, 4, 0x4, 16, 0x0, 0x0, 0x0, 0x0, 0x0, 0x0⟩,
    ⟨0x170180, 0x100, 4, 0x4, 16, 0x0, 0xFFFFFFFF, 0x0, 0x0, 0x0, 0x0⟩,
    ⟨0x170800, 0x80, 4, 0x4, 32, 0x0, 0xFFFFFFFF, 0x0, 0x0, 0x0, 0x0⟩,
    ⟨0x171000, 0x100, 4, 0x4, 64, 0x0, 0xFFFFFFFF, 0x0, 0x0, 0x0, 0x0⟩,
    ⟨0x100300, 0x1000, 36, 0x4, 1, 0x0, 0x0, 0x0, 0x0, 0x0, 0x0⟩,
    ⟨0x100304, 0x1000, 36, 0x4, 1, 0x0, 0x0, 0x0, 0x0, 0x0, 0x0⟩,
    ⟨0x190000, 0x4, 1, 0x4, 1, 0x3203E8, 0xFFFFFF, 0x0, 0x0, 0x0, 0x0⟩ ]

/-- Registers, part 6: PTY_JRN_LOC_n to MND_STATUS. -/
def regTable6 : List RegRow :=
  [ ⟨0x190010, 0x4, 2, 0x4, 1, 0x0, 0x0, 0x3F3F7F, 0x0, 0x0, 0x0⟩,
    ⟨0x190018, 0x4, 2, 0x4, 1, 0x0, 0x0, 0xFFFFFFFF, 0x0, 0x0, 0x0⟩,
    ⟨0x190020, 0x4, 2, 0x4, 1, 0x400, 0x0, 0xFFFF, 0x0, 0x0, 0x0⟩,
    ⟨0x190028, 0x4, 2, 0x4, 1, 0x0, 0x0, 0x0, 0x0, 0x0, 0x0⟩,
    ⟨0x190030, 0x4, 1, 0x4, 1, 0x0, 0x0, 0x0, 0x0, 0x0, 0x0⟩,
    ⟨0x190034, 0x4, 1, 0x4, 1, 0x0, 0x0, 0x0, 0x0, 0x0, 0x0⟩,
    ⟨0x190038, 0x4, 1, 0x4, 1, 0x0, 0xF, 0x0, 0x0, 0x0, 0x80000000⟩,
    ⟨0x19003C, 0x4, 1, 0x4, 1, 0x0, 0x0, 0x0, 0x0, 0x0, 0x0⟩,
    ⟨0x190040, 0x4, 1, 0x4, 1, 0x0, 0x0, 0x0, 0x0, 0x0, 0x0⟩,
    ⟨0x190044, 0x4, 1, 0x4, 1, 0x0, 0x0, 0x0, 0x0, 0x80000000, 0x0⟩,
    ⟨0x190048, 0x4, 1, 0x4, 1, 0x0, 0x0, 0x0, 0x0, 0x1FF, 0x0⟩,
    ⟨0x190060, 0x4, 8, 0x4, 1, 0x0, 0x0, 0x0, 0x0, 0x0, 0x0⟩,
    ⟨0x190100, 0x4, 4, 0x4, 1, 0x0, 0x0, 0x0, 0x0, 0x0, 0x0⟩,
    ⟨0x1A0000, 0x4, 1, 0x4, 1, 0xA075F, 0xFF0CFF, 0x300, 0x0, 0x0, 0x0⟩,
    ⟨0x1A0004, 0x4, 1, 0x4, 1, 0x1F4, 0xFFFF, 0x0, 0x0, 0x0, 0x0⟩,
    ⟨0x1A0008, 0x4, 1, 0x4, 1, 0xBB8, 0xFFFF, 0x0, 0x0, 0x0, 0x0⟩,
    ⟨0x1A000C, 0x4, 1, 0x4, 1, 0x18021003, 0xFFFFFFFF, 0x0, 0x0, 0x0, 0x0⟩,
    ⟨0x1A0010, 0x4, 1, 0x4, 1, 0x0, 0x0, 0x0, 0x0, 0x0, 0x0⟩ ]

/-- Registers, part 7: MND_MEMBER_SEL to MND_EVT. -/
def regTable7 : List RegRow :=
  [ ⟨0x1A0014, 0x4, 1, 0x4, 1, 0x0, 0x3F7F, 0x0, 0x0, 0x0, 0x0⟩,
    ⟨0x1A0018, 0x4, 1, 0x4, 1, 0x0, 0x0, 0x0, 0x0, 0x0, 0x0⟩,
    ⟨0x1A001C, 0x4, 1, 0x4, 1, 0x0, 0x0, 0x0, 0x0, 0x0, 0x1⟩,
    ⟨0x1A0020, 0x4, 1, 0x4, 1, 0x0, 0xFF, 0x0, 0x0, 0x0, 0x0⟩,
    ⟨0x1A0024, 0x4, 1, 0x4, 1, 0x0, 0x0, 0x0, 0x0, 0x0, 0x0⟩,
    ⟨0x1A0028, 0x4, 1, 0x4, 1, 0x0, 0x0, 0x0, 0x0, 0x0, 0x0⟩,
    ⟨0x1A0030, 0x4, 1, 0x4, 1, 0x0, 0x0, 0x0, 0x0, 0x0, 0xF⟩,
    ⟨0x1A0034, 0x4, 1, 0x4, 1, 0x40000000, 0xFF1F1FFF, 0x0, 0x0, 0x0, 0x0⟩,
    ⟨0x1A0038, 0x4, 1, 0x4, 1, 0x0, 0x0, 0x0, 0x0, 0x0, 0x0⟩,
    ⟨0x1A003C, 0x4, 2, 0x4, 1, 0x0, 0x0, 0x0, 0x0, 0x0, 0x0⟩,
    ⟨0x1A0044, 0x4, 1, 0x4, 1, 0x28001E, 0xFF03FF, 0x0, 0x0, 0x0, 0x0⟩,
    ⟨0x1A0048, 0x4, 1, 0x4, 1, 0x0, 0x0, 0x0, 0x0, 0x0, 0x0⟩,
    ⟨0x1A004C, 0x4, 1, 0x4, 1, 0x28, 0xFF, 0x0, 0x0, 0x0, 0x0⟩,
    ⟨0x1A0050, 0x4, 1, 0x4, 1, 0x0, 0x0, 0x0, 0x0, 0x0, 0x0⟩,
    ⟨0x1A0054, 0x4, 1, 0x4, 1, 0x0, 0xFFFFFFFF, 0x0, 0x0, 0x0, 0x0⟩,
    ⟨0x1A0080, 0x4, 16, 0x4, 1, 0x0, 0x0, 0x0, 0x0, 0x0, 0x0⟩,
    ⟨0x1A0058, 0x4, 2, 0x4, 1, 0x0, 0x0, 0x0, 0x0, 0x0, 0x0⟩,
    ⟨0x1A0060, 0x4, 1, 0x4, 1, 0x0, 0x0, 0x0, 0x0, 0x1FFF, 0x0⟩ ]

/-- Registers, part 8: SHF_BUDGET to WHL_CYCLE_LO. -/
def regTable8 : List RegRow :=
  [ ⟨0x1B0000, 0x4, 1, 0x4, 1, 0xFFFFFF, 0x0, 0x0, 0xFFFFFF, 0x0, 0x0⟩,
    ⟨0x1B0004, 0x4, 1, 0x4, 1, 0x3C1E1078, 0xFFFFFFFF, 0x0, 0x0, 0x0, 0x0⟩,
    ⟨0x1B0008, 0x4, 1, 0x4, 1, 0xE100258, 0xFFFFFFFF, 0x0, 0x0, 0x0, 0x0⟩,
    ⟨0x1B000C, 0x4, 1, 0x4, 1, 0x1, 0x0, 0x1, 0x0, 0x0, 0x0⟩,
    ⟨0x1B0010, 0x4, 1, 0x4, 1, 0x0, 0x0, 0x0, 0x0, 0x0, 0x0⟩,
    ⟨0x1B0014, 0x4, 1, 0x4, 1, 0x0, 0x0, 0x0, 0x0, 0x0, 0x0⟩,
    ⟨0x1B0020, 0x4, 1, 0x4, 1, 0x0, 0x7F, 0x0, 0x0, 0x0, 0x0⟩,
    ⟨0x1B0024, 0x4, 1, 0x4, 1, 0x0, 0x0, 0x7F3, 0x0, 0x0, 0x0⟩,
    ⟨0x1B0028, 0x4, 1, 0x4, 1, 0x3E80384, 0xFFFFFFFF, 0x0, 0x0, 0x0, 0x0⟩,
    ⟨0x1B002C, 0x4, 1, 0x4, 1, 0x1202, 0xFFFF, 0x0, 0x0, 0x0, 0x0⟩,
    ⟨0x1B0030, 0x4, 1, 0x4, 1, 0x7D00960, 0xFFFFFFFF, 0x0, 0x0, 0x0, 0x0⟩,
    ⟨0x1B0034, 0x4, 1, 0x4, 1, 0x0, 0x0, 0x0, 0x0, 0x0, 0x0⟩,
    ⟨0x1B0100, 0x4, 16, 0x4, 1, 0x0, 0x0, 0x0, 0x0, 0x0, 0x0⟩,
    ⟨0x1B0140, 0x4, 8, 0x4, 1, 0x0, 0x0, 0xFFFF, 0x0, 0x0, 0x0⟩,
    ⟨0x1B0180, 0x4, 1, 0x4, 1, 0x0, 0x0, 0x0, 0x0, 0x3FFFFFF, 0x0⟩,
    ⟨0x1C0000, 0x4, 1, 0x4, 1, 0x11, 0x0, 0xFF3F, 0x0, 0x0, 0x0⟩,
    ⟨0x1C0004, 0x4, 1, 0x4, 1, 0x0, 0x0, 0x0, 0x0, 0x0, 0x0⟩,
    ⟨0x1C0008, 0x4, 1, 0x4, 1, 0x0, 0x0, 0x0, 0x0, 0x0, 0x0⟩ ]

/-- Registers, part 9: WHL_CYCLE_HI to TRP_ICL_STATUS. -/
def regTable9 : List RegRow :=
  [ ⟨0x1C000C, 0x4, 1, 0x4, 1, 0x0, 0x0, 0x0, 0x0, 0x0, 0x0⟩,
    ⟨0x1C0010, 0x4, 1, 0x4, 1, 0x0, 0x0, 0x0, 0x0, 0x0, 0x0⟩,
    ⟨0x1C0014, 0x4, 1, 0x4, 1, 0x0, 0x0, 0x0, 0x0, 0x0, 0x0⟩,
    ⟨0x1C0018, 0x4, 1, 0x4, 1, 0x0, 0x0, 0x0, 0x0, 0x0, 0x0⟩,
    ⟨0x1C001C, 0x4, 1, 0x4, 1, 0x0, 0xFF, 0x0, 0x0, 0x0, 0x0⟩,
    ⟨0x1C0020, 0x4, 1, 0x4, 1, 0x0, 0x0, 0x0, 0x0, 0x0, 0x0⟩,
    ⟨0x1C0024, 0x4, 1, 0x4, 1, 0x0, 0x0, 0x0, 0x0, 0x0, 0x0⟩,
    ⟨0x1C0028, 0x4, 1, 0x4, 1, 0x0, 0x0, 0x0, 0x0, 0x0, 0x0⟩,
    ⟨0x1C002C, 0x4, 1, 0x4, 1, 0x0, 0x0, 0x0, 0x0, 0x0, 0x0⟩,
    ⟨0x1C0030, 0x4, 1, 0x4, 1, 0x0, 0x0, 0x0, 0x0, 0xFF, 0x0⟩,
    ⟨0x1D0000, 0x4, 1, 0x4, 1, 0x640A24, 0xFF0006, 0xFF31, 0x0, 0x0, 0x0⟩,
    ⟨0x1D0004, 0x4, 1, 0x4, 1, 0x0, 0x0, 0x0, 0x0, 0x0, 0x0⟩,
    ⟨0x1D0008, 0x4, 1, 0x4, 1, 0x0, 0x0, 0x0, 0x0, 0x0, 0x0⟩,
    ⟨0x1D000C, 0x4, 1, 0x4, 1, 0x0, 0x2, 0x0, 0x0, 0x0, 0x5⟩,
    ⟨0x1D0010, 0x4, 1, 0x4, 1, 0x0, 0xFFFFFFFF, 0x0, 0x0, 0x0, 0x0⟩,
    ⟨0x1D0020, 0x4, 2, 0x4, 1, 0x0, 0x0, 0x0, 0x0, 0x0, 0x0⟩,
    ⟨0x1D0028, 0x4, 1, 0x4, 1, 0x0, 0x0, 0x0, 0x0, 0x0, 0x0⟩,
    ⟨0x1D0030, 0x4, 1, 0x4, 1, 0x0, 0x0, 0x0, 0x0, 0x0, 0x0⟩ ]

/-- Registers, part 10: TRP_RESYNC to MEM_STAGING. -/
def regTable10 : List RegRow :=
  [ ⟨0x1D0034, 0x4, 1, 0x4, 1, 0x0, 0x0, 0x0, 0x0, 0x0, 0x0⟩,
    ⟨0x1D0040, 0x4, 4, 0x4, 1, 0x0, 0x0, 0x0, 0x0, 0x0, 0x0⟩,
    ⟨0x1D0050, 0x4, 2, 0x4, 1, 0x0, 0x0, 0xFFFFFFFF, 0x0, 0x0, 0x0⟩,
    ⟨0x1D0058, 0x4, 2, 0x4, 1, 0x100, 0x0, 0xFFFF, 0x0, 0x0, 0x0⟩,
    ⟨0x1D0060, 0x4, 1, 0x4, 1, 0x0, 0x0, 0x0, 0x0, 0xFFFFF, 0x0⟩,
    ⟨0x1E0000, 0x4, 1, 0x4, 1, 0x2043, 0xFFF3, 0x0, 0x0, 0x0, 0x0⟩,
    ⟨0x1E0004, 0x4, 1, 0x4, 1, 0x0, 0x0, 0x0, 0x0, 0x0, 0x0⟩,
    ⟨0x1E0008, 0x4, 1, 0x4, 1, 0x0, 0xFFFF, 0x0, 0x0, 0x0, 0x0⟩,
    ⟨0x1E000C, 0x4, 1, 0x4, 1, 0x0, 0xF, 0x0, 0x0, 0x0, 0x80000000⟩,
    ⟨0x1E0010, 0x4, 1, 0x4, 1, 0x0, 0x0, 0x0, 0x0, 0x0, 0x0⟩,
    ⟨0x1E0014, 0x4, 1, 0x4, 1, 0x0, 0x0, 0x0, 0x0, 0x3, 0x0⟩,
    ⟨0x1E0040, 0x4, 16, 0x4, 1, 0x0, 0xFFFF, 0x0, 0x0, 0x0, 0x0⟩,
    ⟨0x1F0000, 0x4, 4, 0x4, 1, 0x0, 0x0, 0x0, 0x0, 0x0, 0x0⟩,
    ⟨0x1F0010, 0x4, 1, 0x4, 1, 0x0, 0x0, 0x0, 0x0, 0x0, 0x0⟩,
    ⟨0x1F0014, 0x4, 1, 0x4, 1, 0x1818, 0xFFFF, 0x0, 0x0, 0x0, 0x0⟩,
    ⟨0x1F0018, 0x4, 1, 0x4, 1, 0x0, 0xF, 0x0, 0x0, 0x0, 0x80000000⟩,
    ⟨0x1F001C, 0x4, 1, 0x4, 1, 0x0, 0x0, 0x0, 0x0, 0x0, 0x0⟩,
    ⟨0x1F0020, 0x4, 1, 0x4, 1, 0x0, 0x0, 0x0, 0x0, 0x0, 0x0⟩ ]

/-- Registers, part 11: MEM_LAST_ERR to PWR_CLK. -/
def regTable11 : List RegRow :=
  [ ⟨0x1F0024, 0x4, 1, 0x4, 1, 0x0, 0x0, 0x0, 0x0, 0x80000000, 0x0⟩,
    ⟨0x1F0028, 0x4, 1, 0x4, 1, 0x0, 0x0, 0x0, 0x0, 0x1FF, 0x0⟩,
    ⟨0x10000, 0x4, 1, 0x4, 1, 0x0, 0xFFFFFFFF, 0x0, 0x0, 0x0, 0x0⟩,
    ⟨0x10004, 0x4, 1, 0x4, 1, 0x0, 0xFFFF, 0x0, 0x0, 0x0, 0x0⟩,
    ⟨0x10008, 0x4, 1, 0x4, 1, 0x0, 0xFFFFFFFF, 0x0, 0x0, 0x0, 0x0⟩,
    ⟨0x1000C, 0x4, 1, 0x4, 1, 0x0, 0x8000FFFF, 0x0, 0x0, 0x0, 0x0⟩,
    ⟨0x10010, 0x4, 1, 0x4, 1, 0x3, 0x7, 0x0, 0x0, 0x0, 0x0⟩,
    ⟨0x10014, 0x4, 1, 0x4, 1, 0x1258, 0xFFFF, 0x0, 0x0, 0x0, 0x0⟩,
    ⟨0x10018, 0x4, 1, 0x4, 1, 0xF0, 0xFFF03FF, 0x0, 0x0, 0x0, 0x0⟩,
    ⟨0x1001C, 0x4, 1, 0x4, 1, 0x375A, 0xFFFFFF, 0x0, 0x0, 0x0, 0x0⟩,
    ⟨0x10020, 0x4, 1, 0x4, 1, 0x0, 0x0, 0x0, 0x0, 0x0, 0x0⟩,
    ⟨0x10024, 0x4, 1, 0x4, 1, 0x0, 0x0, 0x0, 0x0, 0x0, 0x0⟩,
    ⟨0x10028, 0x4, 1, 0x4, 1, 0x1D, 0x7F, 0x0, 0x0, 0x0, 0x0⟩,
    ⟨0x1002C, 0x4, 1, 0x4, 1, 0x0, 0x0, 0x0, 0x0, 0x0, 0x0⟩,
    ⟨0x10030, 0x4, 1, 0x4, 1, 0x0, 0x0, 0x0, 0x0, 0x0, 0x0⟩,
    ⟨0x20000, 0x4, 1, 0x4, 1, 0x0, 0x0, 0x0, 0x0, 0x0, 0x0⟩,
    ⟨0x20004, 0x4, 1, 0x4, 1, 0x64, 0xFFFF, 0x0, 0x0, 0x0, 0x0⟩,
    ⟨0x20008, 0x4, 1, 0x4, 1, 0x0, 0x0, 0x0, 0x0, 0x0, 0x10⟩ ]

/-- Registers, part 12: PWR_DOM_SEL to CAL_EVT. -/
def regTable12 : List RegRow :=
  [ ⟨0x2000C, 0x4, 1, 0x4, 1, 0x0, 0xFF, 0x0, 0x0, 0x0, 0x0⟩,
    ⟨0x20010, 0x4, 1, 0x4, 1, 0x0, 0x0, 0x0, 0x0, 0x0, 0x0⟩,
    ⟨0x20014, 0x4, 1, 0x4, 1, 0x0, 0x0, 0x0, 0x0, 0x0, 0x1⟩,
    ⟨0x20018, 0x4, 2, 0x4, 1, 0x0, 0x0, 0x0, 0x0, 0xFFFFFFFF, 0x0⟩,
    ⟨0x20020, 0x4, 1, 0x4, 1, 0x0, 0x0, 0x0, 0x0, 0xFF, 0x0⟩,
    ⟨0x20040, 0x4, 1, 0x4, 1, 0x5000000, 0xFF000000, 0x0, 0x0, 0x0, 0x0⟩,
    ⟨0x20044, 0x4, 1, 0x4, 1, 0x0, 0x0, 0x0, 0x0, 0x0, 0x0⟩,
    ⟨0x30000, 0x4, 1, 0x4, 1, 0x6, 0x6, 0x0, 0x0, 0x0, 0x1⟩,
    ⟨0x30004, 0x4, 1, 0x4, 1, 0x0, 0x1FF, 0x0, 0x0, 0x0, 0x0⟩,
    ⟨0x30008, 0x4, 1, 0x4, 1, 0x0, 0xFFFFFFFF, 0x0, 0x0, 0x0, 0x0⟩,
    ⟨0x3000C, 0x4, 1, 0x4, 1, 0x400F, 0xFFFFFF, 0x0, 0x0, 0x0, 0x0⟩,
    ⟨0x30010, 0x4, 6, 0x4, 1, 0x0, 0x0, 0x0, 0x0, 0x0, 0x0⟩,
    ⟨0x30028, 0x4, 1, 0x4, 1, 0x147D0000, 0xFFFF0000, 0xFFFF, 0x0, 0x0, 0x0⟩,
    ⟨0x3002C, 0x4, 1, 0x4, 1, 0xC80000, 0x3FF03FF, 0x0, 0x0, 0x0, 0x0⟩,
    ⟨0x30030, 0x4, 1, 0x4, 1, 0x0, 0x0, 0x0, 0x0, 0x0, 0x0⟩,
    ⟨0x30034, 0x4, 1, 0x4, 1, 0x0, 0x0, 0x0, 0x0, 0x0, 0x0⟩,
    ⟨0x30038, 0x4, 1, 0x4, 1, 0x0, 0x0, 0x0, 0x0, 0x0, 0x0⟩,
    ⟨0x3003C, 0x4, 1, 0x4, 1, 0x0, 0x0, 0x0, 0x0, 0x1FFF, 0x0⟩ ]

/-- Registers, part 13: BRK_SRC_SEL to ATC_SET_SEL. -/
def regTable13 : List RegRow :=
  [ ⟨0x40000, 0x4, 1, 0x4, 1, 0x0, 0x7FF, 0x0, 0x0, 0x0, 0x0⟩,
    ⟨0x40004, 0x4, 1, 0x4, 1, 0x1F08, 0x1F1F1F, 0x0, 0x0, 0x0, 0x0⟩,
    ⟨0x40008, 0x4, 1, 0x4, 1, 0x0, 0x0, 0x0, 0x0, 0x0, 0x0⟩,
    ⟨0x4000C, 0x4, 1, 0x4, 1, 0x0, 0x0, 0x0, 0x0, 0x0, 0x7FF⟩,
    ⟨0x40010, 0x4, 1, 0x4, 1, 0x0, 0x0, 0x0, 0x0, 0x40000, 0x0⟩,
    ⟨0x40040, 0x4, 16, 0x4, 1, 0x8, 0xF, 0x0, 0x0, 0x0, 0x0⟩,
    ⟨0x40080, 0x4, 16, 0x4, 1, 0x0, 0x0, 0x0, 0x0, 0x0, 0x0⟩,
    ⟨0x400C0, 0x4, 16, 0x4, 1, 0x0, 0x0, 0x0, 0x0, 0x0, 0x7FF⟩,
    ⟨0x40100, 0x4, 36, 0x4, 1, 0x0, 0x0, 0x0, 0x0, 0xFFFFFFFF, 0x0⟩,
    ⟨0x40200, 0x4, 1, 0x4, 1, 0x1, 0xFFFF000F, 0x0, 0x0, 0x0, 0x0⟩,
    ⟨0x40204, 0x4, 1, 0x4, 1, 0x0, 0x1FFFFF, 0x0, 0x0, 0x0, 0x0⟩,
    ⟨0x40208, 0x4, 1, 0x4, 1, 0x0, 0x0, 0x0, 0x0, 0x0, 0x0⟩,
    ⟨0x50000, 0x4, 1, 0x4, 1, 0x0, 0x0, 0x0, 0x0, 0x0, 0x0⟩,
    ⟨0x50004, 0x4, 1, 0x4, 1, 0x0, 0x0, 0x0, 0x0, 0x0, 0x0⟩,
    ⟨0x50008, 0x4, 1, 0x4, 1, 0x0, 0x0, 0x0, 0x0, 0x0, 0x0⟩,
    ⟨0x50010, 0x4, 4, 0x4, 1, 0x0, 0x0, 0x0, 0x0, 0x0, 0x0⟩,
    ⟨0x50020, 0x4, 1, 0x4, 1, 0x0, 0x3FFF, 0x0, 0x0, 0x0, 0x0⟩,
    ⟨0x50024, 0x4, 1, 0x4, 1, 0x1, 0x1F, 0x0, 0x0, 0x0, 0x0⟩ ]

/-- Registers, part 14: ATC_SET_CTRL to FWU_ATT_IDX_LO. -/
def regTable14 : List RegRow :=
  [ ⟨0x50028, 0x4, 1, 0x4, 1, 0x0, 0x1F00, 0x0, 0x0, 0x0, 0x1⟩,
    ⟨0x50040, 0x4, 16, 0x4, 1, 0x0, 0xFFFFFC, 0x0, 0x0, 0x0, 0x0⟩,
    ⟨0x50080, 0x4, 32, 0x4, 1, 0x0, 0x0, 0x0, 0x0, 0x0, 0x0⟩,
    ⟨0x50100, 0x4, 1, 0x4, 1, 0x0, 0x0, 0x0, 0x0, 0x1FF, 0x0⟩,
    ⟨0x10, 0x4, 1, 0x4, 1, 0x0, 0x0, 0x0, 0x0, 0x0, 0x1⟩,
    ⟨0x14, 0x4, 1, 0x4, 1, 0x0, 0x0, 0x0, 0x0, 0x0, 0x0⟩,
    ⟨0x1000, 0x4, 1024, 0x4, 1, 0x0, 0x0, 0x0, 0x0, 0x0, 0x0⟩,
    ⟨0x200000, 0x4, 1, 0x4, 1, 0x0, 0x0, 0x0, 0x0, 0x400, 0x0⟩,
    ⟨0x200004, 0x4, 1, 0x4, 1, 0x0, 0x30, 0x0, 0x0, 0x0, 0xF⟩,
    ⟨0x200008, 0x4, 1, 0x4, 1, 0x38412C2, 0xFFFFFF3, 0x0, 0x0, 0x0, 0x0⟩,
    ⟨0x20000C, 0x4, 1, 0x4, 1, 0x0, 0x0, 0x0, 0x0, 0x0, 0x0⟩,
    ⟨0x200010, 0x4, 1, 0x4, 1, 0x0, 0x0, 0x0, 0x0, 0x0, 0x0⟩,
    ⟨0x200014, 0x4, 1, 0x4, 1, 0x0, 0x0, 0x0, 0x0, 0x0, 0x0⟩,
    ⟨0x200018, 0x4, 1, 0x4, 1, 0x0, 0x0, 0x0, 0x0, 0x0, 0x0⟩,
    ⟨0x200020, 0x4, 1, 0x4, 1, 0x0, 0x0, 0x0, 0x0, 0x0, 0x1⟩,
    ⟨0x200024, 0x4, 1, 0x4, 1, 0x0, 0xFFFFFFFF, 0x0, 0x0, 0x0, 0x0⟩,
    ⟨0x200028, 0x4, 1, 0x4, 1, 0x0, 0xFFFF, 0x0, 0x0, 0x0, 0x0⟩,
    ⟨0x20002C, 0x4, 1, 0x4, 1, 0x0, 0x0, 0x0, 0x0, 0x0, 0x0⟩ ]

/-- Registers, part 15: FWU_ATT_IDX_HI to PWR_THERM. -/
def regTable15 : List RegRow :=
  [ ⟨0x200030, 0x4, 1, 0x4, 1, 0x0, 0x0, 0x0, 0x0, 0x0, 0x0⟩,
    ⟨0x200034, 0x4, 1, 0x4, 1, 0x0, 0x0, 0x0, 0x0, 0x7FFF, 0x0⟩,
    ⟨0x200040, 0x4, 8, 0x4, 1, 0x0, 0xFFFFFFFF, 0x0, 0x0, 0x0, 0x0⟩,
    ⟨0x200060, 0x4, 8, 0x4, 1, 0x0, 0xFFFFFFFF, 0x0, 0x0, 0x0, 0x0⟩,
    ⟨0x200080, 0x4, 17, 0x4, 1, 0x0, 0x0, 0x0, 0x0, 0x0, 0x0⟩,
    ⟨0x20048, 0x4, 1, 0x4, 1, 0x0, 0x0, 0x0, 0x0, 0x4000, 0x0⟩ ]

/-- Every register of the control space. -/
def regTable : List RegRow :=
  regTable1 ++
  regTable2 ++
  regTable3 ++
  regTable4 ++
  regTable5 ++
  regTable6 ++
  regTable7 ++
  regTable8 ++
  regTable9 ++
  regTable10 ++
  regTable11 ++
  regTable12 ++
  regTable13 ++
  regTable14 ++
  regTable15

/-! ## Lookup -/

/-- Does address `a` name a register of the row? -/
def RegRow.holds (r : RegRow) (a : Nat) : Bool :=
  decide (r.addr ≤ a) &&
    (let d := a - r.addr
     decide (d / r.stride < r.count) && decide (d % r.stride / r.stride2 < r.count2) && d % r.stride % r.stride2 == 0)

/-- The row of an address; none where the address holds no register (R8). -/
def regRow (a : Nat) : Option RegRow := regTable.find? (·.holds a)

/-- The key of a register in `Head.regs`: its address, with the selected entry above bit 32 for a register that shows one
entry of a table. -/
def bankKey (i a : Nat) : Nat := a + 0x100000000 * i

/-- Default PRIO of a Barker source (R322). -/
def srcPrio (s : Nat) : Nat :=
  if [566, 567, 608, 609, 747, 789, 804, 811, 864, 993].contains s then 7
  else if [435, 561, 614, 620, 742, 746, 814, 992].contains s then 6
  else if s = 1001 then 0
  else if s < 288 then 3 else if s < 416 then 2 else if s < 544 then 3 else if s < 608 then 4
  else if s < 672 then 5 else if s < 736 then 3 else if s < 800 then 3 else if s < 864 then 4
  else if s < 928 then 5 else if s < 992 then 2 else if s < 1056 then 4 else 1

/-- Default ALERT of a Barker source (R322). -/
def srcAlert (s : Nat) : Bool :=
  [566, 567, 608, 609, 747, 789, 804, 811, 864, 993, 435, 561, 614, 620, 742, 746, 814, 992].contains s

/-- Default WINDOW_H, THRESH and LOG of a fault class (R316), as BRK_FLT_CFG lays them out. -/
def faultDefault (c : Nat) : Nat :=
  let f (w t l : Nat) := w + 0x10000 * t + 0x100000 * l
  match c with
  | 0x1 => f 24 3 0 | 0x2 => f 1 4 1 | 0x3 => f 24 3 0 | 0x4 => f 24 6 1 | 0x5 => f 1 8 0 | 0x6 => f 1 8 0
  | 0x8 => f 24 2 0 | 0x9 => f 24 3 0 | 0xA => f 24 3 0 | 0xB => f 24 8 1 | 0xC => f 24 2 0
  | _ => 0

/-- Default way masks of the Pantry's requester classes (R269). -/
def wayDefault (c : Nat) : Nat :=
  match c with
  | 0 => 0x000F | 1 => 0x0010 | 2 => 0x0020 | 3 => 0x0FC0 | 4 => 0x3000 | 5 => 0x4000 | 6 => 0x8000 | 7 => 0x0FC0
  | _ => 0x0000

/-- The reset value of the writable fields of a register (R7). -/
def regReset (key : Nat) : Word :=
  let a := key % 0x100000000
  let i := key / 0x100000000
  if a = Adr.BRK_SRC_CFG then
    BitVec.ofNat 32 (srcPrio i + 0x8 + 0x10 * flag (srcAlert i) + 0x1F00)
  else if a = Adr.BRK_FLT_CFG then BitVec.ofNat 32 (faultDefault i)
  else if 0x1E0040 ≤ a ∧ a < 0x1E0080 then BitVec.ofNat 32 (wayDefault ((a - 0x1E0040) / 4))
  else ((regRow a).map (·.reset)).getD 0

/-- Put an entry into a table with rising keys; an entry equal to the reset value is left out. -/
def regInsert (k : Nat) (w reset : Word) : List (Nat × Word) → List (Nat × Word)
  | [] => if w = reset then [] else [(k, w)]
  | (k', w') :: l =>
    if k < k' then (if w = reset then (k', w') :: l else (k, w) :: (k', w') :: l)
    else if k = k' then (if w = reset then l else (k, w) :: l)
    else (k', w') :: regInsert k w reset l

/-- The value of a register's writable fields. -/
def Head.reg (h : Head) (key : Nat) : Word := (h.regs.lookup key).getD (regReset key)

/-- Set a register's writable fields: its old entry goes, the new one is put in its place. -/
def Head.setReg (h : Head) (key : Nat) (w : Word) : Head :=
  { h with regs := regInsert key w (regReset key) (h.regs.filter fun x => x.1 != key) }

/-- Field [hi:lo] of a register. -/
def Head.fld (h : Head) (key hi lo : Nat) : Nat := bits hi lo (h.reg key).toNat

/-- Bit `i` of a register. -/
def Head.bit (h : Head) (key i : Nat) : Bool := (h.reg key).getLsbD i

/-- Set bits of a register: what the hardware does to a W1C condition. -/
def Head.orReg (h : Head) (key : Nat) (mask : Word) : Head := h.setReg key (h.reg key ||| mask)

/-- Clear bits of a register. -/
def Head.clearReg (h : Head) (key : Nat) (mask : Word) : Head := h.setReg key (h.reg key &&& ~~~mask)

/-- Set field [hi:lo] of a register. -/
def Head.setFld (h : Head) (key hi lo v : Nat) : Head :=
  let w := (h.reg key).toNat
  h.setReg key (BitVec.ofNat 32 (w % 2 ^ lo + 2 ^ lo * (v % 2 ^ (hi + 1 - lo)) + 2 ^ (hi + 1) * (w / 2 ^ (hi + 1))))

/-- The key of a selected entry: shelf registers by SHF_SEL, source configuration by BRK_SRC_SEL, fault windows by
BRK_FLT_SEL.CLASS, snapshot addresses by ATC_SET_SEL; a register without selection is its address. -/
def Head.keyOf (h : Head) (a : Nat) : Nat :=
  if 0x1B0024 ≤ a ∧ a < 0x1B0034 then bankKey (h.fld Adr.SHF_SEL 6 0) a
  else if a = Adr.BRK_SRC_CFG then bankKey (h.fld Adr.BRK_SRC_SEL 10 0) a
  else if a = Adr.BRK_FLT_CFG then bankKey (h.fld Adr.BRK_FLT_SEL 3 0) a
  else if 0x50040 ≤ a ∧ a < 0x50080 then bankKey (h.fld Adr.ATC_SET_SEL 4 0) a
  else a

end Sys2Proof.Machine
end

