-- ==== Sys2Proof/Machine/Flags.lean ====
section
/-!
DEFINITION. What the control-space registers show: the read-only fields of every register, computed from the state
(00_scope.md R7 and the register tables of each chapter), and the value a read returns.
-/

namespace Sys2Proof.Machine

open Sys2Proof

/-! ## Grade (R1) -/

def Head.gradeX (h : Head) : Bool := h.fuse.grade == 3
/-- Rings enabled by fuse: RING_MASK. -/
def Head.ringMask (h : Head) : Nat := if h.fuse.grade = 1 then 0x3 else 0xF
def Head.keySlots (h : Head) : Nat := match h.fuse.grade with | 1 => 0x20 | 2 => 0x40 | _ => 0x80
def Head.boothsActive (h : Head) : Nat := if h.fuse.grade = 1 then 0x10 else 0x20
def Head.hbmStacks (h : Head) : Nat := if h.fuse.grade = 1 then 2 else 4
/-- Booth sites present: 0 to 17 on the S grade. -/
def Head.sitesPresent (h : Head) : Nat := if h.fuse.grade = 1 then 18 else 36
/-- HBM capacity: 36 GiB a stack. -/
def Head.hbmMib (h : Head) : Nat := h.hbmStacks * 36 * 1024

def glbView (h : Head) (a : Nat) : Nat :=
  if a = Adr.GLB_IDENT then
    0x64000000 + h.fuse.grade * 0x10000 + h.fuse.stepping.toNat * 0x100 + flag h.gradeX * 0x80
  else if a = Adr.GLB_RESOURCES then
    h.keySlots + h.boothsActive * 0x100 + h.hbmStacks * 0x10000 + h.ringMask * 0x100000
  else if a = Adr.GLB_PARADE_SEQ then h.paradeSeq
  else if 0x1000 ≤ a ∧ a < 0x2000 then leAt (a - 0x1000) 4 h.parade
  else 0

/-! ## Thiez loader -/

def tsiView (h : Head) (a : Nat) : Nat :=
  let t := h.tsi
  if a = Adr.TSI_STATUS then
    t.state + t.abortReason * 0x100 + flag ((t.staging.map (·.kind)).getD 0 == 1) * 0x400
  else if a = Adr.TSI_CHECK then t.check.1 + t.check.2.1 * 0x100 + t.check.2.2 * 0x10000
  else if a = Adr.TSI_ACTIVE_ID then (t.active.map (·.imageId)).getD 0
  else if a = Adr.TSI_APPLIED_BEAT then t.appliedBeat
  else if a = Adr.TSI_SHADOW_ADDR then
    flag (t.staged.any (·.1 == h.fld Adr.TSI_SHADOW_ADDR 23 2 * 4))
  else if a = Adr.TSI_RETIRE_COUNT then
    let n (k : Nat) := (t.retired.filter (·.kind == k)).length
    n 1 + n 2 * 0x100 + n 3 * 0x10000
  else if 0x60040 ≤ a ∧ a < 0x60060 then leAt (a - 0x60040) 4 t.digest
  else 0

/-! ## Host queues -/

def Hqe.fenceWait (q : Hqe) : Nat := (q.ctxs.filter (·.phase == .fence)).length
def Hqe.frozen (q : Hqe) : Nat := (q.qpairs.filter (·.frozen.isSome)).length

def hqeView (h : Head) (a : Nat) : Nat :=
  let q := h.hqe
  if a = Adr.HQE_USE then q.qpairs.length + q.ctxs.length * 0x10000
  else if a = Adr.HQE_PEAK then q.peakCtrls + q.peakCtxs * 0x10000
  else if a = Adr.HQE_FROZEN then q.frozen + q.fenceWait * 0x10000
  else 0

/-! ## Dedup and compression -/

/-- Tags held in a Larder generation. -/
def Ldr.genOcc (l : Ldr) (g : Nat) : Nat := ((l.larder.filter fun b => b.1 / 3145728 == g).map (·.2.length)).sum
/-- Tags held in the far filter. -/
def Ldr.farOcc (l : Ldr) : Nat := (l.far.map (·.2.length)).sum

/-- A statistics counter of 64 bits; counter 0xB carries the unreadable pages in bits [63:48] (R103). -/
def Ldr.counter (l : Ldr) (sel : Nat) : Nat :=
  if sel = 0xB then l.cnt.getD sel 0 % 2 ^ 48 + 2 ^ 48 * (l.unreadable % 2 ^ 16) else l.cnt.getD sel 0 % 2 ^ 64

def ldrView (h : Head) (a : Nat) : Nat :=
  let l := h.ldr
  let c := l.counter (h.fld Adr.LDR_CNT_SEL 3 0)
  if a = Adr.LDR_STATUS then
    l.curGen + flag l.clearing.isSome * 4 + l.banksLost * 0x100 + flag l.farReady * 0x10000
  else if 0x140010 ≤ a ∧ a < 0x140020 then l.genOcc ((a - 0x140010) / 4)
  else if a = Adr.LDR_FAR_OCC then l.farOcc / 256
  else if a = Adr.LDR_STASH then l.stash.length
  else if a = Adr.LDR_CNT_LO then c % 2 ^ 32
  else if a = Adr.LDR_CNT_HI then c / 2 ^ 32
  else if a = Adr.LDR_PENDING then l.pending.length
  else 0

/-- The Z engine of a site; an idle one where nothing is listed. -/
def Dp.booth (d : Dp) (site : Nat) : Booth := (d.booths.find? (·.site == site)).getD { site := site }

/-- The stream that holds a site's Z engine. -/
def Booth.holding (b : Booth) : Option ZStream := b.streams.find? (fun s => some s.sid == b.holder)

def cmpView (h : Head) (a : Nat) : Nat :=
  let j := h.cmp.job
  if a = Adr.CMP_SPILL_USE then
    ((h.dp.booths.map fun b => (b.streams.filter (·.place == 1)).length)).sum +
      (h.cmp.segs.filter (·.history)).length * 0x1000000
  else if a = Adr.CMP_JOB_STATUS then j.state + flag j.checked * 8 + j.code * 0x100
  else if a = Adr.CMP_JOB_OUT then j.out
  else if a = Adr.CMP_JOB_IN then j.inp
  else if a = Adr.CMP_STAT then h.cmp.stat.getD (h.fld Adr.CMP_STAT_SEL 3 0) 0
  else if 0x150040 ≤ a ∧ a < 0x15006C then h.cmp.decErr.getD ((a - 0x150040) / 4) 0
  else 0

/-- Registers of booth site `n` at offset `o` (R104 to R119, R137, R148). -/
def bthView (h : Head) (n o : Nat) : Nat :=
  let b := h.dp.booth n
  let tasks := (h.dp.tasks.filter (·.site == n)).length
  let resident := (b.streams.filter (·.place == 0)).length
  if o = 0x100 then
    resident + (b.streams.filter fun s => decide (s.units ≠ []) && some s.sid != b.holder).length * 0x100 +
      flag b.holder.isSome * 0x10000 + flag b.stalled * 0x20000 +
      flag ((b.holding.map fun s => decide (3 ≤ s.kind ∧ s.kind ≤ 5)).getD false) * 0x40000
  else if o = 0x104 then b.lastErr + b.lastErrDomain * 0x100
  else if o = 0x200 then min 64 (resident + tasks)
  else if o = 0x204 then sat32 b.tagFail
  else if o = 0x300 then min 64 (resident + tasks)
  else if o = 0x304 then sat32 b.mismatch
  else 0

/-! ## Cipher, Strongroom, digest -/

def Stg.slot (s : Stg) (n : Nat) : Slot := (s.slots.find? (·.slot == n)).getD { slot := n }
/-- Domain key map entry: (WRITE_SLOT, NEXT_SLOT). -/
def Stg.entry (s : Stg) (d : Nat) : Nat × Nat := ((s.map.find? (·.1 == d)).map (·.2)).getD (0xFF, 0xFF)

/-- The DOMAIN entry in force for a domain. -/
def Head.domain (h : Head) (d : Nat) : Option DomainEnt := (h.tsi.sections.domain.getD []).find? (·.id == d)

def cphView (h : Head) (a : Nat) : Nat :=
  let (site, kind, dom, slot) := h.cph.lastFail
  if a = Adr.CPH_STAT then h.cph.stat.getD (h.fld Adr.CPH_STAT_SEL 3 0) 0
  else if a = Adr.CPH_LAST_FAIL then site % 64 + kind * 0x40 + dom * 0x100 + slot * 0x100000
  else 0

def stgView (h : Head) (a : Nat) : Nat :=
  let s := h.stg
  let sl := s.slot (h.fld Adr.STG_SLOT_SEL 7 0)
  let d := h.fld Adr.STG_DOM_SEL 11 0
  if a = Adr.STG_STATUS then
    flag s.owner.isSome + flag s.unsealed * 2 + flag s.alarmLatch * 4 + flag s.ownerLock * 8 + s.sanPhase * 0x10 +
      flag s.armedUntil.isSome * 0x40 + (s.slots.filter (·.state == 2)).length * 0x100 + s.sanGen % 2 ^ 16 * 0x10000
  else if a = Adr.STG_TOKEN_CMD then s.result * 0x100
  else if a = Adr.STG_SLOT_INFO then sl.state + flag sl.warn * 4 + sl.epoch % 2 ^ 24 * 0x100
  else if a = Adr.STG_SLOT_CTR 0 then sl.c % 2 ^ 32
  else if a = Adr.STG_SLOT_CTR 1 then sl.c / 2 ^ 32
  else if a = Adr.STG_SLOT_WM 0 then sl.w % 2 ^ 32
  else if a = Adr.STG_SLOT_WM 1 then sl.w / 2 ^ 32
  else if a = Adr.STG_DOM_KEY then
    (s.entry d).1 + (s.entry d).2 * 0x100 +
      flag (((h.domain d).map fun e => s.salts.any (·.1 == e.saltIndex)).getD false) * 0x10000
  else if a = Adr.STG_ALARM then s.tripping.toNat * 0x100
  else 0

def Dgt.chan (d : Dgt) (n : Nat) : Chan := (d.chans.find? (·.ch == n)).getD { ch := n }

def dgtView (h : Head) (a : Nat) : Nat :=
  let n := if 0x171000 ≤ a then (a - 0x171000) / 0x100 else (a - 0x170100) / 0x100
  let o := a % 0x100
  let c := h.dgt.chan n
  if 0x171000 ≤ a ∧ a < 0x171400 then leAt o 4 c.window
  else if 0x170100 ≤ a ∧ a < 0x170500 then
    if o = 0x24 then c.state + flag c.mtch * 8 + c.code * 0x10 + c.owner * 0x10000
    else if o = 0x28 then c.verdict.toNat
    else if o = 0x2C then c.verdictInv.toNat
    else if 0x40 ≤ o ∧ o < 0x80 then (if c.state = 4 then leAt (o - 0x40) 4 c.digest else 0)
    else 0
  else 0

/-! ## Stripes and Mend -/

/-- Bytes of a journal entry: a 96-byte header and 4,112 bytes for each payload block (R179). -/
def Jrn.bytes (j : Jrn) : Nat := 96 + 4112 * j.payload.length

def troupeBit (t : Troupe) : Nat := match t with | .a => 0 | .b => 1
def ofBit (n : Nat) : Troupe := if n = 0 then .a else .b

/-- Bytes of a troupe's journal area in use. -/
def Pty.jrnUsed (p : Pty) (t : Troupe) : Nat := ((p.journal.filter (·.troupe == t)).map Jrn.bytes).sum

/-- Stripes and rows launched and not yet committed or voided. -/
def Pty.inFlight (p : Pty) : Nat :=
  (p.stripes.filter fun s => s.phase == .flying || s.phase == .reported).length + (p.rows.filter (decide <| 4 ≤ ·.step)).length

/-- Completion records the Turnstile holds: reported operations of bundles that have not ended (R183). -/
def Pty.held (p : Pty) : List (Bundle × BackOp) :=
  p.bundles.flatMap fun b => (b.ops.filter (·.status.isSome)).map fun o => (b, o)

/-- KIND of a completion record (R185). -/
def Bundle.kindCode (b : Bundle) (o : BackOp) : Nat :=
  if o.member = 0xFE then 2
  else if (match b.kind with | .rebuildUnit _ => true | _ => false) && decide (o.member < 0x40) then 1
  else match b.kind with
    | .finish _ => 5
    | .rowRead _ _ | .chunkRead _ | .rebuildRead _ | .pageRead _ _ | .scrub _ | .relocRead _ _ _ => 1
    | .rowJournal _ _ | .journal _ => 2
    | _ => 0

/-- A completion record, 32 bytes (R185); ARRIVAL counts the 2.0 GHz datapath clock. -/
def tstlRecord (b : Bundle) (o : BackOp) (port : Nat) : Bytes :=
  leBytes 4 ((b.launched.map (·.1)).getD 0) ++ leBytes 1 ((b.launched.map (·.2.1)).getD 0) ++ leBytes 1 (if 0x40 ≤ o.member ∧ o.member < 0x80 then o.member - 0x40 else o.member) ++
    leBytes 1 (b.kindCode o) ++ leBytes 1 port ++ leBytes 6 b.stripe ++ leBytes 2 b.row ++ leBytes 2 (o.status.getD 0 % 2048 * flag (o.status != some 0xFFFF)) ++
    leBytes 2 (flag (o.tagRows != []) + flag (o.status == some 0xFFFF) * 2) ++ leBytes 4 o.op ++ leBytes 4 (o.arrived * 2000) ++ leBytes 4 0

def ptyView (h : Head) (a : Nat) : Nat :=
  let p := h.pty
  let c := p.cnt.getD (h.fld Adr.PTY_CNT_SEL 3 0) 0 % 2 ^ 64
  let use (t : Troupe) :=
    let (ca, cb, cc) := p.copies.getD (troupeBit t) (false, false, false)
    ceilDiv (p.jrnUsed t) 0x100000 + flag ca * 0x10000 + flag cb * 0x20000 + flag cc * 0x40000
  let (point, site, shelf, mdl) := p.lastFail
  if a = Adr.PTY_JRN_USE 0 then use .a
  else if a = Adr.PTY_JRN_USE 1 then use .b
  else if a = Adr.PTY_TSTL then min 0xFFFF p.held.length + min 0xFFFF p.peak * 0x10000
  else if a = Adr.PTY_OPEN then
    (p.stripes.filter (·.phase == .opened)).length + p.inFlight * 0x10000
  else if a = Adr.PTY_CNT_LO then c % 2 ^ 32
  else if a = Adr.PTY_CNT_HI then c / 2 ^ 32
  else if a = Adr.PTY_LAST_FAIL then point + site % 64 * 0x10 + shelf % 128 * 0x400 + mdl % 64 * 0x20000
  else if 0x190060 ≤ a ∧ a < 0x190080 then
    match p.held with
    | [] => 0
    | (b, o) :: _ => leAt (a - 0x190060) 4 (tstlRecord b o (h.fld (bankKey b.shelf Adr.SHF_SHELF_CFG) 7 4))
  else if 0x190100 ≤ a ∧ a < 0x190110 then
    let n := (a - 0x190100) / 4
    let own := p.stripes.filter fun s => s.ring == n && (s.phase == .opened || s.phase == .waiting || s.phase == .flying || s.phase == .reported)
    own.length + flag (h.dp.tasks.any fun t => t.source == 3 && t.site / 9 == n) * 0x10000 +
      flag (p.rows.any fun r => r.locked && r.stripe % 4 == n) * 0x20000
  else 0

/-- A module of the state table (R187). -/
def Mnd.mdl (m : Mnd) (s n : Nat) : Module := (m.modules.find? fun x => x.shelf == s && x.mdl == n).getD { shelf := s, mdl := n }

/-- Seconds of the operating-hours counter: it advances with the core rails up (R298), from `opAt`. -/
def Head.opNow (h : Head) : Nat := (h.cel.opSec + (if h.fwu.running then (h.now - h.cel.opAt) / 1000000 else 0)) % 2 ^ 40

/-- Counts of a window of `w` hours that ends now. -/
def Head.inWindow (h : Head) (w : Nat) (l : List Nat) : List Nat := l.filter fun t => decide (h.opNow < t + orIfZero 1 w * 3600)

/-- Units done of a rebuild, in percent. -/
def Rebuild.pct (r : Rebuild) : Nat :=
  if r.moved + r.todo.length = 0 then 100 else r.moved * 100 / (r.moved + r.todo.length)

def Head.rsh (h : Head) : Reshape := h.mnd.reshape

/-- INTERVAL_D: 1 to 365; other values act as 30. -/
def Head.patrolDays (h : Head) : Nat :=
  let d := h.fld Adr.MND_PATROL 9 0
  if 1 ≤ d ∧ d ≤ 365 then d else 30

/-- Hours until shelf `s` is due for patrol: 0 when overdue (R212). -/
def Head.patrolHours (h : Head) (s : Nat) : Nat :=
  let last := assocGet s 0 h.mnd.lastPatrol
  let due := last + h.patrolDays * 86400
  (due - h.opNow) / 3600

/-- Shelves that are configured: ENABLE set. -/
def Head.shelfOn (h : Head) (s : Nat) : Bool := h.bit (bankKey s Adr.SHF_SHELF_CFG) 0
def Head.landing (h : Head) (s : Nat) : Bool := h.shelfOn s && h.bit (bankKey s Adr.SHF_SHELF_CFG) 1
/-- Back-end port of a shelf. -/
def Head.shelfPort (h : Head) (s : Nat) : Nat := h.fld (bankKey s Adr.SHF_SHELF_CFG) 7 4
def Head.shelvesOn (h : Head) : List Nat := (List.range 128).filter h.shelfOn

/-- The shelf with fewest hours left, lowest number first. -/
def Head.patrolNext (h : Head) : Nat × Nat :=
  (h.shelvesOn.foldl (fun (best : Option (Nat × Nat)) s =>
    let n := h.patrolHours s
    match best with
    | some (b, m) => if n < m then some (s, n) else some (b, m)
    | none => some (s, n)) none).getD (0, 0)

/-- Modules of journal copies A and B in effect (R201): those of the record, else the configured ones. -/
def Head.journalPair (h : Head) (n : Nat) : Nat × Nat :=
  let (a, b, _) := h.mnd.jrnEff.getD n (0, 0, none)
  let r := Adr.PTY_JRN_LOC n
  if a = 0 ∧ b = 0 then (h.fld r 13 8, h.fld r 21 16) else (a, b)

def mndView (h : Head) (a : Nat) : Nat :=
  let m := h.mnd
  let w := h.fld Adr.MND_FAIL_THRESH 31 24
  let sel := m.mdl (h.fld Adr.MND_MEMBER_SEL 6 0) (h.fld Adr.MND_MEMBER_SEL 13 8)
  let live := m.rebuilds.filter (·.spareKind != 3)
  let r := live[h.fld Adr.MND_REB_SEL 7 0]?
  let eff (n : Nat) := (h.journalPair n).1 + (h.journalPair n).2 * 0x100 + flag (m.jrnEff.getD n (0, 0, none)).2.2.isSome * 0x4000
  if a = Adr.MND_STATUS then
    min 255 live.length + flag (!m.exposed.isEmpty) * 0x100 + flag m.reduced * 0x200 + flag (!m.patrol.isEmpty) * 0x400 +
      flag (m.rebuilds.any (·.spareKind == 3)) * 0x800
  else if a = Adr.MND_MEMBER_INFO then
    let n (l : List Nat) := min 255 (h.inWindow w l).length
    sel.state + flag sel.spare * 8 + n sel.late * 0x100 + n sel.media * 0x10000 + n sel.program * 0x1000000
  else if a = Adr.MND_REB_INFO then
    match r with
    | none => 0
    | some r => r.shelf + flag r.copyOut * 0x80 + r.mdl * 0x100 + r.spareKind * 0x4000 +
        r.m * 0x10000 + r.pct * 0x1000000
  else if a = Adr.MND_REB_RATE then
    match r with
    | none => 0
    | some r => min 0xFFFF r.rate + flag r.atFloor * 0x10000
  else if a = Adr.MND_RSH_STATUS then
    m.reshape.state + m.reshape.reason * 0x10 +
      (if m.reshape.total = 0 then 0 else m.reshape.moved * 100 / m.reshape.total) * 0x100
  else if a = Adr.MND_RSH_BOUND 0 then m.reshape.group
  else if a = Adr.MND_RSH_BOUND 1 then m.reshape.unit
  else if a = Adr.MND_PATROL_DUE then
    m.overdue.length + h.patrolNext.1 * 0x100 + min 0xFFFF h.patrolNext.2 * 0x10000
  else if a = Adr.MND_LOSS_COUNT then m.loss.length
  else if 0x1A0080 ≤ a ∧ a < 0x1A00C0 then (m.lossData.getD ((a - 0x1A0080) / 4) 0).toNat
  else if a = Adr.MND_JRN_EFF 0 then eff 0
  else if a = Adr.MND_JRN_EFF 1 then eff 1
  else 0

/-- The head is entering CAROUSEL, CELLAR or OFF: rebuild and reshape work stops at its next restart point (R289). -/
def Head.parting (h : Head) : Bool := (h.pwr.entry.map fun e => decide (3 ≤ e.target)).getD false

/-! ## Shelves and the Wheel -/

def Shf.shelf (f : Shf) (s : Nat) : Shelf := (f.shelves.find? (·.shelf == s)).getD { shelf := s }

/-- Power and time figures of a shelf as sampled (R239): SHF_SHELF_PWR, SHF_SHELF_LOW, SHF_SHELF_TIME. -/
def Shf.figure (f : Shf) (s : Nat) : BitVec 32 × BitVec 32 × BitVec 32 :=
  ((f.figures.find? (·.1 == s)).map (·.2)).getD (0x03E80384, 0x1202, 0x07D00960)

def Head.openW (h : Head) (s : Nat) : Nat := bits 15 0 (h.shf.figure s).1.toNat
def Head.wakeW (h : Head) (s : Nat) : Nat := bits 31 16 (h.shf.figure s).1.toNat
def Head.darkW (h : Head) (s : Nat) : Nat := bits 7 0 (h.shf.figure s).2.1.toNat
def Head.moduleW (h : Head) (s : Nat) : Nat := bits 15 8 (h.shf.figure s).2.1.toNat
def Head.wakeMs (h : Head) (s : Nat) : Nat := bits 15 0 (h.shf.figure s).2.2.toNat
def Head.closeMs (h : Head) (s : Nat) : Nat := bits 31 16 (h.shf.figure s).2.2.toNat

/-- A field of SHF_POLICY as sampled (R239). -/
def Head.shelfPolicy (h : Head) (hi lo : Nat) : Nat := bits hi lo h.shf.policy.toNat

/-- Draw of a shelf in the rack account by state (R221, R222): DARK_W, or OPEN_W from its power-off to the next power slot; WAKE_W while
WAKING; OPEN_W while OPEN or CLOSING; MODULE_W a powered module in PARTIAL; in FAULT OPEN_W until the rails are confirmed off. -/
def Head.shelfDraw (h : Head) (s : Nat) : Nat :=
  let sh := h.shf.shelf s
  match sh.state with
  | 0 => 0
  | 1 => if sh.leaving then h.openW s else h.darkW s
  | 2 => h.wakeW s
  | 3 => h.openW s
  | 4 => h.openW s
  | 5 => h.darkW s + h.moduleW s * ((List.range 48).filter fun i => bitAt i sh.partialMask).length
  | _ => if sh.railsOff then h.darkW s else h.openW s

/-- D of R222: both heads' shelves count once. -/
def Head.rackDraw (h : Head) : Nat := (h.shelvesOn.map h.shelfDraw).sum

def Shf.port (f : Shf) (p : Nat) : Port := (f.ports.find? (·.port == p)).getD { port := p }

/-- Planning rate of a port in 10 MB/s: 5,625 at x8 and 64 GT/s, in proportion to lanes and lane rate (R215). -/
def portRate (width speed : Nat) : Nat :=
  let gt := match speed with | 1 => 25 | 2 => 50 | 3 => 80 | 4 => 160 | 5 => 320 | 6 => 640 | _ => 0
  5625 * width * gt / (8 * 640)

def shfView (h : Head) (a : Nat) : Nat :=
  let f := h.shf
  let s := h.fld Adr.SHF_SEL 6 0
  let cold (st : Nat) := (h.shelvesOn.filter fun x => !h.landing x && (f.shelf x).state == st).length
  if a = Adr.SHF_STATUS then
    flag h.pair.spareMaster + cold 3 * 0x100 + cold 2 * 0x10000 + min 0xFF f.demands.length * 0x1000000
  else if a = Adr.SHF_DRAW then min 0xFFFFFF h.rackDraw
  else if a = Adr.SHF_SHELF_CFG then s / 32 * 0x800 + (0x40 + s % 32) * 0x10000
  else if a = Adr.SHF_SHELF_STATUS then
    (f.shelf s).state + flag (f.shelf s).fill * 8 +
      min 0xFF (f.holds.filter (·.shelf == s)).length * 0x100 + min 0xFFFF (f.shelf s).lastWakeMs * 0x10000
  else if 0x1B0100 ≤ a ∧ a < 0x1B0140 then
    let p := f.port ((a - 0x1B0100) / 4)
    p.width + p.speed * 0x10 + p.spares * 0x100 + portRate p.width p.speed * 0x10000
  else if 0x1B0140 ≤ a ∧ a < 0x1B0160 then
    let j := f.spareLanes.getD ((a - 0x1B0140) / 4) (none, false)
    (j.1.map (· / 8)).getD 0x1F * 0x10000 + flag j.2 * 0x200000
  else 0

/-- Beat count: 16 beats a cycle (R229). -/
def Whl.beat (w : Whl) : Nat := w.cycle * 16 + w.slot / 16
/-- Slot count since cycle 0. -/
def Whl.slotCount (w : Whl) : Nat := w.cycle * 256 + w.slot

/-- A signed offset in its register: 0x8000_0000 before a measurement. -/
def ofsField (o : Option Int) : Nat := match o with | none => 0x80000000 | some i => (i % 0x100000000).toNat

/-- The plan in force for a slot (R230). -/
def Head.plan (h : Head) (slot : Nat) : SlotPlan := ((h.tsi.sections.wheel.getD [])[slot]?).getD ⟨0, 0, 0⟩

def whlView (h : Head) (a : Nat) : Nat :=
  let w := h.whl
  let sel := h.fld Adr.WHL_PLAN_SEL 7 0
  if a = Adr.WHL_STATUS then
    w.lock + flag w.driver * 8 + flag w.refSeen * 0x10 + flag w.tickSeen * 0x20 + flag w.ptpLocked * 0x40
  else if a = Adr.WHL_CYCLE_LO then w.cycle % 2 ^ 32
  else if a = Adr.WHL_CYCLE_HI then w.cycle / 2 ^ 32 % 256 + w.slot * 0x100
  else if a = Adr.WHL_BEAT then w.beat % 2 ^ 32
  else if a = Adr.WHL_PTP_OFS then ofsField (if w.ptpLocked then w.ptpOfs else none)
  else if a = Adr.WHL_PEER_OFS then ofsField w.peerOfs
  else if a = Adr.WHL_PLAN_0 then (h.plan sel).classMask + (h.plan sel).budgetW * 0x10000
  else if a = Adr.WHL_PLAN_1 then (h.plan sel).maxOps + min 0xFFFF (assocGet sel 0 w.launched) * 0x10000
  else if a = Adr.WHL_OVERRUN then sat32 w.overrun
  else if a = Adr.WHL_LATE then sat32 w.late
  else 0

/-! ## The pair -/

def Pair.trp (p : Pair) (t : Troupe) : Trp := match t with | .a => p.a | .b => p.b

def trpView (h : Head) (a : Nat) : Nat :=
  let p := h.pair
  if a = Adr.TRP_ROLE then
    p.a.role + p.b.role * 4 + p.a.state * 0x10 + p.b.state * 0x100 + flag p.icl * 0x1000 + flag p.spareMaster * 0x2000 +
      flag p.lasting * 0x4000
  else if a = Adr.TRP_BATON then
    p.hold.toNat + p.see.toNat * 4 + p.hold.toNat * 0x10 + p.confirmed.toNat * 0x40 + flag p.keeperOk * 0x100
  else if a = Adr.TRP_CTRL then flag p.hbBusy * 8 + p.hbResult * 0x10
  else if a = Adr.TRP_DIGEST 0 then p.a.digestBeat % 2 ^ 32
  else if a = Adr.TRP_DIGEST 1 then p.b.digestBeat % 2 ^ 32
  else if a = Adr.TRP_MISMATCH then min 0xFFFF p.mismatch + p.lastOutcome * 0x10000 + p.lastTroupe * 0x100000
  else if a = Adr.TRP_ICL_STATUS then
    p.lanes + flag p.icl * 0x80 + (p.spares.filter fun s => decide (s.1 ≠ 0x3F)).length * 0x100 + p.loadPct * 0x10000 +
      flag p.pacing * 0x1000000
  else if a = Adr.TRP_RESYNC then
    (if p.resyncTotal = 0 then 0 else p.resyncDone * 100 / p.resyncTotal) + troupeBit p.resyncTroupe * 0x100 +
      flag p.resyncActive * 0x200
  else if 0x1D0040 ≤ a ∧ a < 0x1D0050 then
    let s := p.spares.getD ((a - 0x1D0040) / 4) (0x3F, false)
    s.1 + flag s.2 * 0x40
  else 0

/-! ## Memory -/

def Pan.dirtyLines (p : Pan) : Nat := (p.lines.filter (·.dirty)).length

def panView (h : Head) (a : Nat) : Nat :=
  let p := h.pan
  if a = Adr.PAN_STATUS then
    p.state + p.slices.dedup.length * 0x100 + p.dirtyLines / 1024 * 0x10000
  else if a = Adr.PAN_STAT then sat32 (p.stat.getD (h.fld Adr.PAN_STAT_SEL 3 0) 0)
  else 0

def memView (h : Head) (a : Nat) : Nat :=
  let m := h.memc
  let (kind, unit, pc, ue) := m.lastErr
  if 0x1F0000 ≤ a ∧ a < 0x1F0010 then
    let n := (a - 0x1F0000) / 4
    match m.hbm.find? (·.stack == n) with
    | none => 0
    | some s => flag (decide (n < h.hbmStacks)) + flag s.spareUsed * 2 + s.spareFor * 0x100 + s.mappedOut.length * 0x10000
  else if a = Adr.MEM_DDR then m.dpc + m.dimmGib * 0x100 + m.chOk.toNat * 0x1000000
  else if a = Adr.MEM_ERR_CNT then sat32 (m.errs.getD (h.fld Adr.MEM_ERR_SEL 3 0) 0)
  else if a = Adr.MEM_STAGING then m.dirtyLimitMib
  else if a = Adr.MEM_LAST_ERR then kind + unit * 4 + pc * 0x100 + ue * 0x10000
  else 0

/-! ## Cellar, power and Calliope -/

/-- Calendar seconds, 48 bits: runs from the crystal (R297). -/
def Head.calNow (h : Head) : Nat :=
  (h.cel.calSec + (if h.cel.crystalStopped then 0 else (h.now - h.cel.calAt) / 1000000)) % 2 ^ 48
/-- Fraction of a second in 1/32,768 s. -/
def Head.calSub (h : Head) : Nat := if h.cel.crystalStopped then 0 else (h.now - h.cel.calAt) % 1000000 * 32768 / 1000000

def celView (h : Head) (a : Nat) : Nat :=
  let c := h.cel
  if a = Adr.CEL_CAL_SEC_LO then h.calNow % 2 ^ 32
  else if a = Adr.CEL_CAL_HI then h.calNow / 2 ^ 32 + h.calSub * 0x10000 + flag c.calValid * 0x80000000
  else if a = Adr.CEL_LAST_SAMPLE then min 0x3FF c.lastVin + min 0xFF c.lastDie * 0x10000 + c.crossed.toNat * 0x1000000
  else if a = Adr.CEL_WAKE_REC then
    c.cause + c.part * 0x10 + min 3 c.attempts * 0x100 + flag c.fioAlt * 0x400 + flag c.failed * 0x800 + flag c.ddrLost * 0x1000
  else if a = Adr.CEL_OPHOURS_LO then h.opNow % 2 ^ 32
  else if a = Adr.CEL_OPHOURS_HI then h.opNow / 2 ^ 32 + c.cycles % 2 ^ 24 * 0x100
  else 0

/-- WAKE_GROUP of a power domain by the active image; ungrouped domains are ON DEMAND (R282). -/
def Head.wakeGroup (h : Head) (d : Nat) : Nat := (((h.tsi.sections.pdom.getD [])[d]?).map (·.group)).getD 0

def pwrView (h : Head) (a : Nat) : Nat :=
  let p := h.pwr
  if a = Adr.PWR_STATE then
    p.state + flag p.entry.isSome * 8 + (p.entry.map (·.target)).getD 0 * 0x10 + p.ringsOn.toNat * 0x100 +
      p.ringsKept.toNat * 0x1000
  else if a = Adr.PWR_CLK then p.pllLock.toNat + flag p.onPll * 0x20
  else if a = Adr.PWR_DOM_INFO then
    let n := h.fld Adr.PWR_DOM_SEL 7 0
    match p.domains.find? (·.dom == n) with
    | none => h.wakeGroup n * 0x10
    | some d => flag (decide (d.state ≠ 0)) + flag (d.state == 2) * 2 + flag d.retained * 4 + flag d.lost * 8 + h.wakeGroup n * 0x10
  else if a = Adr.PWR_GOV then p.level + flag p.ilim * 8 + p.duty * 0x10 + p.govGated.toNat * 0x1000
  else if a = Adr.PWR_VIN then min 0x3FF (p.vinMv / 100) + min 0x1FF (p.envMw / 1000) * 0x10000
  else if a = Adr.PWR_THERM then
    (p.dieC % 256).toNat + p.sensor * 0x100 + (if p.hotHold then 2 else if p.hot then 1 else 0) * 0x1000 +
      flag h.cel.tripped * 0x4000
  else 0

def calView (h : Head) (a : Nat) : Nat :=
  let c := h.cal
  if a = Adr.CAL_CTRL then flag (c.bank == some 1) * 8 + flag c.swapPending * 0x10
  else if 0x30010 ≤ a ∧ a < 0x30028 then
    let r := c.rails.getD ((a - 0x30010) / 4) {}
    min 0xFFF r.mv + min 0x1FF (r.ma / 1000) * 0x1000 + flag r.implausible * 0x40000000 + flag r.inReg * 0x80000000
  else if a = Adr.CAL_HUP_E then min 0xFFFF (c.availMj / 100) + min 0xFFFF (c.needMj / 100) * 0x10000
  else if a = Adr.CAL_HUP_TRIG then min 0x3FF (c.vhMv / 100) + min 0x3FF (c.trigMv / 100) * 0x10000
  else if a = Adr.CAL_FLUSH then c.flush + c.flushCause * 4 + h.cel.flushMs % 2 ^ 16 * 0x10000
  else 0

/-! ## Barker and the Attic -/

/-- The state of a source; idle where nothing is listed. -/
def Head.src (h : Head) (s : Nat) : SrcState := (h.brk.find? (·.src == s)).getD { src := s }
def Head.srcEn (h : Head) (s : Nat) : Bool := h.bit (bankKey s Adr.BRK_SRC_CFG) 3
def Head.srcAlertOn (h : Head) (s : Nat) : Bool := h.bit (bankKey s Adr.BRK_SRC_CFG) 4
def Head.srcPrioOf (h : Head) (s : Nat) : Nat := h.fld (bankKey s Adr.BRK_SRC_CFG) 2 0
def Head.srcCore (h : Head) (s : Nat) : Nat := h.fld (bankKey s Adr.BRK_SRC_CFG) 12 8
def Head.srcSet (h : Head) (s : Nat) : Nat := h.fld (bankKey s Adr.BRK_SRC_CFG) 20 16
def Head.pendingCount (h : Head) : Nat := (h.brk.filter (·.pending)).length

/-- `ALERT_N` is asserted (R324). -/
def Head.alert (h : Head) : Bool :=
  h.pins.wakeAlert || h.brk.any fun s => s.pending && h.srcEn s.src && h.srcAlertOn s.src

/-- Sources claimable by core `c` (R323): pending, enabled, not IN_SERVICE, routed to the core, at or above MIN_PRIO. -/
def Head.claimable (h : Head) (c : Nat) : List Nat :=
  (h.brk.filter fun s => s.pending && !s.inService && h.srcEn s.src &&
    (h.srcCore s.src == c || h.srcCore s.src == 0x1F) &&
    decide (h.fld (Adr.BRK_CORE_CFG c) 2 0 ≤ h.srcPrioOf s.src)).map (·.src)

/-- The highest priority of a list of sources, lower numbers first on a tie. -/
def Head.topSource (h : Head) (l : List Nat) : Option Nat :=
  l.foldl (fun best s => match best with
    | none => some s
    | some b =>
      if h.srcPrioOf b < h.srcPrioOf s ∨ (h.srcPrioOf b = h.srcPrioOf s ∧ s < b) then some s else some b) none

/-- Core c's interrupt is asserted (R323). -/
def Head.coreIrq (h : Head) (c : Nat) : Bool := h.bit (Adr.BRK_CORE_CFG c) 3 && decide (h.claimable c ≠ [])

/-- WINDOW_H of a class: 0 acts as 1; class 0x7 from MND_FAIL_THRESH (R316). -/
def Head.windowH (h : Head) (c : Nat) : Nat :=
  if c = 7 then orIfZero 1 (h.fld Adr.MND_FAIL_THRESH 31 24) else orIfZero 1 (h.fld (bankKey c Adr.BRK_FLT_CFG) 15 0)

/-- THRESH of a class; with LOG set, the power of two (R316). -/
def Head.thresh (h : Head) (c : Nat) : Nat :=
  let k := bankKey c Adr.BRK_FLT_CFG
  if h.bit k 20 then 2 ^ h.fld k 19 16 else orIfZero 1 (h.fld k 19 16)

def Faults.part (f : Faults) (c p : Nat) : FaultPart :=
  (f.parts.find? fun x => x.cls == c && x.part == p).getD { cls := c, part := p }

def brkView (h : Head) (a : Nat) : Nat :=
  let s := h.src (h.fld Adr.BRK_SRC_SEL 10 0)
  if a = Adr.BRK_SRC_STAT then flag s.pending + flag s.inService * 2 + flag s.again * 4 + s.rep * 0x100
  else if a = Adr.BRK_STATUS then h.pendingCount + flag h.alert * 0x10000 + flag h.pins.wakeAlert * 0x20000
  else if 0x40100 ≤ a ∧ a < 0x40190 then
    ((h.brk.filter fun x => x.pending && x.src / 32 == (a - 0x40100) / 4).map fun x => 2 ^ (x.src % 32)).sum
  else if a = Adr.BRK_FLT_COUNT then
    let c := h.fld Adr.BRK_FLT_SEL 3 0
    let p := h.flt.part c (h.fld Adr.BRK_FLT_SEL 31 16)
    min 255 (h.inWindow (h.windowH c) p.times).length + p.state * 0x100
  else 0

/-- A committed snapshot set: generation and addresses (R333); set 0 is empty. -/
def Attic.set (a : Attic) (s : Nat) : Nat × List Nat := ((a.sets.find? (·.1 == s)).map (·.2)).getD (0, [])

def atcView (h : Head) (a : Nat) : Nat :=
  let t := h.atc
  if a = Adr.ATC_STATUS then t.slots.length + t.queue.length * 0x10000 + flag t.clearing.isSome * 0x2000000
  else if a = Adr.ATC_HEAD_LO then t.head % 2 ^ 32
  else if a = Adr.ATC_HEAD_HI then t.head / 2 ^ 32
  else if 0x50010 ≤ a ∧ a < 0x50020 then sat32 (t.drops.getD ((a - 0x50010) / 4) 0)
  else if a = Adr.ATC_SET_CTRL then (t.set (h.fld Adr.ATC_SET_SEL 4 0)).1 % 256 * 0x10000
  else if 0x50080 ≤ a ∧ a < 0x50100 then (t.readData.getD ((a - 0x50080) / 4) 0).toNat
  else 0

/-! ## Firmware -/

/-- The boot control block in force: the valid copy with the higher SEQ (R340). -/
def Fwu.bctl (f : Fwu) : Bctl :=
  if f.bctlA.ok && f.bctlB.ok then (if f.bctlA.seq < f.bctlB.seq then f.bctlB else f.bctlA)
  else if f.bctlB.ok then f.bctlB else f.bctlA

def fwuView (h : Head) (a : Nat) : Nat :=
  let f := h.fwu
  let b := f.bctl
  if a = Adr.FWU_STATUS then
    f.phase + b.active % 4 * 4 + f.booted * 0x10 + flag f.trial * 0x40 + flag f.fallback * 0x80 + flag f.dlOpen * 0x100 +
      flag f.schedule.isSome * 0x200 + f.reason * 0x1000 + ((f.image.map (·.svn)).getD 0) % 64 * 0x10000 +
      h.fuse.svnFloor % 64 * 0x1000000
  else if a = Adr.FWU_CTRL then f.verifyCode * 0x100
  else if a = Adr.FWU_DL then f.dlBlocks.length + f.dlExpected % 4096 * 0x10000
  else if a = Adr.FWU_ACT_CYCLE_LO then (f.schedule.map (·.2)).getD 0 % 2 ^ 32
  else if a = Adr.FWU_ACT_CYCLE_HI then
    (f.schedule.map (·.2)).getD 0 / 2 ^ 32 + (f.schedule.map (·.1)).getD 0 * 0x100
  else if a = Adr.FWU_BRIDGE then
    let n (k : Nat) := (f.bridges.filter fun x => x.2.2.2 == k).length
    n 0 + n 1 * 0x100 + n 2 * 0x10000
  else if a = Adr.FWU_ATT_CTRL then flag f.attBusy * 2 + f.attResult * 0x100
  else if a = Adr.FWU_ATT_IDX_LO then f.attIndex % 2 ^ 32
  else if a = Adr.FWU_ATT_IDX_HI then f.attIndex / 2 ^ 32
  else 0

/-! ## The value a read returns -/

/-- The read-only fields of a register. -/
def roView (h : Head) (a : Nat) : Nat :=
  let b := a / 0x10000
  if b = 0x00 then glbView h a
  else if b = 0x01 then celView h a
  else if b = 0x02 then pwrView h a
  else if b = 0x03 then calView h a
  else if b = 0x04 then brkView h a
  else if b = 0x05 then atcView h a
  else if b = 0x06 then tsiView h a
  else if b = 0x08 then hqeView h a
  else if 0x10 ≤ b ∧ b < 0x14 then bthView h ((a - 0x100000) / 0x1000) (a % 0x1000)
  else if b = 0x14 then ldrView h a
  else if b = 0x15 then cmpView h a
  else if b = 0x16 then cphView h a
  else if b = 0x17 then dgtView h a
  else if b = 0x18 then stgView h a
  else if b = 0x19 then ptyView h a
  else if b = 0x1A then mndView h a
  else if b = 0x1B then shfView h a
  else if b = 0x1C then whlView h a
  else if b = 0x1D then trpView h a
  else if b = 0x1E then panView h a
  else if b = 0x1F then memView h a
  else if b = 0x20 then fwuView h a
  else 0

/-- A register of a booth site or ring that the grade disables (R2): reads 0 and ignores writes. -/
def Head.disabled (h : Head) (a : Nat) : Bool :=
  (decide (0x100000 ≤ a ∧ a < 0x124000) && decide (h.sitesPresent ≤ (a - 0x100000) / 0x1000)) ||
    (decide (0x190100 ≤ a ∧ a < 0x190110) && !bitAt ((a - 0x190100) / 4) h.ringMask)

/-- Bits of a register that firmware writes and that the hardware then moves on: the register shows the live value. -/
def liveMask (a : Nat) : Word :=
  if a = Adr.CEL_CAL_SEC_LO then 0xFFFFFFFF else if a = Adr.CEL_CAL_HI then 0xFFFF
  else if a = Adr.PWR_THERM then 0x4000 else if 0x40100 ≤ a ∧ a < 0x40190 then 0xFFFFFFFF
  else if 0x171000 ≤ a ∧ a < 0x171400 then 0xFFFFFFFF
  else if 0x170180 ≤ a ∧ a < 0x170500 ∧ 0x80 ≤ a % 0x100 ∧ a % 0x100 < 0xC0 then 0xFFFFFFFF
  else 0

/-- The value a register holds at address `a`, staged values left out (R7): fields in effect, read-only fields as the state
shows them, action bits and reserved fields 0 (R9). -/
def Head.readReg0 (h : Head) (a : Nat) : Word :=
  match regRow a with
  | none => 0
  | some r =>
    if h.disabled a then 0
    else (h.reg (h.keyOf a) &&& (r.rw ||| r.rwa ||| r.rws ||| r.w1c) &&& ~~~liveMask a) ||| BitVec.ofNat 32 (roView h a)

/-- Registers whose reads return 0: the token mailbox, the key registers and the quote nonce. -/
def writeOnly (a : Nat) : Bool :=
  decide (0x180040 ≤ a ∧ a < 0x180080) || decide (0x170800 ≤ a ∧ a < 0x170A00) || decide (0x200040 ≤ a ∧ a < 0x200060)

/-- What a read of address `a` returns (R7, R8); TSI_SHADOW_DATA shows the addressed register with its staged value (R39). -/
def Head.readReg (h : Head) (a : Nat) : Word :=
  if a = Adr.TSI_SHADOW_DATA then
    let b := h.fld Adr.TSI_SHADOW_ADDR 23 2 * 4
    match h.tsi.staged.find? (·.1 == b) with
    | some (_, w, _) => w
    | none => h.readReg0 b
  else if writeOnly a then 0
  else if 0x200080 ≤ a ∧ a < 0x2000C4 then BitVec.ofNat 32 (leAt (a - 0x200080) 4 Config.identityKey)
  else h.readReg0 a

end Sys2Proof.Machine
end

