-- ==== Sys2Proof/Machine/Hash.lean ====
section
/-!
DEFINITION. The published functions the manual names: CRC-32C, the NVMe 64b guard CRC (R161), XXH64 (R107), SHA-2 and SHA-3
(R145), HMAC (R155), AES-256-GCM (R133), and the GF(2^8) arithmetic of the parity engine (R167).
-/

namespace Sys2Proof.Machine

open Sys2Proof

/-! ## Cyclic redundancy checks -/

/-- One reflected CRC step over the low bit. -/
def crcStep (w : Nat) (poly c : BitVec w) : BitVec w :=
  if c.getLsbD 0 then (c >>> 1) ^^^ poly else c >>> 1

/-- A reflected CRC over one byte. -/
def crcByte (w : Nat) (poly c : BitVec w) (b : Byte) : BitVec w :=
  let f := crcStep w poly
  f (f (f (f (f (f (f (f (c ^^^ b.setWidth w))))))))

/-- CRC-32C: reflected polynomial 0x82F6_3B78, all ones in and out. -/
def crc32c (bs : Bytes) : BitVec 32 :=
  ~~~ (bs.foldl (crcByte 32 0x82F63B78#32) 0xFFFFFFFF#32)

/-- CRC-64 of R161: polynomial 0xAD93_D235_94C9_3659, reflected 0x9A6C_9329_AC4B_C9B5, all ones in and out. -/
def crc64 (bs : Bytes) : BitVec 64 :=
  ~~~ (bs.foldl (crcByte 64 0x9A6C9329AC4BC9B5#64) 0xFFFFFFFFFFFFFFFF#64)

/-- CRC-32C as four little-endian bytes. -/
def crcBytes (bs : Bytes) : Bytes := leBytes 4 (crc32c bs).toNat

/-! ## XXH64 with seed 0 -/

def xxP1 : BitVec 64 := 0x9E3779B185EBCA87#64
def xxP2 : BitVec 64 := 0xC2B2AE3D27D4EB4F#64
def xxP3 : BitVec 64 := 0x165667B19E3779F9#64
def xxP4 : BitVec 64 := 0x85EBCA77C2B2AE63#64
def xxP5 : BitVec 64 := 0x27D4EB2F165667C5#64

/-- A 64-bit little-endian lane. -/
def lane64 (bs : Bytes) : BitVec 64 := BitVec.ofNat 64 (leNat (bs.take 8))

def xxRound (acc x : BitVec 64) : BitVec 64 := ((acc + x * xxP2).rotateLeft 31) * xxP1

def xxMerge (acc v : BitVec 64) : BitVec 64 := (acc ^^^ xxRound 0 v) * xxP1 + xxP4

/-- The 32-byte stripes of the input. -/
def xxStripes : Nat → Bytes → BitVec 64 × BitVec 64 × BitVec 64 × BitVec 64 → BitVec 64 × BitVec 64 × BitVec 64 × BitVec 64
  | 0, _, v => v
  | n + 1, bs, (a, b, c, d) =>
    xxStripes n (bs.drop 32) (xxRound a (lane64 bs), xxRound b (lane64 (bs.drop 8)),
      xxRound c (lane64 (bs.drop 16)), xxRound d (lane64 (bs.drop 24)))

/-- The tail: 8-byte lanes, one 4-byte lane, single bytes. -/
def xxTail8 : Nat → Bytes → BitVec 64 → BitVec 64
  | 0, _, h => h
  | n + 1, bs, h => xxTail8 n (bs.drop 8) (((h ^^^ xxRound 0 (lane64 bs)).rotateLeft 27) * xxP1 + xxP4)

def xxTail1 (bs : Bytes) (h : BitVec 64) : BitVec 64 :=
  bs.foldl (fun h b => ((h ^^^ (b.setWidth 64 * xxP5)).rotateLeft 11) * xxP1) h

def xxTail (bs : Bytes) (h : BitVec 64) : BitVec 64 :=
  let h := xxTail8 (bs.length / 8) bs h
  let r := bs.drop (bs.length / 8 * 8)
  if r.length < 4 then xxTail1 r h
  else xxTail1 (r.drop 4) (((h ^^^ (BitVec.ofNat 64 (leNat (r.take 4)) * xxP1)).rotateLeft 23) * xxP2 + xxP3)

/-- XXH64 with seed 0 (R107). -/
def xxh64 (bs : Bytes) : BitVec 64 :=
  let n := bs.length / 32
  let h0 :=
    if n = 0 then xxP5
    else
      let (a, b, c, d) := xxStripes n bs (xxP1 + xxP2, xxP2, 0, 0 - xxP1)
      let h := a.rotateLeft 1 + b.rotateLeft 7 + c.rotateLeft 12 + d.rotateLeft 18
      xxMerge (xxMerge (xxMerge (xxMerge h a) b) c) d
  let h := xxTail (bs.drop (n * 32)) (h0 + BitVec.ofNat 64 bs.length)
  let h := (h ^^^ (h >>> 33)) * xxP2
  let h := (h ^^^ (h >>> 29)) * xxP3
  h ^^^ (h >>> 32)

/-! ## SHA-2 -/

/-- FIPS 180-4 constants of SHA-256, entries 0 to 15. -/
def sha256K0 : List (BitVec 32) :=
  [0x428a2f98, 0x71374491, 0xb5c0fbcf, 0xe9b5dba5, 0x3956c25b, 0x59f111f1, 0x923f82a4, 0xab1c5ed5,
   0xd807aa98, 0x12835b01, 0x243185be, 0x550c7dc3, 0x72be5d74, 0x80deb1fe, 0x9bdc06a7, 0xc19bf174]

/-- FIPS 180-4 constants of SHA-256, entries 16 to 31. -/
def sha256K1 : List (BitVec 32) :=
  [0xe49b69c1, 0xefbe4786, 0xfc19dc6, 0x240ca1cc, 0x2de92c6f, 0x4a7484aa, 0x5cb0a9dc, 0x76f988da,
   0x983e5152, 0xa831c66d, 0xb00327c8, 0xbf597fc7, 0xc6e00bf3, 0xd5a79147, 0x6ca6351, 0x14292967]

/-- FIPS 180-4 constants of SHA-256, entries 32 to 47. -/
def sha256K2 : List (BitVec 32) :=
  [0x27b70a85, 0x2e1b2138, 0x4d2c6dfc, 0x53380d13, 0x650a7354, 0x766a0abb, 0x81c2c92e, 0x92722c85,
   0xa2bfe8a1, 0xa81a664b, 0xc24b8b70, 0xc76c51a3, 0xd192e819, 0xd6990624, 0xf40e3585, 0x106aa070]

/-- FIPS 180-4 constants of SHA-256, entries 48 to 63. -/
def sha256K3 : List (BitVec 32) :=
  [0x19a4c116, 0x1e376c08, 0x2748774c, 0x34b0bcb5, 0x391c0cb3, 0x4ed8aa4a, 0x5b9cca4f, 0x682e6ff3,
   0x748f82ee, 0x78a5636f, 0x84c87814, 0x8cc70208, 0x90befffa, 0xa4506ceb, 0xbef9a3f7, 0xc67178f2]

/-- FIPS 180-4 constants of SHA-256. -/
def sha256K : List (BitVec 32) := sha256K0 ++ sha256K1 ++ sha256K2 ++ sha256K3

/-- FIPS 180-4 constants of SHA-512, entries 0 to 15. -/
def sha512K0 : List (BitVec 64) :=
  [0x428a2f98d728ae22, 0x7137449123ef65cd, 0xb5c0fbcfec4d3b2f, 0xe9b5dba58189dbbc,
   0x3956c25bf348b538, 0x59f111f1b605d019, 0x923f82a4af194f9b, 0xab1c5ed5da6d8118,
   0xd807aa98a3030242, 0x12835b0145706fbe, 0x243185be4ee4b28c, 0x550c7dc3d5ffb4e2,
   0x72be5d74f27b896f, 0x80deb1fe3b1696b1, 0x9bdc06a725c71235, 0xc19bf174cf692694]

/-- FIPS 180-4 constants of SHA-512, entries 16 to 31. -/
def sha512K1 : List (BitVec 64) :=
  [0xe49b69c19ef14ad2, 0xefbe4786384f25e3, 0xfc19dc68b8cd5b5, 0x240ca1cc77ac9c65,
   0x2de92c6f592b0275, 0x4a7484aa6ea6e483, 0x5cb0a9dcbd41fbd4, 0x76f988da831153b5,
   0x983e5152ee66dfab, 0xa831c66d2db43210, 0xb00327c898fb213f, 0xbf597fc7beef0ee4,
   0xc6e00bf33da88fc2, 0xd5a79147930aa725, 0x6ca6351e003826f, 0x142929670a0e6e70]

/-- FIPS 180-4 constants of SHA-512, entries 32 to 47. -/
def sha512K2 : List (BitVec 64) :=
  [0x27b70a8546d22ffc, 0x2e1b21385c26c926, 0x4d2c6dfc5ac42aed, 0x53380d139d95b3df,
   0x650a73548baf63de, 0x766a0abb3c77b2a8, 0x81c2c92e47edaee6, 0x92722c851482353b,
   0xa2bfe8a14cf10364, 0xa81a664bbc423001, 0xc24b8b70d0f89791, 0xc76c51a30654be30,
   0xd192e819d6ef5218, 0xd69906245565a910, 0xf40e35855771202a, 0x106aa07032bbd1b8]

/-- FIPS 180-4 constants of SHA-512, entries 48 to 63. -/
def sha512K3 : List (BitVec 64) :=
  [0x19a4c116b8d2d0c8, 0x1e376c085141ab53, 0x2748774cdf8eeb99, 0x34b0bcb5e19b48a8,
   0x391c0cb3c5c95a63, 0x4ed8aa4ae3418acb, 0x5b9cca4f7763e373, 0x682e6ff3d6b2b8a3,
   0x748f82ee5defb2fc, 0x78a5636f43172f60, 0x84c87814a1f0ab72, 0x8cc702081a6439ec,
   0x90befffa23631e28, 0xa4506cebde82bde9, 0xbef9a3f7b2c67915, 0xc67178f2e372532b]

/-- FIPS 180-4 constants of SHA-512, entries 64 to 79. -/
def sha512K4 : List (BitVec 64) :=
  [0xca273eceea26619c, 0xd186b8c721c0c207, 0xeada7dd6cde0eb1e, 0xf57d4f7fee6ed178,
   0x6f067aa72176fba, 0xa637dc5a2c898a6, 0x113f9804bef90dae, 0x1b710b35131c471b,
   0x28db77f523047d84, 0x32caab7b40c72493, 0x3c9ebe0a15c9bebc, 0x431d67c49c100d4c,
   0x4cc5d4becb3e42b6, 0x597f299cfc657e2a, 0x5fcb6fab3ad6faec, 0x6c44198c4a475817]

/-- FIPS 180-4 constants of SHA-512. -/
def sha512K : List (BitVec 64) := sha512K0 ++ sha512K1 ++ sha512K2 ++ sha512K3 ++ sha512K4

/-- initial hash value of SHA-256, entries 0 to 7. -/
def sha256H0 : List (BitVec 32) :=
  [0x6a09e667, 0xbb67ae85, 0x3c6ef372, 0xa54ff53a, 0x510e527f, 0x9b05688c, 0x1f83d9ab, 0x5be0cd19]

/-- initial hash value of SHA-256. -/
def sha256H : List (BitVec 32) := sha256H0

/-- initial hash value of SHA-512, entries 0 to 7. -/
def sha512H0 : List (BitVec 64) :=
  [0x6a09e667f3bcc908, 0xbb67ae8584caa73b, 0x3c6ef372fe94f82b, 0xa54ff53a5f1d36f1,
   0x510e527fade682d1, 0x9b05688c2b3e6c1f, 0x1f83d9abfb41bd6b, 0x5be0cd19137e2179]

/-- initial hash value of SHA-512. -/
def sha512H : List (BitVec 64) := sha512H0

/-- FIPS 202 round constants, entries 0 to 15. -/
def keccakRC0 : List (BitVec 64) :=
  [0x1, 0x8082, 0x800000000000808a, 0x8000000080008000,
   0x808b, 0x80000001, 0x8000000080008081, 0x8000000000008009,
   0x8a, 0x88, 0x80008009, 0x8000000a,
   0x8000808b, 0x800000000000008b, 0x8000000000008089, 0x8000000000008003]

/-- FIPS 202 round constants, entries 16 to 23. -/
def keccakRC1 : List (BitVec 64) :=
  [0x8000000000008002, 0x8000000000000080, 0x800a, 0x800000008000000a,
   0x8000000080008081, 0x8000000000008080, 0x80000001, 0x8000000080008008]

/-- FIPS 202 round constants. -/
def keccakRC : List (BitVec 64) := keccakRC0 ++ keccakRC1

/-- FIPS 202 rotation offsets, lane x + 5y, entries 0 to 15. -/
def keccakRot0 : List (Nat) :=
  [0x0, 0x1, 0x3e, 0x1c, 0x1b, 0x24, 0x2c, 0x6, 0x37, 0x14, 0x3, 0xa, 0x2b, 0x19, 0x27, 0x29]

/-- FIPS 202 rotation offsets, lane x + 5y, entries 16 to 24. -/
def keccakRot1 : List (Nat) :=
  [0x2d, 0xf, 0x15, 0x8, 0x12, 0x2, 0x3d, 0x38, 0xe]

/-- FIPS 202 rotation offsets, lane x + 5y. -/
def keccakRot : List (Nat) := keccakRot0 ++ keccakRot1

/-- One round of a SHA-2 compression on the eight working words; `s` holds the six rotation and shift counts' results. -/
def sha2Round (w : Nat) (r : BitVec w → Nat → BitVec w) (e1 e2 e3 a1 a2 a3 : Nat) (v : List (BitVec w)) (kw : BitVec w) :
    List (BitVec w) :=
  match v with
  | [a, b, c, d, e, f, g, h] =>
    let t1 := h + (r e e1 ^^^ r e e2 ^^^ r e e3) + ((e &&& f) ^^^ (~~~ e &&& g)) + kw
    let t2 := (r a a1 ^^^ r a a2 ^^^ r a a3) + ((a &&& b) ^^^ (a &&& c) ^^^ (b &&& c))
    [t1 + t2, a, b, c, d + t1, e, f, g]
  | _ => v

/-- The message schedule, newest word first, extended by `n` words. -/
def sha2Schedule (w : Nat) (s0 s1 : BitVec w → BitVec w) : Nat → List (BitVec w) → List (BitVec w)
  | 0, l => l
  | n + 1, l => sha2Schedule w s0 s1 n ((s1 (l.getD 1 0) + l.getD 6 0 + s0 (l.getD 14 0) + l.getD 15 0) :: l)

/-- Big-endian words of `n` bytes each. -/
def beWords (w n : Nat) : Nat → Bytes → List (BitVec w)
  | 0, _ => []
  | k + 1, bs => BitVec.ofNat w (beNat (bs.take n)) :: beWords w n k (bs.drop n)

/-- One SHA-256 block (FIPS 180-4). -/
def sha256Block (h : List (BitVec 32)) (blk : Bytes) : List (BitVec 32) :=
  let s0 := fun x : BitVec 32 => x.rotateRight 7 ^^^ x.rotateRight 18 ^^^ (x >>> 3)
  let s1 := fun x : BitVec 32 => x.rotateRight 17 ^^^ x.rotateRight 19 ^^^ (x >>> 10)
  let ws := (sha2Schedule 32 s0 s1 48 (beWords 32 4 16 blk).reverse).reverse
  let v := (List.zipWith (· + ·) sha256K ws).foldl (sha2Round 32 BitVec.rotateRight 6 11 25 2 13 22) h
  List.zipWith (· + ·) h v

/-- One SHA-512 block (FIPS 180-4). -/
def sha512Block (h : List (BitVec 64)) (blk : Bytes) : List (BitVec 64) :=
  let s0 := fun x : BitVec 64 => x.rotateRight 1 ^^^ x.rotateRight 8 ^^^ (x >>> 7)
  let s1 := fun x : BitVec 64 => x.rotateRight 19 ^^^ x.rotateRight 61 ^^^ (x >>> 6)
  let ws := (sha2Schedule 64 s0 s1 64 (beWords 64 8 16 blk).reverse).reverse
  let v := (List.zipWith (· + ·) sha512K ws).foldl (sha2Round 64 BitVec.rotateRight 14 18 41 28 34 39) h
  List.zipWith (· + ·) h v

/-- Fold a block function over the whole blocks of `n` bytes. -/
def overBlocks {α : Type} (n : Nat) (f : α → Bytes → α) : Nat → Bytes → α → α
  | 0, _, h => h
  | k + 1, bs, h => overBlocks n f k (bs.drop n) (f h (bs.take n))

/-- The padding of a SHA-2 message of `len` bytes whose open block holds `part`: block `n`, length field `m` bytes. -/
def sha2Pad (n m len : Nat) (part : Bytes) : Bytes :=
  let a := part ++ [0x80]
  let z := (2 * n - m - a.length % n) % n
  a ++ zeros z ++ beBytes m (8 * len)

/-- SHA-256 of a byte string. -/
def sha256 (bs : Bytes) : Bytes :=
  let k := bs.length / 64
  let h := overBlocks 64 sha256Block k bs sha256H
  let p := sha2Pad 64 8 bs.length (bs.drop (64 * k))
  (overBlocks 64 sha256Block (p.length / 64) p h).flatMap (fun w => beBytes 4 w.toNat)

/-- SHA-512 of a byte string. -/
def sha512 (bs : Bytes) : Bytes :=
  let k := bs.length / 128
  let h := overBlocks 128 sha512Block k bs sha512H
  let p := sha2Pad 128 16 bs.length (bs.drop (128 * k))
  (overBlocks 128 sha512Block (p.length / 128) p h).flatMap (fun w => beBytes 8 w.toNat)

/-! ## SHA-3 -/

/-- Lane (x, y) of a Keccak state of 25 lanes. -/
def klane (s : List (BitVec 64)) (x y : Nat) : BitVec 64 := s.getD (x % 5 + 5 * (y % 5)) 0

/-- One round of Keccak-f[1600] (FIPS 202): theta, rho and pi, chi, iota. -/
def keccakRound (s : List (BitVec 64)) (rc : BitVec 64) : List (BitVec 64) :=
  let idx := List.range 25
  let c := (List.range 5).map fun x => klane s x 0 ^^^ klane s x 1 ^^^ klane s x 2 ^^^ klane s x 3 ^^^ klane s x 4
  let d := (List.range 5).map fun x => c.getD ((x + 4) % 5) 0 ^^^ (c.getD ((x + 1) % 5) 0).rotateLeft 1
  let t := idx.map fun i => s.getD i 0 ^^^ d.getD (i % 5) 0
  let b := idx.map fun i =>
    let x := i % 5
    let y := i / 5
    let j := (x + 3 * y) % 5 + 5 * x
    (t.getD j 0).rotateLeft (keccakRot.getD j 0)
  let e := idx.map fun i => klane b i (i / 5) ^^^ (~~~ (klane b (i % 5 + 1) (i / 5)) &&& klane b (i % 5 + 2) (i / 5))
  match e with
  | x :: xs => (x ^^^ rc) :: xs
  | [] => []

def keccakF (s : List (BitVec 64)) : List (BitVec 64) := keccakRC.foldl keccakRound s

/-- Absorb one block of the rate into the state. -/
def keccakAbsorb (s : List (BitVec 64)) (blk : Bytes) : List (BitVec 64) :=
  let l := (List.range 25).map fun i => lane64 (fit 8 (slice (8 * i) 8 blk))
  keccakF (List.zipWith (· ^^^ ·) s l)

/-- The zero state. -/
def keccakZero : List (BitVec 64) := List.replicate 25 0

/-- The padded last block: suffix byte, zeros, and the final bit. -/
def keccakPad (rate : Nat) (suffix : Byte) (part : Bytes) : Bytes :=
  let p := fit rate (part ++ [suffix])
  patch (rate - 1) [p.getD (rate - 1) 0 ||| 0x80] p

/-- The bytes of a Keccak state. -/
def keccakBytes (s : List (BitVec 64)) : Bytes := s.flatMap (fun w => leBytes 8 w.toNat)

/-- Squeeze `n` blocks of the rate. -/
def keccakSqueeze (rate : Nat) : Nat → List (BitVec 64) → Bytes
  | 0, _ => []
  | n + 1, s => (keccakBytes s).take rate ++ keccakSqueeze rate n (keccakF s)

/-- A sponge over a byte string (FIPS 202). -/
def sponge (rate : Nat) (suffix : Byte) (out : Nat) (bs : Bytes) : Bytes :=
  let k := bs.length / rate
  let s := overBlocks rate keccakAbsorb k bs keccakZero
  let s := keccakAbsorb s (keccakPad rate suffix (bs.drop (rate * k)))
  (keccakSqueeze rate (ceilDiv out rate) s).take out

def sha3_256 (bs : Bytes) : Bytes := sponge 136 0x06 32 bs
def sha3_512 (bs : Bytes) : Bytes := sponge 72 0x06 64 bs
def shake256 (out : Nat) (bs : Bytes) : Bytes := sponge 136 0x1F out bs

/-! ## HMAC (R155) -/

def hmacWith (h : Bytes → Bytes) (blk : Nat) (key m : Bytes) : Bytes :=
  let k0 := fit blk (if key.length > blk then h key else key)
  let ipad := k0.map (· ^^^ 0x36)
  let opad := k0.map (· ^^^ 0x5C)
  h (opad ++ h (ipad ++ m))

def hmac256 (key m : Bytes) : Bytes := hmacWith sha256 64 key m
def hmac512 (key m : Bytes) : Bytes := hmacWith sha512 128 key m

/-! ## GF(2^8) arithmetic -/

/-- Multiply by x modulo a degree-8 polynomial given by its low byte. -/
def gfDouble (poly : Byte) (a : Byte) : Byte :=
  if a.getLsbD 7 then (a <<< 1) ^^^ poly else a <<< 1

/-- Field multiplication, high bit of `b` first. -/
def gfMulPoly (poly a b : Byte) : Byte :=
  (List.range 8).reverse.foldl (fun r i => let r := gfDouble poly r; if b.getLsbD i then r ^^^ a else r) 0

/-- Multiplication in the field 0x11D of R167. -/
def gfMul (a b : Byte) : Byte := gfMulPoly 0x1D a b

/-- g^n with g = 0x02 (R167). -/
def gfPow : Nat → Byte
  | 0 => 1
  | n + 1 => gfDouble 0x1D (gfPow n)

/-- The inverse: a^254. -/
def gfInv (a : Byte) : Byte := (List.range 253).foldl (fun r _ => gfMul r a) a

/-- Xor of two blocks of equal length. -/
def xorBytes (a b : Bytes) : Bytes := List.zipWith (· ^^^ ·) a b

/-- A block times a constant. -/
def gfScale (c : Byte) (bs : Bytes) : Bytes := bs.map (gfMul c)

/-- P and Q of a row of data blocks (R167). -/
def parityPQ (n : Nat) (data : List Bytes) : Bytes × Bytes :=
  (data.foldl xorBytes (zeros n),
   ((List.range data.length).zip data).foldl (fun q d => xorBytes q (gfScale (gfPow d.1) d.2)) (zeros n))

/-- Multiplication of a power of g by its inverse: g^(−x). -/
def gfPowInv (x : Nat) : Byte := gfInv (gfPow x)

/-- Reconstruct the lost data units of a row (R168): `data` by data index and `p`, `q`, each none when lost. None when more is
lost than the redundancy covers. -/
def rebuildData (n : Nat) (data : List (Option Bytes)) (p q : Option Bytes) : Option (List Bytes) :=
  let have0 := data.map fun d => d.getD (zeros n)
  let pq := parityPQ n have0
  let lost := (List.range data.length).filter fun i => (data.getD i none).isNone
  match lost with
  | [] => some have0
  | [x] =>
    match p, q with
    | some p, _ => some (have0.set x (xorBytes p pq.1))
    | none, some q => some (have0.set x (gfScale (gfPowInv x) (xorBytes q pq.2)))
    | none, none => none
  | [x, y] =>
    match p, q with
    | some p, some q =>
      let p' := xorBytes p pq.1
      let q' := xorBytes q pq.2
      let dx := gfScale (gfInv (gfPow x ^^^ gfPow y)) (xorBytes q' (gfScale (gfPow y) p'))
      some ((have0.set x dx).set y (xorBytes p' dx))
    | _, _ => none
  | _ => none

/-- All k + 2 units of a row, the lost ones reconstructed. -/
def rebuildRow (n k : Nat) (units : List (Option Bytes)) : Option (List Bytes) :=
  (rebuildData n (units.take k) (units.getD k none) (units.getD (k + 1) none)).map fun d =>
    let pq := parityPQ n d
    d ++ [pq.1, pq.2]

/-! ## AES-256-GCM (NIST SP 800-38D) -/

/-- The AES inverse in the field 0x11B: a^254. -/
def aesInv (a : Byte) : Byte := (List.range 253).foldl (fun r _ => gfMulPoly 0x1B r a) a

/-- The AES S-box: inverse and affine map. -/
def aesSub (a : Byte) : Byte :=
  let i := aesInv a
  i ^^^ i.rotateLeft 1 ^^^ i.rotateLeft 2 ^^^ i.rotateLeft 3 ^^^ i.rotateLeft 4 ^^^ 0x63

/-- Key expansion of AES-256: words as 4-byte lists, newest first. -/
def aesExpand : Nat → Nat → Byte → List Bytes → List Bytes
  | 0, _, _, ws => ws
  | n + 1, i, rc, ws =>
    let t := ws.getD 0 []
    let t' :=
      if i % 8 = 0 then
        match (t.drop 1 ++ t.take 1).map aesSub with
        | x :: xs => (x ^^^ rc) :: xs
        | [] => []
      else if i % 8 = 4 then t.map aesSub else t
    aesExpand n (i + 1) (if i % 8 = 0 then gfDouble 0x1B rc else rc) (xorBytes (ws.getD 7 []) t' :: ws)

/-- The fifteen round keys of a 32-byte key. -/
def aesKeys (key : Bytes) : List Bytes :=
  let k := fit 32 key
  let ws := (aesExpand 52 8 1 (((List.range 8).map fun i => slice (4 * i) 4 k).reverse)).reverse
  (List.range 15).map fun r => ((ws.drop (4 * r)).take 4).flatten

/-- ShiftRows on a column-major state. -/
def aesShift (s : Bytes) : Bytes := (List.range 16).map fun i => s.getD ((i + 4 * (i % 4)) % 16) 0

/-- MixColumns. -/
def aesMix (s : Bytes) : Bytes := (List.range 16).map fun i =>
  let c := i / 4 * 4
  let a := fun k => s.getD (c + (i + k) % 4) 0
  gfDouble 0x1B (a 0) ^^^ gfDouble 0x1B (a 1) ^^^ a 1 ^^^ a 2 ^^^ a 3

/-- One block of AES-256 under its round keys. -/
def aesBlock (ks : List Bytes) (b : Bytes) : Bytes :=
  let s := xorBytes (fit 16 b) (ks.getD 0 [])
  let s := ((ks.drop 1).take 13).foldl (fun s k => xorBytes (aesMix (aesShift (s.map aesSub))) k) s
  xorBytes (aesShift (s.map aesSub)) (ks.getD 14 [])

/-- Multiplication in the GHASH field, blocks as 128-bit numbers, most significant bit first. -/
def ghashMul (x y : BitVec 128) : BitVec 128 :=
  ((List.range 128).foldl (fun (zv : BitVec 128 × BitVec 128) i =>
    let z := if x.getMsbD i then zv.1 ^^^ zv.2 else zv.1
    let v := if zv.2.getLsbD 0 then (zv.2 >>> 1) ^^^ 0xE1000000000000000000000000000000#128 else zv.2 >>> 1
    (z, v)) (0, y)).1

def block128 (b : Bytes) : BitVec 128 := BitVec.ofNat 128 (beNat (fit 16 b))

/-- GHASH of a byte string padded to blocks. -/
def ghash (h : BitVec 128) (bs : Bytes) : BitVec 128 :=
  overBlocks 16 (fun y b => ghashMul (y ^^^ block128 b) h) (bs.length / 16) bs 0

/-- Counter mode from counter `n` for `k` blocks. -/
def gcmStream (ks : List Bytes) (iv : Bytes) : Nat → Nat → Bytes
  | 0, _ => []
  | k + 1, n => aesBlock ks (iv ++ beBytes 4 n) ++ gcmStream ks iv k (n + 1)

/-- AES-256-GCM: ciphertext and 16-byte tag (R133). -/
def gcmSeal (key iv aad pt : Bytes) : Bytes × Bytes :=
  let ks := aesKeys key
  let ct := xorBytes pt (gcmStream ks iv (ceilDiv pt.length 16) 2)
  let h := block128 (aesBlock ks (zeros 16))
  let s := ghash h (padTo 16 aad ++ padTo 16 ct ++ beBytes 8 (8 * aad.length) ++ beBytes 8 (8 * ct.length))
  (ct, xorBytes (beBytes 16 s.toNat) (aesBlock ks (iv ++ beBytes 4 1)))

/-- The plaintext when the tag verifies. -/
def gcmOpen (key iv aad ct tag : Bytes) : Option Bytes :=
  let ks := aesKeys key
  let h := block128 (aesBlock ks (zeros 16))
  let s := ghash h (padTo 16 aad ++ padTo 16 ct ++ beBytes 8 (8 * aad.length) ++ beBytes 8 (8 * ct.length))
  if xorBytes (beBytes 16 s.toNat) (aesBlock ks (iv ++ beBytes 4 1)) = tag then
    some (xorBytes ct (gcmStream ks iv (ceilDiv ct.length 16) 2))
  else none

end Sys2Proof.Machine
end

