-- ==== Sys2Proof/Machine/Ops.lean ====
section
/-!
DEFINITION. The named operations every family uses: free values, Barker raises with their condition bits (R323), Attic records
(R326 to R330), and the head's output.
-/

namespace Sys2Proof.Machine

open Sys2Proof

/-! ## Free values and output -/

/-- Advance the free-value counter. -/
def Head.spend (h : Head) : Head := { h with free := h.free + 1 }

/-- A free number of the step. -/
def Head.freeNat (h : Head) : Nat := Config.freeNat h.free

/-- `n` free bytes of the step. -/
def Head.freeBytes (h : Head) (n : Nat) : Bytes := fit n (Config.freeBytes h.free)

/-- Send something out of the head. -/
def Head.emit (h : Head) (o : Out) : Head := { h with out := o :: h.out }

/-- Send several things, first one first. -/
def Head.emits (h : Head) (os : List Out) : Head := { h with out := os.reverse ++ h.out }

/-- The effect of a list of things, in order. -/
def Head.forEach {α : Type} (h : Head) (l : List α) (f : Head → α → Head) : Head := l.foldl f h

/-- `f` when the condition holds. -/
def Head.when (h : Head) (c : Bool) (f : Head → Head) : Head := if c then f h else h

/-- PTP time in ns (R233): the model's clock from `ptpBase`. -/
def Head.ptpNs (h : Head) : Nat := h.whl.ptpBase + 1000 * h.now

/-- 1 µs of time (log 1). -/
def Head.tick (h : Head) : Head := { h with now := h.now + 1 }

/-! ## Barker -/

/-- The condition bit that a source sets in its block's event register. -/
def evtBit (s : Nat) : Option (Nat × Nat) :=
  if 296 ≤ s ∧ s ≤ 302 then some (Adr.HQE_EVT, s - 296)
  else if 288 ≤ s ∧ s < 296 then some (Adr.HQE_EVT, s - 280)
  else if 784 ≤ s ∧ s ≤ 791 then some (Adr.LDR_EVT, s - 784)
  else if 864 ≤ s ∧ s ≤ 870 then some (Adr.STG_EVT, s - 864)
  else if 872 ≤ s ∧ s ≤ 874 then some (Adr.STG_EVT, s - 865)
  else if 880 ≤ s ∧ s ≤ 882 then some (Adr.DGT_EVT, s - 880)
  else if 544 ≤ s ∧ s ≤ 552 then some (Adr.PTY_EVT, s - 544)
  else if 560 ≤ s ∧ s ≤ 572 then some (Adr.MND_EVT, s - 560)
  else if 416 ≤ s ∧ s < 432 then some (Adr.SHF_EVT, s - 416)
  else if 432 ≤ s ∧ s ≤ 441 then some (Adr.SHF_EVT, s - 416)
  else if 672 ≤ s ∧ s ≤ 678 then some (Adr.WHL_EVT, s - 672)
  else if s = 680 then some (Adr.WHL_EVT, 7)
  else if 608 ≤ s ∧ s ≤ 627 then some (Adr.TRP_EVT, s - 608)
  else if s = 736 then some (Adr.PAN_EVT, 0)
  else if s = 739 then some (Adr.PAN_EVT, 1)
  else if 741 ≤ s ∧ s ≤ 746 then some (Adr.MEM_EVT, s - 741)
  else if s = 748 then some (Adr.MEM_EVT, 6)
  else if s = 737 then some (Adr.MEM_EVT, 7)
  else if s = 738 then some (Adr.MEM_EVT, 8)
  else if 800 ≤ s ∧ s ≤ 807 then some (Adr.PWR_EVT, s - 800)
  else if 808 ≤ s ∧ s ≤ 820 then some (Adr.CAL_EVT, s - 808)
  else if s = 1000 then some (Adr.BRK_STATUS, 18)
  else if 992 ≤ s ∧ s ≤ 999 then some (Adr.ATC_EVT, s - 992)
  else if s = 1001 then some (Adr.ATC_EVT, 8)
  else if 936 ≤ s ∧ s ≤ 950 then some (Adr.FWU_EVT, s - 936)
  else if s < 288 ∧ s % 8 = 4 then some (Adr.BTH_CMP_LAST_ERR (s / 8), 31)
  else none

/-- Write back a source's state; an idle source is not listed. -/
def Head.putSrc (h : Head) (x : SrcState) : Head :=
  { h with brk :=
      let rest := h.brk.filter (·.src != x.src)
      if x.pending || x.inService || x.again then x :: rest else rest }

/-- What a raise does to a source (R323): PENDING; a REPEAT when it already pends; PENDING_AGAIN while it is in service. -/
def SrcState.raised (x : SrcState) : SrcState :=
  if x.inService then { x with again := true }
  else if x.pending then { x with rep := min 255 (x.rep + 1) }
  else { x with pending := true }

/-- Raise a Barker source (R323) and set its block's condition bit. -/
def Head.raise (h : Head) (s : Nat) : Head :=
  let h := h.putSrc (h.src s).raised
  match evtBit s with
  | none => h
  | some (a, b) => h.orReg a (BitVec.ofNat 32 (2 ^ b))

/-! ## Attic records -/

/-- Count a dropped record (R328, R330): the drop counter of its severity, saturating, and source 996 at most once per second. -/
def Head.dropRecord (h : Head) (sev : Nat) : Head :=
  let h := { h with atc := { h.atc with drops := h.atc.drops.modify sev fun n => sat32 (n + 1) } }
  if h.atc.lastDropRaise.all fun t => decide (t + 1000000 ≤ h.now) then
    ({ h with atc := { h.atc with lastDropRaise := some h.now } }).raise 996
  else h

/-- The snapshot words of set `s` that fit behind `n` payload bytes, and whether more were left out (R326). -/
def Head.snapshot (h : Head) (s n : Nat) : List Word × Bool :=
  let addrs := (h.atc.set s).2
  let room := (92 - ceilDiv n 4 * 4) / 4
  ((addrs.take room).map h.readReg, decide (room < addrs.length))

/-- Form a record (R326). -/
def Head.formRecord (h : Head) (sev src code : Nat) (payload : Bytes) : AtticRec :=
  let set := if src = 0xFFFF then 0 else h.srcSet src
  let (words, trunc) := h.snapshot set payload.length
  { seq := h.atc.nextSeq, opSec := h.opNow, cycles := h.cel.cycles, severity := sev, flags := flag trunc,
    source := src, code := code, payload := payload, snaps := words, set := set, setGen := (h.atc.set set).1 % 256,
    calendar := if h.cel.calValid then h.calNow % 2 ^ 32 else 0 }

/-- Form a record and enter it in the 256-entry queue, or drop it (R328). -/
def Head.enqueue (h : Head) (sev src code : Nat) (payload : Bytes) : Head :=
  if 256 ≤ h.atc.queue.length then h.dropRecord sev
  else
    { h with atc := { h.atc with queue := h.atc.queue ++ [h.formRecord sev src code payload], nextSeq := h.atc.nextSeq + 1 } }

/-- Severities. -/
def sevInfo : Nat := 0
def sevNotice : Nat := 1
def sevFault : Nat := 2
def sevCritical : Nat := 3

/-- A record that accompanies a source. -/
def Head.record (h : Head) (sev src : Nat) (payload : Bytes) : Head :=
  h.enqueue sev src (Config.recordCode src sev) payload

/-- A record without a source (R327). -/
def Head.plainRecord (h : Head) (sev code : Nat) (payload : Bytes) : Head := h.enqueue sev 0xFFFF code payload

/-- Raise a source with its record. -/
def Head.report (h : Head) (s sev : Nat) (payload : Bytes) : Head := (h.raise s).record sev s payload

/-- A command that acts on the head alone: memory and the waiting commands stay. -/
def State.act (s : State) (f : Head → Head) : Host.Outcome State Fault Refusal := .next { s with head := f s.head }

end Sys2Proof.Machine
end

