-- ==== Sys2Proof/Machine/HostOps.lean ====
section
/-!
DEFINITION. Operations of the host queue engine: contexts, completions, asynchronous events, freezes, the overlap fence, the
order of refusals and the end of queues and controllers (03_host_queues_and_ordering.md).
-/

namespace Sys2Proof.Machine

open Sys2Proof

/-! ## Tables -/

def Hqe.ctrl? (q : Hqe) (n : Nat) : Option Ctrl := q.ctrls.find? (·.cntlid == n)
def Hqe.qpair? (q : Hqe) (c s : Nat) : Option QPair := q.qpairs.find? fun p => p.cntlid == c && p.qid == s
/-- A context of the pool or a STAGE-IN hold context. -/
def Hqe.ctx? (q : Hqe) (n : Nat) : Option Ctx := (q.ctxs ++ q.holdCtxs).find? (·.id == n)
def Hqe.ns? (q : Hqe) (n : Nat) : Option Namespace := q.namespaces.find? (·.nsid == n)

def Head.modHqe (h : Head) (f : Hqe → Hqe) : Head := { h with hqe := f h.hqe }
def Head.modDp (h : Head) (f : Dp → Dp) : Head := { h with dp := f h.dp }
def Head.modLdr (h : Head) (f : Ldr → Ldr) : Head := { h with ldr := f h.ldr }

def Head.modCtrl (h : Head) (n : Nat) (f : Ctrl → Ctrl) : Head :=
  h.modHqe fun q => { q with ctrls := q.ctrls.map fun c => if c.cntlid = n then f c else c }
def Head.modQpair (h : Head) (c s : Nat) (f : QPair → QPair) : Head :=
  h.modHqe fun q => { q with qpairs := q.qpairs.map fun p => if p.cntlid = c ∧ p.qid = s then f p else p }
def Head.modCtx (h : Head) (n : Nat) (f : Ctx → Ctx) : Head :=
  h.modHqe fun q => { q with
    ctxs := q.ctxs.map fun c => if c.id = n then f c else c
    holdCtxs := q.holdCtxs.map fun c => if c.id = n then f c else c }

/-- Run `f` on a context; nothing where it is absent. -/
def Head.withCtx (h : Head) (n : Nat) (f : Ctx → Head) : Head :=
  match h.hqe.ctx? n with
  | none => h
  | some c => f c

/-- Run the command of a context that is ready for its own row: the opcode is the row's and the fence and the checks have
passed (R54, R65, R380). -/
def Head.ready (h : Head) (n : Nat) (admin : Bool) (op : Nat) (f : Ctx → Head) : Head :=
  h.withCtx n fun c => if c.phase = .ready ∧ c.admin = admin ∧ c.cap.opcode = op ∧ (admin ∨ h.pwr.level < 3) then f c else h

/-- In flight: from fetch until its completion is posted or it has ended (R54). -/
def Ctx.inFlight (c : Ctx) : Bool := c.phase != .done

/-! ## Completions -/

/-- Post a completion on the context's queue, unless it runs on without one (R80), and record a media error in log 0x01; the
More bit is set only when that log holds an entry for the command (R74). -/
def Head.post (h : Head) (c : Ctx) (st : Status) (dw0 : Nat) : Head :=
  if c.silent then h
  else
    let sqhd := ((h.hqe.qpair? c.cntlid c.qid).map (·.sqhd)).getD 0
    let logged := decide (st.sct = 2)
    let h := h.when logged fun h => h.modHqe fun q =>
      { q with errors := ((c.cntlid, c.qid, c.cap.cid, st.field) :: q.errors).take 64 }
    h.emit (.completion c.cntlid c.qid c.cap.cid st dw0 logged sqhd)

/-- Free in-capsule slots of a queue pair and of its port (R51). -/
def Head.freeSlots (h : Head) (c s n : Nat) : Head :=
  match h.hqe.qpair? c s with
  | none => h
  | some q =>
    let h := h.modQpair c s fun q => { q with slots := q.slots - n }
    h.modHqe fun t => { t with portSlots := assocSet q.port (assocGet q.port 0 t.portSlots - n) t.portSlots }

/-- The command still holds its in-capsule slot: that of a Write or a Compare has not moved to a booth, and any other keeps it until it
ends (R51). -/
def Ctx.holdsSlot (c : Ctx) : Bool :=
  c.cap.inCapsule.isSome && c.phase != .done &&
    !((c.cap.opcode == opWrite || c.cap.opcode == opCompare) && (c.phase == .running || c.phase == .waitAck))

/-- Post a completion and end the command; its context returns by COMMAND_CONTEXT_FREED (R54). -/
def Head.complete (h : Head) (c : Ctx) (st : Status) (dw0 : Nat) : Head :=
  let h := (h.post c st dw0).modCtx c.id fun x => { x with phase := .done, refs := [], waits := [] }
  let h := h.when (!c.admin) fun h => h.modHqe fun q => { q with lastIo := h.now }
  h.when c.holdsSlot fun h => h.freeSlots c.cntlid c.qid 1

/-- End a command without a completion (R53, R80); a STAGE-IN's demands are withdrawn unless other commands share them (R236). -/
def Head.endCtx (h : Head) (n : Nat) : Head :=
  let h := { h with shf := { h.shf with demands := h.shf.demands.filterMap fun (d : Demand) =>
    if (d.ctxs.contains n) then (if (d.ctxs.all (· == n)) then none else some { d with ctxs := d.ctxs.filter (· != n) }) else some d } }
  h.modCtx n fun x => { x with phase := .done, silent := true, refs := [], waits := [] }

/-! ## Asynchronous events (R75) -/

/-- The controller has the event enabled: notices by bits 8, 9 and 11 of feature 0x0B, vendor events by feature 0xC1. -/
def Ctrl.wants (c : Ctrl) (e : AsyncEvent) : Bool :=
  if e.type = 2 then
    (if e.info = 0x01 then c.feat0B.getLsbD 9 else if e.info = 0x03 then c.feat0B.getLsbD 11 else c.feat0B.getLsbD 8)
  else if e.info = 0xC1 then c.featC1.getLsbD 0
  else if e.info = 0xC2 then c.featC1.getLsbD 1
  else c.featC1.getLsbD 2

def AsyncEvent.dw0 (e : AsyncEvent) : Nat := e.type + e.info * 0x100 + e.page * 0x10000

/-- Post an event on an outstanding request; it stays retained until its log page is read with RAE clear. -/
def Head.postOn (h : Head) (n ctx : Nat) (e : AsyncEvent) : Head :=
  let h := h.modCtrl n fun c => { c with retained := e :: c.retained, aers := c.aers.filter (·.2 != ctx) }
  let h := h.emit (.event n e.type e.info e.page)
  h.withCtx ctx fun c => h.complete c stSuccess e.dw0

/-- Post an event to one controller once: not while it is retained or waiting. -/
def Head.postTo (h : Head) (e : AsyncEvent) (n : Nat) : Head :=
  match h.hqe.ctrl? n with
  | none => h
  | some c =>
    if !c.wants e || c.retained.contains e || c.events.contains e then h
    else match c.aers with
      | [] => h.modCtrl n fun c => { c with events := c.events ++ [e] }
      | (_, ctx) :: _ => h.postOn n ctx e

/-- Post an event to every controller that has it enabled. -/
def Head.postEvent (h : Head) (type info page : Nat) : Head :=
  h.forEach (h.hqe.ctrls.map (·.cntlid)) fun h n => h.postTo ⟨type, info, page⟩ n

/-- A troupe's ANA state changed on this head (R241). -/
def Head.anaChange (h : Head) : Head := h.postEvent 2 0x03 0x0C

/-- ANA states of R58: 1 Optimized on the Flyer, 3 Inaccessible, 0xF Change. -/
def Trp.ana (t : Trp) : Nat :=
  if t.state = 3 ∨ t.state = 4 ∨ t.state = 5 then 0xF
  else if t.role = 1 ∧ (t.state = 1 ∨ t.state = 2) then 0x1 else 0x3

def Head.modPair (h : Head) (f : Pair → Pair) : Head := { h with pair := f h.pair }

/-- Change a troupe's record; a change of its ANA state posts the ANA Change event (R241). -/
def Head.modTrp (h : Head) (t : Troupe) (f : Trp → Trp) : Head :=
  let old := (h.pair.trp t).ana
  let h := h.modPair fun p => match t with | .a => { p with a := f p.a } | .b => { p with b := f p.b }
  if (h.pair.trp t).ana = old then h else h.anaChange

/-! ## Strict mode and freezes (R67) -/

/-- Statuses that freeze a strict queue. -/
def Status.freezes (s : Status) : Bool := s.sct == 2 && decide (0x81 ≤ s.sc) && decide (s.sc ≤ 0x84)

/-- Freeze the queue of a failing command, or add the failure to its record. -/
def Head.freezeFor (h : Head) (c : Ctx) (st : Status) (f : PiFail) : Head :=
  let strict := ((h.hqe.ns? c.cap.nsid).map (·.strict)).getD false
  if !strict || !st.freezes || c.silent then h
  else match h.hqe.qpair? c.cntlid c.qid with
    | none => h
    | some q =>
      match q.frozen with
      | some _ =>
        h.modQpair c.cntlid c.qid fun q => { q with frozen := q.frozen.map fun z =>
          { z with failCount := min 0xFFFF (z.failCount + 1)
                   later := if z.later.length < 16 then z.later ++ [c.cap.cid] else z.later } }
      | none =>
        let z : Freeze :=
          { nsid := c.cap.nsid, seq := h.hqe.nextFreeze, cid := c.cap.cid, opcode := c.cap.opcode, checkPoint := f.point,
            status := st.field, failCount := 1, slba := c.cap.slba, nlb := c.cap.nlb, failLba := f.lba,
            guardExp := f.guardExp, guardAct := f.guardAct, refExp := f.refExp, refAct := f.refAct, appExp := f.appExp,
            appAct := f.appAct, appMask := f.appMask, site := c.site, time := h.ptpNs }
        let h := h.modQpair c.cntlid c.qid fun q => { q with frozen := some z }
        let h := h.modHqe fun q => { q with nextFreeze := q.nextFreeze + 1 }
        let h := h.modCtrl c.cntlid fun k => { k with freezeGen := k.freezeGen + 1 }
        (h.report 297 sevNotice []).postTo ⟨7, 0xC1, 0xC1⟩ c.cntlid

/-- The status of a protection failure (R62) or of a block that cannot be recovered. -/
def PiFail.status (f : PiFail) : Status := ⟨2, f.sc, false⟩

/-! ## Ending a Write part way -/

/-- The chunk that takes over a dropped chunk's place in the pending table: the first one that waits for it. -/
def Dp.heir (d : Dp) (ctx k : Nat) : Option Nat :=
  (d.pchunks.find? fun p => p.ctx != ctx && p.stage == .pendingWait k).map (·.id)

/-- Drop the chunks of a Write whose map updates are not issued, and the engine input queued for them. A chunk of another Write
that waited for one of them is refuted: the first becomes unique and the others wait for it (R97). Each block of the range keeps
its old data or has the new (R41, R64). -/
def Head.dropWrite (h : Head) (n : Nat) : Head :=
  let d0 := h.dp
  let mine := d0.pchunks.filter (·.ctx == n)
  let ids := mine.map (·.id)
  let handles := mine.filterMap (·.handle)
  let refuted := (d0.pchunks.filter fun p => p.ctx != n && ids.any fun k => p.stage == .pendingWait k).length
  let settle (p : PChunk) : PChunk :=
    match p.stage with
    | .pendingWait k =>
      if ids.contains k then
        match d0.heir n k with
        | none => p
        | some i => if i = p.id then { p with stage := .unique } else { p with stage := .pendingWait i }
      else p
    | _ => p
  let h := h.modDp fun d => { d with
    pchunks := (d.pchunks.filter (·.ctx != n)).map settle
    staged := d.staged.filter fun s => !(handles.contains s.handle)
    booths := d.booths.map fun b =>
      { b with streams := b.streams.map fun s => { s with units := s.units.filter fun u => !ids.contains u.chunk } } }
  h.modLdr fun l => { l with
    cnt := bump 0x5 refuted l.cnt
    pending := l.pending.filterMap fun e =>
      if ids.contains e.2.2 then (d0.heir n e.2.2).map fun i => (e.1, e.2.1, i) else some e }

/-- Fail a command with a protection or media status: the completion is posted, the chunks not yet mapped are dropped, and in
strict mode the queue freezes (R62, R67). -/
def Head.failCtx (h : Head) (c : Ctx) (f : PiFail) : Head :=
  let st := f.status
  ((h.freezeFor c st f).complete c st 0).dropWrite c.id

/-! ## Pacing (R4, R5) -/

/-- Dirty staging in bytes. -/
def Dp.dirtyBytes (d : Dp) : Nat := ((d.staged.filter fun s => s.dirty && !s.mirror).map (·.bytes.length)).sum

/-- The beat log of a troupe has no room (R248). -/
def Head.blogFull (h : Head) (t : Troupe) : Bool :=
  (h.pair.trp t).state == 2 && decide (max 64 (h.fld (Adr.TRP_BLOG_SIZE (troupeBit t)) 15 0) * 0x100000 ≤ (h.pair.trp t).blogUsed)

/-- Intake of Writes is paced (R4, R5, R179, R248): dirty staging has reached the limit in effect, the Iclin link carries no more,
a launch waits for the journal area, the beat log is full, or a rebuild at its floor fills a port (R196). -/
def Head.paced (h : Head) : Bool :=
  decide (h.memc.dirtyLimitMib * 0x100000 ≤ h.dp.dirtyBytes) || h.pair.pacing || h.pty.jrnWait.1 || h.pty.jrnWait.2 ||
    h.blogFull .a || h.blogFull .b || h.mnd.floorPace

/-! ## The overlap fence (R65, R66) -/

/-- Two ranges (SLBA, blocks) share a block. -/
def shareBlock (a b : Nat × Nat) : Bool := decide (a.1 < b.1 + b.2 ∧ b.1 < a.1 + a.2)

/-- The ranges of a Dataset Management command from its data: 16 bytes a range, attributes, length, SLBA. -/
def dsmRanges : Nat → Bytes → List (Nat × Nat)
  | 0, _ => []
  | n + 1, bs => (leAt 8 8 bs, leAt 4 4 bs) :: dsmRanges n (bs.drop 16)

/-- LBA ranges a capsule covers, as (SLBA, blocks). A Dataset Management command whose data has not arrived covers every
block until its ranges are known (log 12). -/
def capsuleRanges (c : Capsule) : List (Nat × Nat) :=
  if c.opcode = opDsm then
    match c.inCapsule with
    | some d => dsmRanges (c.dw10.toNat % 256 + 1) d
    | none => [(0, 2 ^ 64)]
  else [(c.slba, c.nlb + 1)]

def rangesShare (a b : List (Nat × Nat)) : Bool := a.any fun x => b.any (shareBlock x)

/-- A younger command must wait for an older fetched one. -/
def fenceHeld (young old : Ctx) : Bool :=
  !old.admin && old.inFlight && old.cap.nsid == young.cap.nsid && decide (old.arrival < young.arrival) &&
    rangesShare young.ranges old.ranges &&
    (if young.cap.isReader then old.cap.isWriter
     else if young.cap.isWriter then
       (old.cap.isWriter && !old.issued) || (old.cap.isReader && !old.resolved)
     else false)

/-- A younger command must wait for an older one still in a submission queue buffer (R66). -/
def fenceHeldUnfetched (young : Ctx) (e : Entry) : Bool :=
  e.cap.nsid == young.cap.nsid && decide (e.arrival < young.arrival) && rangesShare young.ranges (capsuleRanges e.cap) &&
    (if young.cap.isReader then e.cap.isWriter else if young.cap.isWriter then e.cap.isWriter || e.cap.isReader else false)

/-- Entries of the buffers that take part in the fence: those of I/O queues that are not frozen. -/
def Hqe.fenceEntries (q : Hqe) : List Entry :=
  (q.qpairs.filter fun p => p.qid != 0 && p.frozen.isNone).flatMap (·.entries)

/-- The command waits at the overlap fence. -/
def Head.mustWait (h : Head) (c : Ctx) : Bool :=
  !c.admin && (h.hqe.ctxs.any (fenceHeld c) || h.hqe.fenceEntries.any (fenceHeldUnfetched c))

/-! ## Refusals in order (R380) -/

/-- Beats until a troupe leaves ANA Change, rounded up; 0xFFFF unknown (R71). -/
def Head.estBeats (h : Head) (t : Troupe) : Nat :=
  let p := h.pair.trp t
  let left (b : Nat) := min 0xFFFF (b - h.whl.beat)
  if p.state = 5 then (p.handover.map fun x => left x.beat).getD 0xFFFF
  else if p.state = 3 then (if p.outcome = 0 then 0xFFFF else left p.outcomeBeat)
  else if p.state = 4 ∧ (if t = .a then h.pair.confirmed.getLsbD 0 else h.pair.confirmed.getLsbD 1) then
    left (h.whl.beat + 1)
  else 0xFFFF

/-- Row 4: the state of the namespace's troupe on this head (R11, R241), or a start phase other than SERVICE (R347). -/
def Head.troupeRefuses (h : Head) (t : Troupe) : Option (Status × Nat) :=
  let p := h.pair.trp t
  let change (cause : Nat) := some (stTakeover, troupeBit t + cause * 0x10 + h.estBeats t * 0x10000)
  if h.fwu.phase ≠ 0 then some (stNotReady, 0)
  else match p.state with
    | 0 => some (stNotReady, 0)
    | 3 => change 1
    | 4 => change 0
    | 5 => change 2
    | 6 => some (stInaccessible, 0)
    | 7 => some (stInaccessible, 0)
    | _ => if p.role = 1 then none else some (stInaccessible, 0)

/-- Row 5: declared lengths and range (R63). MDTS bounds the commands that move data. -/
def lengthRefuses (n : Namespace) (c : Capsule) (ranges : List (Nat × Nat)) : Option (Status × Nat) :=
  let moves := c.opcode == opRead || c.opcode == opWrite || c.opcode == opCompare
  let range :=
    if c.opcode = opFlush ∨ (c.opcode = opDsm ∧ ranges = []) then false
    else if c.opcode = opStageIn ∨ c.opcode = opStageRelease then decide (n.size < c.slba + c.stageNlb + 1)
    else ranges.any fun r => decide (n.size < r.1 + r.2)
  if moves ∧ 2048 < c.nlb + 1 then some (stInvalidField, 0)
  else if range then some (stLbaRange, 0)
  else if moves then
    match c.inCapsule with
    | some d => if d.length ≠ c.required then some (stSglLength, 0) else none
    | none => if c.declared < c.required then some (stSglLength, 0) else none
  else none

/-- Row 6: the dedup domain is disabled, its write key cannot be used, or its salt is not yet on both heads (R71, R140). -/
def Head.domainLocked (h : Head) (d : Nat) : Bool :=
  let ws := (h.stg.entry d).1
  let st := (h.stg.slot ws).state
  match h.domain d with
  | none => true
  | some e =>
    e.enable == 0 || ws == 0xFF || st == 0 || st == 1 ||
      (e.verify != 0 && (!(h.stg.salts.any (·.1 == e.saltIndex)) || h.stg.saltWait.contains e.saltIndex))

/-- Row 7: the key has reached retirement without a successor (R73). -/
def Head.keyRetired (h : Head) (d : Nat) : Bool := (h.stg.slot (h.stg.entry d).1).state == 3

/-- The first reason to refuse an I/O command (R380): status and completion dword 0. -/
def Head.ioRefusal (h : Head) (c : Capsule) (ranges : List (Nat × Nat)) : Option (Status × Nat) :=
  if !ioOpcode c.opcode then some (stInvalidOpcode, 0)
  else
    let all := c.opcode == opFlush && c.nsid == 0xFFFFFFFF
    if all then (if h.stg.erasing then some (stSanitizing, 0) else none)
    else match h.hqe.ns? c.nsid with
      | none => some (stInvalidNs, 0)
      | some n =>
        if h.stg.erasing then some (stSanitizing, 0)
        else match h.troupeRefuses n.troupe with
          | some r => some r
          | none =>
            match lengthRefuses n c ranges with
            | some r => some r
            | none =>
              if c.opcode = opFlush then none
              else if h.domainLocked n.domain then some (stLocked, n.domain)
              else if (c.opcode = opWrite ∨ c.opcode = opWriteZeroes ∨ c.opcode = opCompare) ∧ h.keyRetired n.domain then
                some (stRetired, (h.stg.entry n.domain).1)
              else none

/-! ## The end of queues and controllers (R53, R64, R80) -/

/-- The fate of a fetched command when its queue or controller ends: a Write whose data has all arrived runs on without a
completion; every other command ends, and a Write part way is abandoned. -/
def Head.endCommand (h : Head) (c : Ctx) : Head :=
  if !c.inFlight then h
  else if c.cap.opcode = opWrite ∧ !c.admin ∧ c.got = c.cap.required ∧ (c.phase = .running ∨ c.phase = .waitAck) then
    h.modCtx c.id fun x => { x with silent := true }
  else if c.cap.opcode = opWrite ∧ !c.admin then (h.endCtx c.id).dropWrite c.id
  else h.endCtx c.id

/-- End a queue pair: unfetched entries are discarded, fetched commands take their fates, its resources return. -/
def Head.endQueue (h : Head) (c s : Nat) : Head :=
  match h.hqe.qpair? c s with
  | none => h
  | some q =>
    let h := h.forEach ((h.hqe.ctxs ++ h.hqe.holdCtxs).filter fun x => x.cntlid == c && x.qid == s) Head.endCommand
    let h := h.freeSlots c s q.slots
    h.modHqe fun t => { t with qpairs := t.qpairs.filter fun p => !(p.cntlid == c && p.qid == s) }

/-- A host NQN without its terminating zero bytes. -/
def stripZeros (bs : Bytes) : Bytes := (bs.reverse.dropWhile (· == 0)).reverse

/-! ## Reversal of a power-state entry (R79, R291) -/

def Domain.get (l : List Domain) (d : Nat) : Domain := (l.find? (·.dom == d)).getD { dom := d }

/-- Every ring of the grade has power: the enabled domains of those that were off are ready (R282, R288). -/
def Head.allRings (h : Head) : Head :=
  let off := (List.range 4).filter fun r => bitAt r h.ringMask && !h.pwr.ringsOn.getLsbD r
  let on (d : Nat) := (off.any fun r => d == 36 + r || d / 9 == r) &&
    (((h.tsi.sections.pdom.getD [])[d]?).map fun e => bitAt 0 e.flags).getD false
  { h with pwr := { h.pwr with
    ringsOn := BitVec.ofNat 4 h.ringMask, ringsKept := BitVec.ofNat 4 h.ringMask, demandWoken := []
    domains := ((List.range 40).filter on).map (fun d => { Domain.get h.pwr.domains d with state := 2 }) ++
      h.pwr.domains.filter fun x => !(decide (x.dom < 40) && on x.dom) } }

/-- Tell the peer roles, states and lines. -/
def Head.tellRoles (h : Head) : Head :=
  if h.pair.icl then h.emit (.control (.roles h.pair.a.role h.pair.b.role h.pair.a.state h.pair.b.state h.pair.hold)) else h

/-- A handover of an entry that has not passed its commit point is withdrawn: the head keeps the troupe (R291). -/
def Head.withdraw (h : Head) (t : Troupe) : Head :=
  match (h.pair.trp t).handover with
  | none => h
  | some x =>
    if !x.giving || x.committed then h
    else ((h.modTrp t fun p => { p with handover := none, state := if p.state = 5 then 1 else p.state }).emit
      (.control (.handover t 0 false))).tellRoles

/-- The head returns to RUN: the rings wake, handovers that have not passed their commit point are withdrawn, a troupe that was closing goes
on, and the peer is told; source 301. -/
def Head.backToRun (h : Head) (e : PowerEntry) : Head :=
  let h := { h.allRings with pwr := { h.allRings.pwr with entry := none, state := 0 } }
  let h := (h.withdraw .a).modTrp .a fun p => { p with closing := false }
  let h := (h.withdraw .b).modTrp .b fun p => { p with closing := false }
  let h := if h.pair.icl ∧ 2 < e.target then h.emit (.control (.powerEntry 0)) else h
  h.raise 301

/-- Reverse a power-state entry whose reply is lost (R80): released commands run. -/
def Head.reverseEntry (h : Head) : Head :=
  match h.pwr.entry with
  | none => h
  | some e =>
    if e.portsDown then h
    else
      let free (c : Ctx) : Ctx := if c.powerHeld then { c with powerHeld := false, phase := .fence } else c
      (h.backToRun e).modHqe fun q => { q with ctxs := q.ctxs.map free, holdCtxs := q.holdCtxs.map free }

/-- A reset or the end of the downloading controller closes its download (16 R355). -/
def Head.closeDownload (h : Head) (n : Nat) : Head :=
  if h.fwu.dlOpen ∧ h.fwu.dlCtrl = n then { h with fwu := { h.fwu with dlOpen := false } } else h

/-- End a controller (R53): its commands take their fates, its freeze records are discarded, its resources return, source 296
is raised with the CNTLID and the host NQN digest, and a power-state entry it asked for is reversed (R80). -/
def Head.endController (h : Head) (n : Nat) : Head :=
  match h.hqe.ctrl? n with
  | none => h
  | some k =>
    let entryCtx := (h.pwr.entry.bind (·.ctx)).bind h.hqe.ctx?
    let h := h.forEach ((h.hqe.qpairs.filter (·.cntlid == n)).map (·.qid)) fun h s => h.endQueue n s
    let h := h.modHqe fun q => { q with ctrls := q.ctrls.filter (·.cntlid != n) }
    let h := { h with shf := { h.shf with holds := h.shf.holds.filter (·.cntlid != n) } }
    let h := h.when ((entryCtx.map (·.cntlid)) == some n) Head.reverseEntry
    let h := h.closeDownload n
    h.report 296 sevInfo (leBytes 2 n ++ sha256 (stripZeros k.hostNqn))

end Sys2Proof.Machine
end

