-- ==== Sys2Proof/Machine/MapOps.lean ====
section
/-!
DEFINITION. The map: orders (11_troupes_flyer_catcher_baton.md R244), extents, reference counts, the index and the two summary
filters (04_chunking_and_dedup.md R90 to R95, R99, R100; 08_block_protection_and_stripes.md R162, R166).
-/

namespace Sys2Proof.Machine

open Sys2Proof

/-! ## Tables of 16-bit tags (R90, R94) -/

abbrev TagTable := List (Nat × List Nat)

def tagsAt (t : TagTable) (k : Nat) : List Nat := assocGet k [] t
def putTags (t : TagTable) (k : Nat) (tags : List Nat) : TagTable :=
  if tags = [] then t.filter (fun e => decide (e.1 ≠ k)) else assocSet k tags t

/-- Put a tag into a bucket with room, or move a resident tag to its other bucket, up to `fuel` moves; which resident moves is
not stated (`pick`, log 7). Answers the table and the tag left over with its bucket. -/
def tagMoves (cap : Nat) (other : Nat → Nat → Nat) (pick : Nat → Nat) :
    Nat → TagTable → Nat → Nat → TagTable × Option (Nat × Nat)
  | 0, t, k, tag => (t, some (tag, k))
  | n + 1, t, k, tag =>
    let b := tagsAt t k
    if b.length < cap then (putTags t k (tag :: b), none)
    else
      let i := pick n % cap
      let v := b.getD i 0
      tagMoves cap other pick n (putTags t k (b.set i tag)) (other k v) v

/-- Insert a tag into one of its two buckets; when both are full, by up to `moves` moves. -/
def tagInsert (cap moves : Nat) (other : Nat → Nat → Nat) (pick : Nat → Nat) (t : TagTable) (k tag : Nat) :
    TagTable × Option (Nat × Nat) :=
  if (tagsAt t k).length < cap then (putTags t k (tag :: tagsAt t k), none)
  else
    let k2 := other k tag
    if (tagsAt t k2).length < cap then (putTags t k2 (tag :: tagsAt t k2), none)
    else tagMoves cap other pick (moves + 1) t k tag

/-- Remove one copy of a tag from its two buckets. -/
def tagDelete (t : TagTable) (k k2 tag : Nat) : TagTable :=
  if (tagsAt t k).contains tag then putTags t k ((tagsAt t k).erase tag)
  else if (tagsAt t k2).contains tag then putTags t k2 ((tagsAt t k2).erase tag)
  else t

/-! ## The Larder (R90 to R92) -/

/-- A tag field with 0 replaced by 1. -/
def tagOf (n : Nat) : Nat := if n = 0 then 1 else n

def larderBank (fp : Bytes) : Nat := leAt 0 4 fp % 6
def larderI1 (fp : Bytes) : Nat := leAt 4 4 fp % 2 ^ 19
def larderTag (fp : Bytes) : Nat := tagOf (leAt 8 2 fp)
/-- The other bucket of a tag: xor with (t × 0x5BD1_E995 mod 2^32) >> 13. -/
def larderXor (i tag : Nat) : Nat := i ^^^ (tag * 0x5BD1E995 % 2 ^ 32 / 2 ^ 13)
/-- Key of a bucket: generation, bank in it, bucket. -/
def larderKey (g bank i : Nat) : Nat := (g * 6 + bank) * 524288 + i
/-- The other bucket, in keys. -/
def larderOther (k tag : Nat) : Nat := k / 524288 * 524288 + larderXor (k % 524288) tag

/-- Does a generation hold the fingerprint's tag? -/
def Ldr.genHolds (l : Ldr) (g : Nat) (fp : Bytes) : Bool :=
  let k := larderKey g (larderBank fp) (larderI1 fp)
  (tagsAt l.larder k).contains (larderTag fp) || (tagsAt l.larder (larderOther k (larderTag fp))).contains (larderTag fp)

/-- A probe reads the addressed bank of every generation but one that is being cleared (R90, R91). -/
def Ldr.larderHit (l : Ldr) (fp : Bytes) : Bool :=
  (List.range 4).any fun g => l.clearing != some g && l.genHolds g fp

/-- GEN_FILL_PCT: 50 to 95; other values act as 90. -/
def Head.genFillPct (h : Head) : Nat :=
  let p := h.fld Adr.LDR_CTRL 15 8
  if 50 ≤ p ∧ p ≤ 95 then p else 90

/-- Insert a fingerprint's tag into the current generation, once (R90). -/
def Head.larderInsert (h : Head) (fp : Bytes) : Head :=
  if !h.bit Adr.LDR_CTRL 0 || h.ldr.genHolds h.ldr.curGen fp then h
  else
    let k := larderKey h.ldr.curGen (larderBank fp) (larderI1 fp)
    let (t, _) := tagInsert 4 32 larderOther (fun n => Config.freeNat (h.free + n)) h.ldr.larder k (larderTag fp)
    (h.modLdr fun l => { l with larder := t }).spend

/-- Delete a fingerprint's Larder tag when it is present (R100). -/
def Head.larderDelete (h : Head) (fp : Bytes) : Head :=
  h.modLdr fun l =>
    match (List.range 4).find? fun g => l.genHolds g fp with
    | none => l
    | some g =>
      let k := larderKey g (larderBank fp) (larderI1 fp)
      { l with larder := tagDelete l.larder k (larderOther k (larderTag fp)) (larderTag fp) }

/-! ## The far filter (R93, R94) -/

def Head.farValid (h : Head) : Bool := h.bit Adr.LDR_FAR_SIZE 7
/-- log2 of the number of 64-byte buckets of the region. -/
def Head.farLog (h : Head) : Nat := min 11 (h.fld Adr.LDR_FAR_SIZE 3 0) + 24
def farTag (fp : Bytes) : Nat := tagOf (leAt 16 2 fp)
def Head.farJ1 (h : Head) (fp : Bytes) : Nat := leAt 18 6 fp % 2 ^ h.farLog
/-- The other bucket: xor with (u × 0xC2B2_AE3D_27D4_EB4F mod 2^64) >> (64 − log2 N). -/
def farOther (log j tag : Nat) : Nat := j ^^^ (tag * 0xC2B2AE3D27D4EB4F % 2 ^ 64 / 2 ^ (64 - log))

/-- A probe reads both buckets and the stash. -/
def Head.farHit (h : Head) (fp : Bytes) : Bool :=
  let j := h.farJ1 fp
  let j2 := farOther h.farLog j (farTag fp)
  (tagsAt h.ldr.far j).contains (farTag fp) || (tagsAt h.ldr.far j2).contains (farTag fp) ||
    h.ldr.stash.any fun e => e.1 == farTag fp && (e.2 == j || e.2 == j2)

/-- Warnings of R94: source 786 above 95 % of the region, source 787 above STASH_WARN_PCT of the stash, once an episode. -/
def Head.farWarn (h : Head) : Head :=
  let high := decide (95 * (2 ^ h.farLog * 32) < 100 * h.ldr.farOcc)
  let stash := decide (h.fld Adr.LDR_CTRL 23 16 * 16384 < 100 * h.ldr.stash.length)
  let h1 := h.when (high && !h.ldr.farHigh) fun h => h.raise 786
  let h2 := h1.when (stash && !h.ldr.stashHigh) fun h => h.raise 787
  h2.modLdr fun l => { l with farHigh := high, stashHigh := stash }

/-- Insert a fingerprint's tag into the far filter or the stash; true when it was dropped (R94). -/
def Head.farInsert (h : Head) (fp : Bytes) : Head × Bool :=
  let (t, spare) := tagInsert 32 128 (farOther h.farLog) (fun n => Config.freeNat (h.free + n)) h.ldr.far (h.farJ1 fp) (farTag fp)
  let h := h.spend
  match spare with
  | none => ((h.modLdr fun l => { l with far := t }).farWarn, false)
  | some e =>
    if h.ldr.stash.length < 16384 then ((h.modLdr fun l => { l with far := t, stash := l.stash ++ [e] }).farWarn, false)
    else ((h.modLdr fun l => { l with cnt := bump 0xA 1 l.cnt }).raise 788, true)

/-- Delete a fingerprint's far-filter tag. -/
def Head.farDelete (h : Head) (fp : Bytes) : Head :=
  let j := h.farJ1 fp
  let j2 := farOther h.farLog j (farTag fp)
  h.modLdr fun l =>
    if (tagsAt l.far j).contains (farTag fp) || (tagsAt l.far j2).contains (farTag fp) then
      { l with far := tagDelete l.far j j2 (farTag fp) }
    else match l.stash.find? fun e => e.1 == farTag fp && (e.2 == j || e.2 == j2) with
      | none => l
      | some e => { l with stash := l.stash.erase e }

/-! ## Stored chunks and the index (R95) -/

def Chunk.location (c : Chunk) : Nat := c.stripe % 2 ^ 48 + c.off64 % 2 ^ 16 * 2 ^ 48
def Dp.chunk? (d : Dp) (u : Nat) : Option Chunk := d.chunks.find? (·.uid == u)
/-- The location of a stored chunk; 0 for none. -/
def Dp.locationOf (d : Dp) (u : Option Nat) : Nat := ((u.bind d.chunk?).map Chunk.location).getD 0
def Head.modChunk (h : Head) (u : Nat) (f : Chunk → Chunk) : Head :=
  h.modDp fun d => { d with chunks := d.chunks.map fun c => if c.uid = u then f c else c }
/-- The first index entry of a domain and fingerprint, in page order. -/
def Dp.indexEntry (d : Dp) (dom : Nat) (fp : Bytes) : Option Chunk :=
  d.chunks.find? fun c => c.indexed && !c.released && c.domain == dom && c.fp == fp

/-- Home page of a fingerprint in a troupe's index (R95); with P = 0 the 64-bit value itself. -/
def Head.homePage (h : Head) (t : Troupe) (fp : Bytes) : Nat :=
  leAt 24 8 fp % (256 * (h.reg (Adr.LDR_IDX_PAGES (troupeBit t))).toNat)

/-! ## Orders (R244) -/

/-- Issue a map update on the Flyer: it takes the troupe's next ORDER number, joins the open beat, and goes to the Catcher
without RESULT and PRIOR while the troupe has one in step or joining. -/
def Head.issue (h : Head) (t : Troupe) (r : OrderRec) : Head :=
  let p := h.pair.trp t
  let r := { r with order := p.order + 1 }
  let h := h.modPair fun q =>
    let up (x : Trp) := { x with order := x.order + 1, openRecs := x.openRecs ++ [r] }
    match t with | .a => { q with a := up q.a } | .b => { q with b := up q.b }
  h.when (p.state == 1 || (h.pair.resyncActive && h.pair.resyncTroupe == t)) fun h =>
    h.emit (.order t { r with result := 0, prior := 0 })

/-- Mark a map or index page dirty in the map cache. -/
def Head.dirtyPage (h : Head) (t : Troupe) (page : Nat) : Head :=
  h.modLdr fun l => if l.dirtyPages.contains (t, page) then l else { l with dirtyPages := l.dirtyPages ++ [(t, page)] }

/-! ## Reference counts (R100) -/

def keyOf16 (c : Chunk) : Bytes := if c.indexed then c.fp.take 16 else zeros 16

/-- Add a reference: an increment order, and RELEASING is cleared. A chunk without an index entry has no REFCOUNT field on the
landing shelves, so no order is issued for it; the map's count of its extents changes all the same. -/
def Head.incRef (h : Head) (u : Nat) : Head :=
  match h.dp.chunk? u with
  | none => h
  | some c =>
    let h := h.modChunk u fun c => { c with refcount := c.refcount + 1, releasing := false }
    h.when c.indexed fun h =>
      h.issue c.troupe { type := 0x02, domain := c.domain, order := 0, b := 1, result := c.refcount + 1, prior := c.refcount,
                         location := c.location, key := keyOf16 c }

/-- Drop a reference: a decrement order; at 0 RELEASING is set in the beat in hand. -/
def Head.decRef (h : Head) (u : Nat) : Head :=
  match h.dp.chunk? u with
  | none => h
  | some c =>
    let n := c.refcount - 1
    let h := h.modChunk u fun c =>
      { c with refcount := n, releasing := c.releasing || n == 0, zeroBeat := if n = 0 then h.whl.beat else c.zeroBeat }
    h.when c.indexed fun h =>
      h.issue c.troupe { type := 0x03, domain := c.domain, order := 0, b := 1, result := n, prior := c.refcount,
                         location := c.location, key := keyOf16 c }

/-! ## Extents (R162) -/

/-- What is left of an extent when bytes [s, s + n) of its namespace are mapped anew. -/
def Extent.cut (e : Extent) (nsid s n : Nat) : List Extent :=
  if e.nsid ≠ nsid ∨ e.start + e.len ≤ s ∨ s + n ≤ e.start then [e]
  else
    (if e.start < s then [{ e with len := s - e.start }] else []) ++
      (if s + n < e.start + e.len then
        [{ e with start := s + n, len := e.start + e.len - (s + n), offset := e.offset + (s + n - e.start) }] else [])

/-- The extent that covers a byte. -/
def Dp.extentAt (d : Dp) (nsid b : Nat) : Option Extent :=
  d.extents.find? fun e => e.nsid == nsid && decide (e.start ≤ b ∧ b < e.start + e.len)

/-- Take bytes [s, s + n) of a namespace out of its extents. Chunks whose extents go lose a reference, and one whose extent is
split gains one. -/
def Head.unmap (h : Head) (nsid s n : Nat) : Head :=
  let old := h.dp.extents
  let h := h.modDp fun d => { d with extents := d.extents.flatMap fun e => e.cut nsid s n }
  h.forEach old fun h e =>
    match e.chunk with
    | none => h
    | some u =>
      match (e.cut nsid s n).length with
      | 0 => h.decRef u
      | 2 => h.incRef u
      | _ => h

/-- Blocks that bytes [s, s + n) touch: first block and zero-based count. -/
def touched (s n : Nat) : Nat × Nat := (s / 4096, (s + n - 1) / 4096 - s / 4096)

/-- Map bytes of a namespace to part of a chunk: an extent order, then the references of the extents it replaces (R244, R100).
`first` is set when the index insert of the chunk has counted this extent. -/
def Head.mapExtent (h : Head) (t : Troupe) (dom nsid s n u offset tag : Nat) (first : Bool) : Head :=
  let prior := ((h.dp.extentAt nsid s).map fun e => h.dp.locationOf e.chunk).getD 0
  let (lba, nlb) := touched s n
  let h := h.issue t { type := 0x01, domain := dom, nsid := nsid, order := 0, a := lba, b := nlb, result := tag,
                       location := h.dp.locationOf (some u), prior := prior, key := zeros 16 }
  let h := if first then h else h.incRef u
  let h := h.unmap nsid s n
  h.modDp fun d => { d with extents := d.extents ++
    [{ nsid := nsid, start := s, len := n, chunk := some u, offset := offset, apptag := tag }] }

/-- Write Zeroes or deallocation of blocks: the range maps to the zero extent (R59, R60). -/
def Head.zeroRange (h : Head) (t : Troupe) (dom nsid lba n : Nat) : Head :=
  let h := h.issue t { type := 0x0C, domain := dom, nsid := nsid, order := 0, a := lba, b := n - 1, key := zeros 16 }
  h.unmap nsid (lba * 4096) (n * 4096)

/-! ## Index insert, release, poison -/

/-- Insert a chunk's index entry: the tag goes into the far filter, or the entry carries NOFILTER (R94, R244). -/
def Head.indexInsert (h : Head) (u : Nat) : Head :=
  match h.dp.chunk? u with
  | none => h
  | some c =>
    let (h, dropped) := if h.farValid then h.farInsert c.fp else (h, true)
    let h := h.modChunk u fun c => { c with refcount := 1, noFilter := dropped }
    let h := h.dirtyPage c.troupe (h.homePage c.troupe c.fp)
    (h.larderInsert c.fp).issue c.troupe
      { type := 0x04, flags := 4 * flag dropped, domain := c.domain, order := 0, b := c.reducedLen, result := c.logicalLen,
        location := c.location, key := c.fp.take 16 }

/-- Free bytes of a stripe's zone group grow by a chunk's REDUCED_LEN. -/
def Head.freeGroup (h : Head) (stripe n : Nat) : Head :=
  match h.pty.stripes.find? (·.number == stripe) with
  | none => h
  | some s => { h with pty := { h.pty with groups := h.pty.groups.map fun g => if g.id = s.group then { g with free := g.free + n } else g } }

/-- Free bytes of the zone group a stripe lies in. -/
def Pty.freeOf (p : Pty) (stripe : Nat) : Nat :=
  match p.stripes.find? (·.number == stripe) with
  | none => 0
  | some s => ((p.groups.find? (·.id == s.group)).map (·.free)).getD 0

/-- Delete a chunk's filter tags (R99, R100): the far-filter tag unless NOFILTER is set, and the Larder tag. -/
def Head.deleteTags (h : Head) (c : Chunk) : Head :=
  if !c.indexed then h
  else (h.when (!c.noFilter && h.farValid) fun h => h.farDelete c.fp).larderDelete c.fp

/-- The release of a chunk (R100): order, filter tags, free space, counter 0xC. The record stays while a reader holds it. -/
def Head.releaseChunk (h : Head) (c : Chunk) : Head :=
  let h := (h.deleteTags c).freeGroup c.stripe c.reducedLen
  let h := h.modLdr fun l => { l with cnt := bump 0xC 1 l.cnt }
  let h := h.when c.indexed fun h => h.dirtyPage c.troupe (h.homePage c.troupe c.fp)
  let h := h.issue c.troupe { type := 0x05, domain := c.domain, order := 0, b := c.reducedLen,
                              result := h.pty.freeOf c.stripe / 65536, prior := c.refcount, location := c.location,
                              key := keyOf16 c }
  h.modChunk c.uid fun c => { c with released := true, indexed := false }

/-- A chunk of a segment is kept while any chunk of the segment is referenced (R110). -/
def Dp.segmentHeld (d : Dp) (c : Chunk) : Bool :=
  match c.segment with
  | none => false
  | some (s, _) => d.chunks.any fun x => (x.segment.map (·.1)) == some s && decide (0 < x.refcount)

/-- Chunks of a troupe whose release is due: REFCOUNT reached 0 in an earlier beat (R100). -/
def Head.releaseDue (h : Head) (t : Troupe) : List Chunk :=
  h.dp.chunks.filter fun c => c.troupe == t && c.releasing && !c.released && c.refcount == 0 &&
    decide (c.zeroBeat < h.whl.beat) && !h.dp.segmentHeld c

/-- Forget released chunks that no reader holds. -/
def Head.purgeReleased (h : Head) : Head :=
  let held := (h.hqe.ctxs.filter (·.inFlight)).flatMap (·.refs)
  let gone := (h.dp.chunks.filter fun c => c.released && !held.contains c.uid).map (·.uid)
  h.modDp fun d => { d with
    chunks := d.chunks.filter fun c => !gone.contains c.uid
    staged := d.staged.filter fun s => !((s.uid.map gone.contains).getD false) }

/-- Issue the releases due at a beat edge. -/
def Head.releases (h : Head) (t : Troupe) : Head := (h.forEach (h.releaseDue t) Head.releaseChunk).purgeReleased

/-- Ranges of the extents of a chunk: NSID, SLBA, zero-based NLB. -/
def Dp.extentRanges (d : Dp) (u : Nat) : List (Nat × Nat × Nat) :=
  (d.extents.filter (·.chunk == some u)).map fun e => (e.nsid, touched e.start e.len)

/-- Mark a chunk poisoned or lost (R166, R200): its extents are marked by poison orders and its index entry goes as a release
does. -/
def Head.markPoison (h : Head) (u : Nat) (lost : Bool) : Head :=
  match h.dp.chunk? u with
  | none => h
  | some c =>
    let h := h.forEach (h.dp.extentRanges u) fun h (n, lba, nlb) =>
      h.issue c.troupe { type := 0x08, flags := 2, domain := c.domain, nsid := n, order := 0, a := lba, b := nlb,
                         location := c.location, key := zeros 16 }
    let h := h.modDp fun d => { d with
      extents := d.extents.map fun e => if e.chunk = some u then { e with poisoned := true, lost := lost } else e
      staged := d.staged.filter fun s => s.uid != some u }
    let h := h.modChunk u fun c => { c with poisoned := true }
    h.when (c.indexed && !c.released) fun h => h.releaseChunk c

/-- Domain, fingerprint and extent ranges of a chunk, as a record holds them. -/
def Dp.chunkPayload (d : Dp) (c : Chunk) : Bytes :=
  (leBytes 2 c.domain ++ c.fp ++
    (d.extentRanges c.uid).flatMap fun (n, lba, nlb) => leBytes 4 n ++ leBytes 8 lba ++ leBytes 4 nlb).take 92

/-- Poison a chunk (R166): its marks, source 546 and a CRITICAL record with the domain, the fingerprint and the ranges. -/
def Head.poison (h : Head) (u : Nat) : Head :=
  match h.dp.chunk? u with
  | none => h
  | some c => (h.markPoison u false).report 546 sevCritical (h.dp.chunkPayload c)

end Sys2Proof.Machine
end

