-- ==== Sys2Proof/Machine/StripeOps.lean ====
section
/-!
DEFINITION. Stripes: geometry, zone groups, chunk placement, parity and member tags, the journal, bundles of back-end
operations, commit and void (08_block_protection_and_stripes.md, 10_shelves_and_the_wheel.md R381).
-/

namespace Sys2Proof.Machine

open Sys2Proof

def Head.modPty (h : Head) (f : Pty → Pty) : Head := { h with pty := f h.pty }
def Head.modMnd (h : Head) (f : Mnd → Mnd) : Head := { h with mnd := f h.mnd }
def Head.ptyCount (h : Head) (i n : Nat) : Head := h.modPty fun p => { p with cnt := bump i n p.cnt }

/-- Bytes of a stripe unit. -/
def unitBytes : Nat := 131072

/-- The geometry of an id in the image in force (R169). -/
def Head.geom (h : Head) (id : Nat) : Option GeomEnt := (h.tsi.sections.geom.getD [])[id]?

/-- This head is the troupe's Flyer with an in-step Catcher. -/
def Head.paired (h : Head) (t : Troupe) : Bool :=
  (h.pair.trp t).role == 1 && ((h.pair.trp t).state == 1 || (h.pair.trp t).state == 5)
/-- This head is the troupe's Flyer. -/
def Head.flies (h : Head) (t : Troupe) : Bool := (h.pair.trp t).role == 1

/-! ## Check points (R163) -/

/-- A failure at a check point: its counter, PTY_LAST_FAIL and its source. -/
def Head.pointFailed (h : Head) (point site shelf mdl : Nat) : Head :=
  let ctr := match point with | 0 => 0x8 | 1 => 0x9 | 2 => 0xA | 3 => 0x6 | 4 => 0x4 | _ => 0xB
  let src := match point with | 0 => 303 | 3 => 545 | 4 => 544 | _ => 552
  let h := (h.ptyCount ctr 1).modPty fun p => { p with lastFail := (point, site, shelf, mdl) }
  (h.orReg Adr.PTY_LAST_FAIL 0x80000000).raise src

/-! ## Zone groups (R173, R381) -/

/-- HEALTHY modules of a shelf with their free zones. -/
def Head.healthy (h : Head) (shelf : Nat) : List Module :=
  h.mnd.modules.filter fun m => m.shelf == shelf && m.state == 0 && decide (m.zones ≠ [])

/-- Zone groups of `n` zones on distinct modules that counts of free zones allow, taking most free zones first. -/
def groupsFrom (n : Nat) : Nat → List Nat → Nat
  | 0, _ => 0
  | f + 1, counts =>
    let l := counts.insertionSort (fun a b => decide (b ≤ a))
    if n == 0 || l.getD (n - 1) 0 == 0 then 0
    else 1 + groupsFrom n f ((l.take n).map (· - 1) ++ l.drop n)

/-- Free zone groups of a shelf for a stripe of `n` members. -/
def Head.freeGroups (h : Head) (shelf n : Nat) : Nat :=
  let counts := (h.healthy shelf).map (·.zones.length)
  groupsFrom n (counts.sum + 1) counts

/-- The shelf of a new cold zone group (R381): OPEN, with a free group; least append load of its port in the last beat, then
fewest free groups, then the lower number. -/
def Head.groupShelf (h : Head) (n : Nat) : Option Nat :=
  let cands := (List.range 128).filter fun s => h.shelfOn s && !h.landing s && (h.shf.shelf s).state == 3 && decide (0 < h.freeGroups s n)
  let key (s : Nat) := (assocGet (h.shelfPort s) 0 h.mnd.appendLoad, h.freeGroups s n)
  cands.foldl (fun best s => match best with
    | none => some s
    | some b =>
      if (key s).1 < (key b).1 ∨ ((key s).1 = (key b).1 ∧ (key s).2 < (key b).2) then some s else some b) none

/-- The first `n` modules by most free zones, ties to the lower number. -/
def pickModules (n : Nat) (ms : List Module) : List Module :=
  (ms.insertionSort (fun a b => decide (b.zones.length < a.zones.length ∨ (a.zones.length = b.zones.length ∧ a.mdl ≤ b.mdl)))).take n

/-- Open a new zone group of a troupe and geometry on a shelf, taking one free zone of each module. -/
def Head.openGroup (h : Head) (t : Troupe) (g : GeomEnt) (shelf : Nat) : Head × Group :=
  let ms := pickModules (g.k + 2) (h.healthy shelf)
  let grp : Group :=
    { id := h.pty.nextGroup, troupe := t, geom := g.id, k := g.k, shelf := shelf,
      members := ms.map fun m => (m.mdl, m.zones.headD 0),
      units := (ms.map (·.zoneUnits)).foldl min ((ms.map (·.zoneUnits)).headD 0) }
  let h := h.modPty fun p => { p with groups := p.groups ++ [grp], nextGroup := p.nextGroup + 1 }
  (h.modMnd fun x =>
     { x with modules := x.modules.map fun m =>
                if m.shelf = shelf ∧ ms.any (·.mdl == m.mdl) then { m with zones := m.zones.drop 1 } else m }, grp)

/-- A group with room on an OPEN shelf, or a new one. -/
def Head.groupFor (h : Head) (t : Troupe) (g : GeomEnt) : Head × Option Group :=
  match h.pty.groups.find? fun x => x.troupe == t && x.geom == g.id && !x.closed && decide (x.next < x.units) &&
      (h.shf.shelf x.shelf).state == 3 && !h.landing x.shelf with
  | some x => (h, some x)
  | none =>
    match h.groupShelf (g.k + 2) with
    | none => (h, none)
    | some s =>
      let (h, x) := h.openGroup t g s
      if x.next < x.units then (h, some x) else (h, none)

/-- Group position of role `r` of stripe `s` (R173). -/
def position (k rotate r s : Nat) : Nat := (r + s * rotate) % (k + 2)

/-! ## Placing chunks (R170, R171) -/

def Head.stripe? (h : Head) (n : Nat) : Option Stripe := h.pty.stripes.find? (·.number == n)
def Head.modStripe (h : Head) (n : Nat) (f : Stripe → Stripe) : Head :=
  h.modPty fun p => { p with stripes := p.stripes.map fun s => if s.number = n then f s else s }
def Head.modGroup (h : Head) (n : Nat) (f : Group → Group) : Head :=
  h.modPty fun p => { p with groups := p.groups.map fun g => if g.id = n then f g else g }

/-- Open a stripe: the troupe's next sequence with the troupe in bit 47 (R171), the next unit of a group; CLOSE_MS is sampled. -/
def Head.openStripe (h : Head) (t : Troupe) (g : GeomEnt) (ring : Nat) (reshape : Bool) : Head × Option Stripe :=
  match h.groupFor t g with
  | (h, none) => (h, none)
  | (h, some grp) =>
    let seq := match t with | .a => h.pty.nextStripe.1 | .b => h.pty.nextStripe.2
    let ms := h.fld Adr.PTY_CFG 15 0
    let s : Stripe :=
      { number := seq % 2 ^ 47 + troupeBit t * 2 ^ 47, troupe := t, geom := g.id, k := g.k, shelf := grp.shelf, group := grp.id,
        unit := grp.next, ring := ring, openedAt := h.now, closeAt := if ms = 0 then 0 else h.now + ms * 1000,
        reshape := reshape }
    let h := h.modGroup grp.id fun x => { x with next := x.next + 1 }
    (h.modPty fun p => { p with
      stripes := p.stripes ++ [s]
      nextStripe := match t with | .a => (p.nextStripe.1 + 1, p.nextStripe.2) | .b => (p.nextStripe.1, p.nextStripe.2 + 1) },
     some s)

/-- Bytes a stripe's data space holds. -/
def Stripe.room (s : Stripe) : Nat := s.k * unitBytes - s.used

/-! ## Bundles of back-end operations (R182, R185) -/

/-- Build the operations of a bundle with the next indices. -/
def opsFrom : Nat → List (Nat × Nat) → List BackOp
  | _, [] => []
  | n, (role, mdl) :: l => { op := n % 32768, member := role, mdl := mdl } :: opsFrom (n + 1) l

/-- Make operations ready to launch. -/
def Head.addBundle (h : Head) (kind : BundleKind) (cls : Nat) (t : Troupe) (shelf stripe row : Nat)
    (members : List (Nat × Nat)) : Head :=
  h.modPty fun p => { p with
    bundles := p.bundles ++ [{ id := p.nextBundle, kind := kind, cls := cls, troupe := t, shelf := shelf, stripe := stripe,
                               row := row, ops := opsFrom p.nextOp members, readyAt := h.now }]
    nextBundle := p.nextBundle + 1
    nextOp := (p.nextOp + members.length) % 32768 }

/-- Further reads for a bundle, which launches again with them; what it has read stays with it. -/
def Head.readMore (h : Head) (b : Bundle) (kind : BundleKind) (members : List (Nat × Nat)) (byBlock : Bool) : Head :=
  h.modPty fun p => { p with
    bundles := p.bundles.map fun x =>
      if x.id = b.id then
        { x with kind := kind, launched := none, readyAt := h.now,
                 ops := x.ops ++ (opsFrom p.nextOp members).map fun o => { o with byBlock := byBlock } }
      else x
    nextOp := (p.nextOp + members.length) % 32768 }

/-- k survivors of a row: the data roles and P first, so that Q's module is not read (R193). -/
def survivors (k : Nat) (lost : List Nat) : List Nat := ((List.range (k + 2)).filter fun r => !lost.contains r).take k

def Head.dropBundle (h : Head) (id : Nat) : Head := h.modPty fun p => { p with bundles := p.bundles.filter (·.id != id) }

/-- Launch classes (R230). -/
def clsHread : Nat := 0
def clsLand : Nat := 1
def clsCprog : Nat := 2
def clsZone : Nat := 3
def clsMend : Nat := 5
def clsPatrol : Nat := 6

/-- Module and zone of each position of a group at a unit: those below the write pointer of a spare zone are on the spare (R195). -/
def Head.membersAt (h : Head) (g : Group) (unit : Nat) : List (Nat × Nat) :=
  h.mnd.rebuilds.foldl (fun ms r =>
    match r.todo with
    | [] => ms
    | (x, _, _, _) :: _ =>
      if x = g.id ∧ unit < r.unit then
        (r.todo.filter (·.1 == x) ++ r.joint).foldl (fun ms (_, pos, mdl, zone) => ms.set pos (mdl, zone)) ms
      else ms) g.members

/-- Modules of a stripe's roles: cold stripes by their group, landing stripes as head firmware assigned them. -/
def Head.roleModules (h : Head) (stripe : Nat) : List Nat :=
  match h.stripe? stripe with
  | some s =>
    match h.pty.groups.find? (·.id == s.group) with
    | none => []
    | some g =>
      let rot := ((h.geom s.geom).map (·.rotate)).getD 0
      let ms := h.membersAt g s.unit
      (List.range (s.k + 2)).map fun r => (ms.getD (position s.k rot r s.unit) (0, 0)).1
  | none => ((h.pty.landing.find? (·.1 == stripe)).map (·.2.2.2)).getD []

/-- The shelf of a stripe. -/
def Head.stripeShelf (h : Head) (stripe : Nat) : Nat :=
  match h.stripe? stripe with
  | some s => s.shelf
  | none => ((h.pty.landing.find? (·.1 == stripe)).map (·.2.1)).getD 0

/-- Roles of a stripe on modules that serve no reads (R187). -/
def Head.deadRoles (h : Head) (stripe : Nat) : List Nat :=
  (h.roleModules stripe).zipIdx.filterMap fun (m, r) => if 2 ≤ (h.mnd.mdl (h.stripeShelf stripe) m).state then some r else none

/-- The zone of each role of a cold stripe. -/
def Head.roleZones (h : Head) (s : Stripe) : List (Nat × Nat) :=
  match h.pty.groups.find? (·.id == s.group) with
  | none => []
  | some g =>
    let rot := ((h.geom s.geom).map (·.rotate)).getD 0
    let ms := h.membersAt g s.unit
    (List.range (s.k + 2)).map fun r => ms.getD (position s.k rot r s.unit) (0, 0)

/-- Journal copies A and B of a troupe: landing shelf and modules in effect. -/
def Head.journalHome (h : Head) (t : Troupe) : Nat × Nat × Nat :=
  (h.fld (Adr.PTY_JRN_LOC (troupeBit t)) 6 0, h.journalPair (troupeBit t))

/-- The landing copies still healthy, as operations of role 0xFE (R181). -/
def Head.journalOps (h : Head) (t : Troupe) : List (Nat × Nat) :=
  let (_, a, b) := h.journalHome t
  let (okA, okB, _) := h.pty.copies.getD (troupeBit t) (false, false, false)
  (if okA || !okB then [(0xFE, a)] else []) ++ (if okB || !okA then [(0xFE, b)] else [])

/-! ## Member blocks (R167, R172) -/

/-- The 16-byte member tag of a block. -/
def memberTag (block : Bytes) (stripe row role geom : Nat) : Bytes :=
  leBytes 8 (crc64 block).toNat ++ leBytes 6 (stripe % 2 ^ 43 * 32 + row % 32) ++ leBytes 1 role ++ leBytes 1 geom

/-- The blocks of a unit, each followed by its tag. -/
def taggedUnit (stripe role geom : Nat) : Nat → Bytes → Bytes
  | 0, _ => []
  | n + 1, bs => fit 4096 bs ++ memberTag (fit 4096 bs) stripe (32 - (n + 1)) role geom ++ taggedUnit stripe role geom n (bs.drop 4096)

/-- The same with a role for each row. -/
def taggedRows (stripe geom : Nat) (role : Nat → Nat) : Nat → Bytes → Bytes
  | 0, _ => []
  | n + 1, bs =>
    let row := 32 - (n + 1)
    fit 4096 bs ++ memberTag (fit 4096 bs) stripe row (role row) geom ++ taggedRows stripe geom role n (bs.drop 4096)

/-- The data space of a stripe from staging; a chunk no longer in staging is zero-filled (R166). -/
def Head.stripeData (h : Head) (s : Stripe) : Bytes :=
  s.chunks.foldl (fun acc (u, off, len) =>
    let gone := ((h.dp.chunk? u).map (·.poisoned)).getD true
    let bytes := if gone then zeros len else ((h.dp.staged.find? (·.uid == some u)).map (·.bytes)).getD (zeros len)
    patch (off * 64) (fit len bytes) acc) (zeros (s.k * unitBytes))

/-- The k + 2 units of a stripe: data, P and Q (R167). -/
def Head.stripeUnits (h : Head) (s : Stripe) : List Bytes :=
  let data := h.stripeData s
  let units := (List.range s.k).map fun i => slice (i * unitBytes) unitBytes data
  let pq := parityPQ unitBytes units
  units ++ [pq.1, pq.2]

/-- Send the member programs of a stripe. -/
def Head.programMembers (h : Head) (s : Stripe) : Head :=
  let units := h.stripeUnits s
  let zones := h.roleZones s
  h.emits ((List.range (s.k + 2)).map fun r =>
    let z := zones.getD r (0, 0)
    .program s.shelf z.1 z.2 s.unit (taggedUnit s.number r s.geom 32 (units.getD r [])))

/-- Member programs of void fillers: zero blocks with valid tags, ROLE 0xFF (R175). -/
def Head.programFillers (h : Head) (s : Stripe) (roles : List Nat) : Head :=
  let zones := h.roleZones s
  h.emits (roles.map fun r =>
    let z := zones.getD r (0, 0)
    .program s.shelf z.1 z.2 s.unit (taggedUnit s.number 0xFF s.geom 32 (zeros unitBytes)))

/-! ## The journal (R178, R179) -/

/-- A journal entry as it is stored (R179). -/
def Jrn.encode (j : Jrn) : Bytes :=
  let head := leBytes 4 0x4C4E524A ++ leBytes 1 j.kind ++ leBytes 1 j.ring ++ leBytes 1 j.geom ++ leBytes 1 j.members ++
    leBytes 8 j.stripe ++ leBytes 8 j.seq ++ leBytes 4 j.cycle ++ leBytes 1 j.slot ++ leBytes 1 j.shelf ++ leBytes 2 j.row ++
    leBytes 4 j.group ++ leBytes 4 j.unit ++ leBytes 4 j.fill ++ leBytes 2 j.role ++ leBytes 2 j.payload.length ++
    ((j.modules ++ List.replicate 32 0xFF).take 32).flatMap (leBytes 1)
  let head := fit 0x5C (head ++ zeros 12)
  let body := j.payload.flatten
  head ++ crcBytes (head ++ body) ++ body

/-- Bytes of a troupe's journal area: SIZE_MIB below 64 acts as 64. -/
def Head.jrnBytes (h : Head) (t : Troupe) : Nat := max 64 (h.fld (Adr.PTY_JRN_SIZE (troupeBit t)) 15 0) * 0x100000

/-- Room for an entry of `n` bytes. -/
def Head.jrnRoom (h : Head) (t : Troupe) (n : Nat) : Bool := decide (h.pty.jrnUsed t + n ≤ h.jrnBytes t)

/-- An entry has its commit or void record. -/
def resolvedIn (l : List Jrn) (j : Jrn) : Bool :=
  l.any fun k => (k.kind == 3 || k.kind == 4) && k.stripe == j.stripe && k.row == j.row && decide (j.seq < k.seq)

/-- Entries in use: those from the oldest entry without a commit or void record on. -/
def pruneJournal (l : List Jrn) : List Jrn := l.dropWhile fun j => j.kind == 3 || j.kind == 4 || resolvedIn l j

/-- Write a journal entry: SEQ, the copies, the Catcher's copy, and source 551 when the area passes 80 % (R178, R179). -/
def Head.writeJournal (h : Head) (j : Jrn) : Head :=
  let t := j.troupe
  let seq := match t with | .a => h.pty.nextSeq.1 | .b => h.pty.nextSeq.2
  let j := { j with seq := seq }
  let h := h.modPty fun p =>
    let l := p.journal ++ [j]
    { p with
      journal := pruneJournal (l.filter (·.troupe == t)) ++ l.filter (·.troupe != t)
      nextSeq := match t with | .a => (p.nextSeq.1 + 1, p.nextSeq.2) | .b => (p.nextSeq.1, p.nextSeq.2 + 1)
      copies := p.copies.modify (troupeBit t) fun c => (c.1, c.2.1, c.2.2 || h.paired t) }
  let h := h.when (h.paired t) fun h => h.emit (.journal t j.encode)
  let high := decide (80 * h.jrnBytes t < 100 * h.pty.jrnUsed t)
  let was := match t with | .a => h.pty.jrnHigh.1 | .b => h.pty.jrnHigh.2
  let h := h.modPty fun p => { p with jrnHigh := match t with | .a => (high, p.jrnHigh.2) | .b => (p.jrnHigh.1, high) }
  h.when (high && !was) fun h => h.raise 551

/-- The journal entry of a cold stripe. -/
def Head.stripeJournal (h : Head) (s : Stripe) (kind cycle slot : Nat) : Jrn :=
  { troupe := s.troupe, kind := kind, ring := s.ring, geom := s.geom, members := s.k + 2, stripe := s.number, seq := 0,
    cycle := cycle % 2 ^ 32, slot := slot, shelf := s.shelf, group := s.group, unit := s.unit, fill := s.fill,
    modules := h.roleModules s.number }

/-! ## Closing a stripe (R170, R174) -/

/-- Close a stripe with the space left as fill, and make its launch ready: the members with the journal copies alongside when
there is a Catcher, else the landing copies of its entry first (R178). -/
def Head.closeStripe (h : Head) (n : Nat) : Head :=
  match h.stripe? n with
  | none => h
  | some s =>
    if s.phase ≠ .opened then h
    else
      let fill := s.room
      let kib := (h.pty.fillBytes + fill) / 1024
      let h := (h.ptyCount 0xE kib).modPty fun p => { p with fillBytes := (p.fillBytes + fill) % 1024 }
      let h := (h.modStripe n fun s => { s with fill := fill, phase := .waiting, closeAt := 0 }).modGroup s.group fun g =>
        { g with free := g.free + fill }
      let members := (h.roleModules n).zipIdx.map fun (m, r) => (r, m)
      if h.paired s.troupe then
        h.addBundle (.append n) clsCprog s.troupe s.shelf n 0xFFFF (members ++ h.journalOps s.troupe)
      else
        h.addBundle (.journal n) clsLand s.troupe (h.journalHome s.troupe).1 n 0xFFFF (h.journalOps s.troupe)

/-- Put a chunk of `len` bytes into a stripe with room; a stripe that is full closes. -/
def Head.putInStripe (h : Head) (n u len : Nat) : Head × Nat :=
  match h.stripe? n with
  | none => (h, 0)
  | some s =>
    let off := s.used / 64
    let h := h.modStripe n fun s => { s with chunks := s.chunks ++ [(u, off, len)], used := s.used + len }
    (h.when (s.used + len == s.k * unitBytes) fun h => h.closeStripe n, off)

/-- Place a reduced chunk whole into the troupe's open stripe of a geometry; one that does not fit closes the stripe and opens
the next (R170). None while no zone group is to be had. -/
def Head.placeChunk (h : Head) (t : Troupe) (g : GeomEnt) (ring u len : Nat) : Head × Option (Nat × Nat) :=
  let len := ceilDiv len 64 * 64
  let cur := h.pty.stripes.find? fun s => s.phase == .opened && s.troupe == t && s.geom == g.id && !s.reshape
  match cur with
  | some s =>
    if len ≤ s.room then
      let (h, off) := h.putInStripe s.number u len
      (h, some (s.number, off))
    else
      let h := h.closeStripe s.number
      match h.openStripe t g ring false with
      | (h, none) => (h, none)
      | (h, some s) => let (h, off) := h.putInStripe s.number u len; (h, some (s.number, off))
  | none =>
    match h.openStripe t g ring false with
    | (h, none) => (h, none)
    | (h, some s) => let (h, off) := h.putInStripe s.number u len; (h, some (s.number, off))

/-! ## Commit and void (R175, R182) -/

/-- Order of commits of one troupe: launch cycle, slot, stripe number. -/
def Stripe.before (a b : Stripe) : Bool :=
  decide (a.cycle < b.cycle ∨ (a.cycle = b.cycle ∧ (a.slot < b.slot ∨ (a.slot = b.slot ∧ a.number < b.number))))

/-- The first stripe of a troupe in commit order among those launched and not decided. -/
def Head.commitFront (h : Head) (t : Troupe) : Option Stripe :=
  (h.pty.stripes.filter fun s => s.troupe == t && (s.phase == .flying || s.phase == .reported)).foldl
    (fun best s => match best with
      | none => some s
      | some b => if s.before b then some s else some b) none

/-- Finish a zone group whose last unit is written (R174). -/
def Head.finishIfFull (h : Head) (grp : Nat) : Head :=
  match h.pty.groups.find? (·.id == grp) with
  | none => h
  | some g =>
    let busy := h.pty.stripes.any fun s => s.group == grp && (s.phase == .opened || s.phase == .waiting || s.phase == .flying || s.phase == .reported)
    if g.next < g.units ∨ g.closed ∨ busy then h
    else
      (h.modGroup grp fun g => { g with closed := true }).addBundle (.finish grp) clsZone g.troupe g.shelf 0 0xFFFF
        (g.members.map fun m => (0xFF, m.1))

/-- Commit a stripe: the commit order, its staged chunks become clean (R19), the commit record (R182). -/
def Head.commitStripe (h : Head) (s : Stripe) : Head :=
  let h := h.modStripe s.number fun s => { s with phase := .committed }
  let h := h.modPty fun p => { p with bundles := p.bundles.filter fun b => b.kind != .append s.number }
  let h := h.modDp fun d => { d with staged := d.staged.map fun x =>
    if (x.uid.map fun u => s.chunks.any (·.1 == u)).getD false then { x with dirty := false } else x }
  let h := (h.ptyCount 0x1 1).issue s.troupe { type := 0x06, order := 0, a := s.group, b := s.unit, location := s.number }
  let h := h.writeJournal { h.stripeJournal s 3 s.cycle s.slot with modules := [] }
  h.finishIfFull s.group

/-- Commit every stripe of a troupe that has reported, in order. -/
def Head.commitReady (h : Head) (t : Troupe) : Nat → Head
  | 0 => h
  | n + 1 =>
    match h.commitFront t with
    | none => h
    | some s => if s.phase = .reported then (h.commitStripe s).commitReady t n else h

/-- Place a chunk of a void or relocated stripe again; its LOCATION moves by a relocation order (R175, R203). -/
def Head.replaceChunk (h : Head) (u : Nat) : Head :=
  match h.dp.chunk? u with
  | none => h
  | some c =>
    match (h.domain c.domain).bind fun e => h.geom e.coldGeom with
    | none => h
    | some g =>
      let ring := ((h.stripe? c.stripe).map (·.ring)).getD 0
      match h.placeChunk c.troupe g ring u c.reducedLen with
      | (h, none) => { h with mnd := { h.mnd with relocate := h.mnd.relocate ++ [u] } }
      | (h, some (n, off)) =>
        let old := c.location
        let h := h.modChunk u fun c => { c with stripe := n, off64 := off }
        let loc := h.dp.locationOf (some u)
        let h := h.when c.indexed fun h => h.dirtyPage c.troupe (h.homePage c.troupe c.fp)
        h.issue c.troupe { type := 0x09, domain := c.domain, order := 0, b := c.reducedLen,
                           result := (h.dp.extents.filter (·.chunk == some u)).length, location := loc, prior := old,
                           key := keyOf16 c }

/-- Void a cold stripe (R175): fillers on the members that have not passed its unit, the void record and order, source 547, and
its chunks placed again in their order. -/
def Head.voidStripe (h : Head) (s : Stripe) (passed : List Nat) : Head :=
  let h := h.modStripe s.number fun s => { s with phase := .voided }
  let h := h.modGroup s.group fun g => { g with voids := s.unit :: g.voids, free := g.free + s.k * unitBytes - s.fill }
  let h := h.modPty fun p => { p with bundles := p.bundles.filter fun b => b.kind != .append s.number }
  let roles := (List.range (s.k + 2)).filter fun r => !passed.contains r
  let mods := h.roleModules s.number
  let h := h.when (decide (roles ≠ [])) fun h =>
    (h.addBundle (.filler s.number) clsZone s.troupe s.shelf s.number 0xFFFF (roles.map fun r => (r, mods.getD r 0)))
  let h := h.writeJournal { h.stripeJournal s 4 s.cycle s.slot with modules := [] }
  let h := (h.ptyCount 0x2 1).issue s.troupe { type := 0x07, order := 0, a := s.group, b := s.unit, location := s.number }
  let h := h.raise 547
  let h := h.forEach (s.chunks.map (·.1)) fun h u => h.replaceChunk u
  (h.finishIfFull s.group).commitReady s.troupe h.pty.stripes.length

end Sys2Proof.Machine
end

