-- ==== Sys2Proof/Machine/KeyOps.lean ====
section
/-!
DEFINITION. Key slots on the write path: invocation counters, leases, retirement and the IV (06_cipher_and_strongroom.md R131 to
R133).
-/

namespace Sys2Proof.Machine

open Sys2Proof

def Head.modStg (h : Head) (f : Stg → Stg) : Head := { h with stg := f h.stg }

/-- Change a key slot; a slot without history is listed first. -/
def Head.modSlot (h : Head) (n : Nat) (f : Slot → Slot) : Head :=
  h.modStg fun s => { s with slots := f (s.slot n) :: s.slots.filter (·.slot != n) }

/-- KEY_ID of a slot: the slot in bits [7:0], its epoch above (R123). -/
def Slot.keyId (s : Slot) : Nat := s.slot % 256 + s.epoch % 2 ^ 24 * 256

/-- HEAD_ID in effect (R240). -/
def Head.headId (h : Head) : Nat := h.fld Adr.TRP_CFG 0 0

/-- The IV of a chunk (R131): fixed field and invocation counter, little-endian. -/
def Head.iv (h : Head) (site epoch c : Nat) : Bytes :=
  leBytes 4 (h.headId * 2 ^ 31 + site % 64 * 2 ^ 25 + epoch % 2 ^ 24) ++ leBytes 8 c

/-- STG_RETIRE_WARN.SHIFT: 20 to 47; other values act as 44. -/
def Head.warnShift (h : Head) : Nat :=
  let n := h.fld Adr.STG_RETIRE_WARN 5 0
  if 20 ≤ n ∧ n ≤ 47 then n else 44

/-- A slot of this head that names an ACTIVE key. -/
def Stg.active (s : Stg) (n : Nat) : Bool := n != 0xFF && (s.slot n).state == 2

/-- Move every domain that writes through a slot to its successor (R132); leases of a slot that no domain writes through are
dropped. -/
def Head.succeed (h : Head) (slot : Nat) : Head :=
  let moves := h.stg.map.any fun (_, w, n) => w == slot && h.stg.active n
  let h := h.modStg fun s =>
    let m := s.map.map fun (d, w, n) => if w = slot ∧ s.active n then (d, n, 0xFF) else (d, w, n)
    { s with map := m
             leases := if m.any (fun (_, w, _) => w == slot) then s.leases else s.leases.filter (·.slot != slot) }
  h.when moves fun h => h.raise 867

/-- The final lease of a slot has been granted, or its watermark cannot be written: no further lease (R131, R132). -/
def Head.retireLease (h : Head) (slot : Nat) : Head :=
  (h.modSlot slot fun s => { s with retiring := true }).succeed slot

/-- Source 865 and WARN when C first reaches 2^48 − 2^SHIFT. -/
def Head.warnRetire (h : Head) (slot : Nat) : Head :=
  let s := h.stg.slot slot
  if !s.warn ∧ 2 ^ 48 - 2 ^ h.warnShift ≤ s.c then (h.modSlot slot fun s => { s with warn := true }).raise 865 else h

/-- Grant a lease of up to 1,024 values to a site; `cellarOk` says whether a watermark write that it needs succeeds (R131).
True when the lease was granted. -/
def Head.grantLease (h : Head) (slot site : Nat) (cellarOk : Bool) : Head × Bool :=
  let s := h.stg.slot slot
  if s.state ≠ 2 ∨ s.retiring ∨ 2 ^ 48 ≤ s.c then (h, false)
  else
    let n := min 1024 (2 ^ 48 - s.c)
    if s.w < s.c + n ∧ !cellarOk then
      ((h.retireLease slot).report 870 sevFault (leBytes 1 slot), false)
    else
      let w := if s.w < s.c + n then min (2 ^ 48) (s.w + 2 ^ 20) else s.w
      let h := h.modSlot slot fun s => { s with w := w, c := s.c + n }
      let h := h.modStg fun t => { t with
        leases := { slot := slot, site := site, next := s.c, stop := s.c + n } ::
                  t.leases.filter fun l => !(l.slot == slot && l.site == site) }
      (h.warnRetire slot, true)

/-- The lease a site holds with a value left. -/
def Stg.lease (s : Stg) (slot site : Nat) : Option Lease :=
  s.leases.find? fun l => l.slot == slot && l.site == site && decide (l.next < l.stop)

/-- Take the next value of a lease. -/
def Head.useLease (h : Head) (slot site : Nat) : Head × Option Nat :=
  match h.stg.lease slot site with
  | none => (h, none)
  | some l =>
    (h.modStg fun t => { t with leases := (t.leases.map fun x => if x = l then { x with next := x.next + 1 } else x) }, some l.next)

/-- The counter value of a chunk: from the lease its booth holds, or from a new one. The grant of the final lease moves the
domains of the slot to their successors once the value is taken. -/
def Head.takeValue (h : Head) (slot site : Nat) (cellarOk : Bool) : Head × Option Nat :=
  match h.stg.lease slot site with
  | some _ => h.useLease slot site
  | none =>
    match h.grantLease slot site cellarOk with
    | (h, false) => (h, none)
    | (h, true) =>
      let (h, v) := h.useLease slot site
      (h.when ((h.stg.slot slot).c == 2 ^ 48) fun h => h.retireLease slot, v)

end Sys2Proof.Machine
end

