-- ==== Sys2Proof/Machine/WritePath.lean ====
section
/-!
DEFINITION. The write path: booth choice, stream contexts and engine sharing, the chunker, decisions, frames, encryption, staging,
placement and the acknowledgement (01_head_architecture.md R13 to R19; 04_chunking_and_dedup.md R81 to R98; 05 R105 to R115;
06 R131 to R133).
-/

namespace Sys2Proof.Machine

open Sys2Proof

/-! ## Booths and stream contexts (R13, R112, R114) -/

/-- The SITE entry in force. -/
def Head.siteEnt (h : Head) (site : Nat) : Option SiteEnt := (h.tsi.sections.site.getD [])[site]?

/-- A site is live, not fenced, and has its microcode (R292). -/
def Head.live (h : Head) (site : Nat) : Bool :=
  decide (site < h.sitesPresent) && ((h.siteEnt site).map (·.state == 1)).getD false && !h.tsi.fenced.contains site &&
    h.tsi.microcode.contains site

/-- A ring takes new bursts: powered, not gated by the governor, and not to be gated by an entry under way (R287, R302). -/
def Head.ringTakes (h : Head) (r : Nat) : Bool :=
  h.pwr.ringsOn.getLsbD r && !h.pwr.govGated.getLsbD r &&
    (match h.pwr.entry with | none => true | some e => decide (2 < e.target) || e.mask.getLsbD r)

/-- The site takes bursts: no image application holds it (R37). -/
def Head.takesBursts (h : Head) (site : Nat) : Bool :=
  h.live site && !h.tsi.restoring.contains site && h.ringTakes (site / 9)

/-- Rings that serve a domain, as a mask (R15). -/
def Head.dring (h : Head) (dom : Nat) : Nat := (h.tsi.sections.dring.getD []).getD dom 0

/-- Chain programs (R29): bit 0 WD, 1 WP, 2 RD, 3 RV. -/
def Head.serves (h : Head) (site prog : Nat) : Bool := bitAt prog (((h.siteEnt site).map (·.programs)).getD 0)

/-- Input bytes queued at a site: pieces for its engine and bytes requested and not yet arrived. -/
def Head.queued (h : Head) (site : Nat) : Nat :=
  (((h.dp.booth site).streams.flatMap (·.units)).map (·.bytes)).sum +
    ((h.hqe.ctxs.filter fun c => c.site == site && c.phase == .running).map fun c => c.asked - c.got).sum

/-- Sites of a domain's rings that serve a program and take bursts, by queued input bytes, ties to the lower number (R13, R15). -/
def Head.candidates (h : Head) (dom prog : Nat) : List Nat :=
  ((List.range 36).filter fun s => h.takesBursts s && bitAt (s / 9) (h.dring dom) && h.serves s prog).insertionSort
    fun a b => decide (h.queued a < h.queued b ∨ (h.queued a = h.queued b ∧ a ≤ b))

def Head.modBooth (h : Head) (site : Nat) (f : Booth → Booth) : Head :=
  h.modDp fun d => { d with booths := f (d.booth site) :: d.booths.filter (·.site != site) }

def Head.cmpCount (h : Head) (i n : Nat) : Head :=
  { h with cmp := { h.cmp with stat := h.cmp.stat.modify i fun x => sat32 (x + n) } }

/-- Contexts move to the spill pool: each is counted, and its cipher context as one that was wrapped (R112, R138). -/
def Head.countSpills (h : Head) (n : Nat) : Head :=
  let h := h.cmpCount 4 n
  { h with cph := { h.cph with stat := bump 5 n h.cph.stat } }

/-- Contexts in the spill pool. -/
def Dp.spilled (d : Dp) : Nat := ((d.booths.map fun b => (b.streams.filter (·.place == 1)).length)).sum

/-- The least recently served idle context in a booth slot. -/
def Booth.idle (b : Booth) : Option ZStream :=
  (b.streams.filter fun s => s.place == 0 && s.units == [] && some s.sid != b.holder).foldl
    (fun best s => match best with
      | none => some s
      | some x => if s.since < x.since then some s else some x) none

/-- Free a booth slot by spilling the least recently served idle context. -/
def Head.spill (h : Head) (site : Nat) : Head × Bool :=
  match (h.dp.booth site).idle with
  | none => (h, false)
  | some x =>
    if h.dp.spilled < h.fld Adr.CMP_SPILL_SIZE 7 0 * 1024 then
      ((h.modBooth site fun b => { b with streams := b.streams.map fun s => if s.sid = x.sid then { s with place := 1 } else s }).countSpills 1,
       true)
    else (h, false)

/-- A booth slot for a stream: a free one of 64, or one freed by a spill (R112). A refusal raises source 8n + 3 once an episode. -/
def Head.slotFor (h : Head) (site : Nat) : Head × Bool :=
  if ((h.dp.booth site).streams.filter (·.place == 0)).length < 64 then
    (h.modBooth site fun b => { b with spillEpisode := false }, true)
  else
    match h.spill site with
    | (h, true) => (h.modBooth site fun b => { b with spillEpisode := false }, true)
    | (h, false) =>
      let was := (h.dp.booth site).spillEpisode
      let h := (h.cmpCount 5 1).modBooth site fun b => { b with spillEpisode := true }
      (h.when (!was) fun h => h.raise (8 * site + 3), false)

/-- Give a stream a context at a site. -/
def Head.addStream (h : Head) (site kind owner : Nat) (units : List ZUnit) : Head :=
  let h := h.modBooth site fun b => { b with streams := b.streams ++
    [{ sid := h.dp.nextStream, kind := kind, owner := owner, units := units, since := h.dp.order }] }
  h.modDp fun d => { d with nextStream := d.nextStream + 1, order := d.order + 1 }

/-- The first candidate site that accepts a new stream. -/
def Head.acceptStream (h : Head) (kind owner : Nat) : List Nat → Head × Option Nat
  | [] => (h, none)
  | s :: rest =>
    match h.slotFor s with
    | (h, true) => (h.addStream s kind owner [], some s)
    | (h, false) => h.acceptStream kind owner rest

/-- The stream of an owner at a site. -/
def Booth.streamOf (b : Booth) (kind owner : Nat) : Option ZStream := b.streams.find? fun s => s.kind == kind && s.owner == owner

/-- Drop a stream's context. -/
def Head.dropStream (h : Head) (kind owner : Nat) : Head :=
  h.modDp fun d => { d with booths := d.booths.map fun b =>
    let gone := (b.streams.filter fun s => s.kind == kind && s.owner == owner).map (·.sid)
    { b with streams := b.streams.filter fun s => !gone.contains s.sid
             holder := if b.holder.any gone.contains then none else b.holder } }

/-- The next stream of the round robin after stream `t`. -/
def nextTurn (l : List ZStream) (t : Nat) : Option ZStream :=
  match l.filter fun s => decide (t < s.sid) with
  | s :: _ => some s
  | [] => l.head?

/-- Bring a context to a booth slot: with 64 there, the least recently served other one goes to the spill pool (R112). -/
def Head.restoreCtx (h : Head) (site sid : Nat) : Head :=
  let b := h.dp.booth site
  match b.streams.find? (·.sid == sid) with
  | none => h
  | some s =>
    if s.place = 0 then h
    else
      let others := (b.streams.filter (·.place == 0)).insertionSort fun x y => decide (x.since ≤ y.since)
      let out := if others.length < 64 then none else ((b.idle).orElse fun _ => others.head?).map (·.sid)
      (h.when out.isSome fun h => h.countSpills 1).modBooth site fun b => { b with streams := b.streams.map fun x =>
        if (x.sid = sid) then { x with place := 0 } else if (out = some x.sid) then { x with place := 1 } else x }

/-- Choose the next stream of a site's engine (R114); none while an image application holds the site (R37). -/
def Head.choose (h : Head) (site : Nat) : Head :=
  if h.tsi.restoring.contains site then h.modBooth site fun b => { b with holder := none } else
  let b := h.dp.booth site
  let ready := b.streams.filter fun s => decide (s.units ≠ [])
  let comps := (ready.filter (·.kind != 3)).insertionSort fun x y => decide (x.sid ≤ y.sid)
  let oldest := (ready.filter (·.kind == 3)).foldl
    (fun best s => match best with
      | none => some s
      | some x => if s.since < x.since then some s else some x) none
  let runLimit := orIfZero 1 (h.fld Adr.CMP_CTRL 19 16)
  let yieldLimit := orIfZero 1 (h.fld Adr.CMP_CTRL 23 20)
  let hold (s : ZStream) (b : Booth) : Booth := { b with holder := some s.sid }
  let h := h.modDp fun d => { d with order := d.order + 1 }
  match oldest with
  | some s =>
    if comps ≠ [] ∧ runLimit ≤ b.readRun then
      match (if b.turnBursts < yieldLimit then comps.find? (·.sid == b.turn) else none).orElse fun _ => nextTurn comps b.turn with
      | none => h
      | some c => (h.restoreCtx site c.sid).modBooth site fun b =>
          { hold c b with readRun := 0, turn := c.sid, turnBursts := if c.sid = b.turn then b.turnBursts + 1 else 1 }
    else (h.restoreCtx site s.sid).modBooth site fun b => { hold s b with readRun := b.readRun + 1 }
  | none =>
    match (if b.turnBursts < yieldLimit then comps.find? (·.sid == b.turn) else none).orElse fun _ => nextTurn comps b.turn with
    | none => h.modBooth site fun b => { b with holder := none }
    | some c => (h.restoreCtx site c.sid).modBooth site fun b =>
        { hold c b with readRun := 0, turn := c.sid, turnBursts := if c.sid = b.turn then b.turnBursts + 1 else 1 }

/-- An idle engine takes a stream as soon as input is ready. -/
def Head.kick (h : Head) (site : Nat) : Head := if (h.dp.booth site).holder.isNone then h.choose site else h

/-- Queue input for a stream. -/
def Head.feed (h : Head) (site kind owner : Nat) (units : List ZUnit) : Head :=
  (h.modBooth site fun b => { b with streams := b.streams.map fun s =>
    if s.kind = kind ∧ s.owner = owner then { s with units := s.units ++ units } else s }).kick site

/-! ## Chunks in hand -/

def Dp.pchunk? (d : Dp) (n : Nat) : Option PChunk := d.pchunks.find? (·.id == n)
def Head.modPchunk (h : Head) (n : Nat) (f : PChunk → PChunk) : Head :=
  h.modDp fun d => { d with pchunks := d.pchunks.map fun p => if p.id = n then f p else p }
def Head.ldrCount (h : Head) (i n : Nat) : Head := h.modLdr fun l => { l with cnt := bump i n l.cnt }

/-- VERIFY of a domain: other values act as 1 (R87). -/
def Head.verifyMode (h : Head) (dom : Nat) : Nat :=
  match ((h.domain dom).map (·.verify)).getD 1 with | 0 => 0 | 2 => 2 | _ => 1

/-- Kind and owner of the stream that compresses a chunk: its Write, or its segment stream. -/
def PChunk.streamKey (p : PChunk) : Nat × Nat := match p.stream with | none => (1, p.ctx) | some s => (2, s)

/-- Pieces of a chunk for the engine: at most one burst each (R106, R114). -/
def unitsOf (id len : Nat) : Nat → List Nat → List ZUnit
  | start, [] => [{ chunk := id, bytes := len - start, last := true }]
  | start, c :: cs =>
    if start < c ∧ c < len then { chunk := id, bytes := c - start, last := false } :: unitsOf id len c cs
    else unitsOf id len start cs

/-- Start compressing a chunk. -/
def Head.compress (h : Head) (p : PChunk) : Head :=
  h.feed p.site p.streamKey.1 p.streamKey.2 (unitsOf p.id p.data.length 0 p.cuts)

/-- Compress a chunk as a tentative copy while its decision waits (R97). -/
def Head.tentative (h : Head) (p : PChunk) (st : Stage) : Head :=
  let h := h.modPchunk p.id fun x => { x with stage := st, tentative := true }
  h.when (!p.tentative) fun h => (h.ldrCount 0x6 1).compress p

/-! ## Map updates of a Write (R18, R162) -/

/-- Sub-ranges of bytes [s, s + n) of a Write that carry one application tag. -/
def tagRuns (tags : List Nat) : Nat → Nat → Nat → List (Nat × Nat × Nat)
  | 0, _, _ => []
  | f + 1, s, n =>
    if n = 0 then []
    else
      let t := tags.getD (s / 4096) 0
      let same := ((tags.drop (s / 4096)).takeWhile (· == t)).length
      let stop := min (s + n) (max (s + 1) ((s / 4096 + same) * 4096))
      (s, stop - s, t) :: tagRuns tags f stop (s + n - stop)

/-- Map the bytes of a chunk of a Write to a stored chunk. -/
def Head.mapChunk (h : Head) (p : PChunk) (u : Nat) (counted : Bool) : Head :=
  h.withCtx p.ctx fun c =>
    let runs := tagRuns c.tags (c.tags.length + 1) p.start p.data.length
    h.forEach runs.zipIdx fun h ((s, n, t), i) =>
      h.mapExtent p.troupe p.domain p.nsid (c.cap.slba * 4096 + s) n u (s - p.start) t (counted && i == 0)

/-- A troupe for which this head may issue map updates now: its Flyer, not frozen, before the commit point of a handover (R249,
R261). -/
def Head.mayIssue (h : Head) (t : Troupe) : Bool :=
  let p := h.pair.trp t
  p.role == 1 && (p.state == 1 || p.state == 2 || (p.state == 5 && !((p.handover.map (·.committed)).getD false)))

/-- Contexts of segment streams that have ended, once no Write of theirs is in hand, are free. -/
def Head.reapStreams (h : Head) : Head :=
  let stays (s : ZStream) : Bool := s.kind != 2 || h.cmp.segs.any (·.id == s.owner) ||
    h.hqe.ctxs.any fun c => c.seg == some s.owner && c.phase == .running
  h.modDp fun d => { d with booths := d.booths.map fun b =>
    { b with streams := b.streams.filter stays
             holder := b.holder.filter fun n => b.streams.any fun s => s.sid == n && stays s } }

/-- A Write whose data has all arrived and whose chunks are all mapped has issued its last map update (R65, R80). -/
def Head.checkIssued (h : Head) (n : Nat) : Head :=
  h.withCtx n fun c =>
    if c.phase = .running ∧ c.got = c.cap.required ∧ c.openBytes = [] ∧ c.chunks = [] then
      let h := h.modCtx n fun x => { x with issued := true, phase := .waitAck }
      h.when c.seg.isSome Head.reapStreams
    else h

/-- A chunk's map updates have been issued in the beat in hand. -/
def Head.finishChunk (h : Head) (p : PChunk) : Head :=
  let h := h.modDp fun d => { d with pchunks := d.pchunks.filter (·.id != p.id) }
  let h := h.modCtx p.ctx fun c =>
    { c with chunks := c.chunks.filter (· != p.id), lastBeat := some (h.pair.trp p.troupe).openBeat, mapped := c.mapped + p.data.length }
  h.checkIssued p.ctx

/-- Drop a chunk's engine input and its tentative copy. -/
def Head.dropCopy (h : Head) (p : PChunk) : Head :=
  h.modDp fun d => { d with
    staged := d.staged.filter fun s => some s.handle != p.handle
    booths := d.booths.map fun b =>
      { b with streams := b.streams.map fun s => { s with units := s.units.filter (·.chunk != p.id) } } }

/-- A confirmed duplicate: the copy is discarded, the extents and increments are issued, and the tag is kept in the current
generation (R88, R90, R97). -/
def Head.confirmDup (h : Head) (p : PChunk) (u : Nat) : Head :=
  if !h.mayIssue p.troupe then h.modPchunk p.id fun x => { x with stage := .duplicate u }
  else ((((h.ldrCount 0x4 1).dropCopy p).mapChunk p u false).larderInsert p.fp).finishChunk p

/-- A chunk is a duplicate of `u` in mode 1, or its copies are compared in mode 2 (R87, R98). -/
def Head.matched (h : Head) (p : PChunk) (u : Nat) : Head :=
  if h.verifyMode p.domain = 2 then h.tentative p (.compareWait u) else h.confirmDup p u

/-! ## Frames (R102, R105 to R107) -/

/-- History mode of a chunk: per segment when it belongs to one. -/
def Head.cprof (h : Head) (id : Nat) : CprofEnt :=
  ((h.tsi.sections.cprof.getD [])[id]?).getD ⟨id, 1, 17, 0, 0, 0⟩

/-- ⌈log2 n⌉ for n up to 2^32. -/
def log2Up (n : Nat) : Nat := ((List.range 33).find? fun k => decide (n ≤ 2 ^ k)).getD 32

/-- The frame header (R105). -/
def frameHeader (c : CprofEnt) (segment : Bool) (len : Nat) : Bytes :=
  let small := decide (len < 256)
  let mid := decide (256 ≤ len ∧ len ≤ 65791)
  if segment then
    let w := min c.windowLog (log2Up (c.segmentKib * 1024))
    leBytes 4 0xFD2FB528 ++ leBytes 1 ((if mid then 0x40 else 0x80) + 4) ++ leBytes 1 ((w - 10) * 8) ++
      (if mid then leBytes 2 (len - 256) else leBytes 4 len)
  else
    leBytes 4 0xFD2FB528 ++ leBytes 1 ((if small then 0 else if mid then 0x40 else 0x80) + 0x24) ++
      (if small then leBytes 1 len else if mid then leBytes 2 (len - 256) else leBytes 4 len)

/-- A block: the smallest of Compressed, RLE when every byte is equal, and Raw; the compressed form is the match finder's
(log 7). -/
def zBlock (c : CprofEnt) (segment last : Bool) (history blocks content : Bytes) : Bytes :=
  let head (ty size : Nat) := leBytes 3 (flag last + ty * 2 + size * 8)
  if decide (2 ≤ content.length) && content.all (· == content.headD 0) then
    head 1 content.length ++ content.take 1
  else
    let z := Config.zstdBlock c.level c.literals (if segment then c.windowLog else 0) history blocks content
    if z.length < content.length then head 2 z.length ++ z else head 0 content.length ++ content

/-- The 96-byte chunk header (R102). -/
def chunkHeader (flags domain logical frame cprof seg keyId : Nat) (iv : Bytes) (guard : BitVec 64) (fp : Bytes) (written : Nat) : Bytes :=
  let b := leBytes 4 0x4B4E4843 ++ leBytes 1 1 ++ leBytes 1 flags ++ leBytes 2 domain ++ leBytes 4 logical ++ leBytes 4 frame ++
    leBytes 1 cprof ++ leBytes 1 0 ++ leBytes 2 seg ++ leBytes 4 keyId ++ fit 12 iv ++ leBytes 4 0 ++ leBytes 8 guard.toNat ++
    fit 32 fp ++ leBytes 8 written ++ leBytes 4 0
  b ++ crcBytes b

/-! ## Staging and placement -/

def Head.staged? (h : Head) (n : Nat) : Option Staged := h.dp.staged.find? (·.handle == n)

/-- Mirror a dirty chunk to the Catcher, or write it to the vault zones while ALONE (R18, R248). -/
def Head.copyOut (h : Head) (p : PChunk) (hd : Nat) (bytes : Bytes) (guard : BitVec 64) : Head :=
  if h.paired p.troupe then
    let h := { h with pair := { h.pair with mirrorBytes := h.pair.mirrorBytes + bytes.length } }
    (h.emit (.chunk p.troupe hd bytes guard)).modCtx p.ctx fun c => { c with unconfirmed := hd :: c.unconfirmed }
  else if !h.bit Adr.TRP_CFG 1 then
    let (shelf, a, _) := h.journalHome p.troupe
    (h.addBundle (.vault hd) clsLand p.troupe shelf 0 0xFFFF [(0xFF, a)]).modCtx p.ctx fun c =>
      { c with unvaulted := hd :: c.unvaulted }
  else h

/-- A free place of the pending table goes to the chunk that has waited longest (R96). -/
def Head.unhold (h : Head) : Head :=
  match h.dp.pchunks.find? (·.stage == .held) with
  | none => h
  | some p =>
    if h.ldr.pending.length < 65536 then
      let h := h.modLdr fun l => { l with pending := l.pending ++ [(p.domain, p.fp, p.id)] }
      (h.modPchunk p.id fun x => { x with stage := .unique }).compress p
    else h

/-- Chunks that wait for a pending chunk which is now stored as `u` (R97). -/
def Head.settlePending (h : Head) (k u : Nat) : Head :=
  let h := h.modLdr fun l => { l with pending := l.pending.filter (·.2.2 != k) }
  let waiters := h.dp.pchunks.filter (·.stage == .pendingWait k)
  (h.forEach waiters fun h p => h.matched p u).unhold

/-- Place a sealed unique chunk: it becomes dirty staging, joins a stripe, and its index insert and extents are issued (R18, R88).
Nothing happens while no stripe can take it, or while the troupe issues no map update. -/
def Head.storeChunk (h : Head) (p : PChunk) : Head :=
  if !h.mayIssue p.troupe then h else
  match p.handle.bind h.staged?, (h.domain p.domain).bind fun e => h.geom e.coldGeom with
  | some s, some g =>
    let u := h.dp.nextUid
    let h0 := h.modDp fun d => { d with
      nextUid := u + 1
      staged := d.staged.map fun x => if x.handle = s.handle then { x with uid := some u, dirty := true } else x }
    match h0.placeChunk p.troupe g (p.site / 9) u s.bytes.length with
    | (_, none) => h
    | (h, some (n, off)) =>
      let c : Chunk :=
        { uid := u, troupe := p.troupe, domain := p.domain, fp := p.fp, indexed := !p.noIndex, refcount := 1, stripe := n,
          off64 := off, reducedLen := s.bytes.length, logicalLen := p.data.length, keyId := leAt 0x14 4 s.bytes,
          guard := crc64 p.data, segment := p.segment }
      let h := h.modDp fun d => { d with chunks := d.chunks ++ [c] }
      let h := h.copyOut p s.handle s.bytes s.guard
      let h := h.when (!p.noIndex) fun h => h.indexInsert u
      ((h.mapChunk p u true).finishChunk p).settlePending p.id u
  | _, _ => h

/-- Place every sealed chunk that has been decided unique and still waits. -/
def Head.placeWaiting (h : Head) : Head :=
  let dup := h.dp.pchunks.filterMap fun p => match p.stage with | .duplicate u => some (p, u) | _ => none
  let h := h.forEach dup fun h (p, u) => h.confirmDup p u
  h.forEach (h.dp.pchunks.filter fun p => p.stage == .unique && p.handle.isSome) Head.storeChunk

/-- Decide a chunk unique (R88, R96): it enters the pending table, or waits for a place in it. A chunk that is stored without an
index entry does not enter. -/
def Head.decideUnique (h : Head) (p : PChunk) : Head :=
  let start (h : Head) (p : PChunk) : Head :=
    if p.handle.isSome then h.storeChunk p else if p.tentative then h else h.compress p
  if p.noIndex then
    start (h.modPchunk p.id fun x => { x with stage := .unique, noIndex := true }) p
  else
    match h.ldr.pending.find? fun e => e.1 == p.domain && e.2.1 == p.fp with
    | some e => if e.2.2 = p.id then h else h.tentative p (.pendingWait e.2.2)
    | none =>
      if 65536 ≤ h.ldr.pending.length then h.modPchunk p.id fun x => { x with stage := .held }
      else
        let h := h.modLdr fun l => { l with pending := l.pending ++ [(p.domain, p.fp, p.id)] }
        start (h.modPchunk p.id fun x => { x with stage := .unique }) p

/-- A hit that does not hold: the chunk becomes unique (R88, R97). -/
def Head.refute (h : Head) (p : PChunk) (noIndex : Bool) : Head :=
  (h.ldrCount 0x5 1).decideUnique { p with noIndex := p.noIndex || noIndex }

/-- Ask the full index (R88 step 3): the page is in the map cache, or a read of it is queued. -/
def Head.askIndex (h : Head) (p : PChunk) : Head :=
  let page := h.homePage p.troupe p.fp
  if h.ldr.cached.contains (p.troupe, page) then
    match h.dp.indexEntry p.domain p.fp with
    | none => h.refute p false
    | some c => if c.releasing then h.refute p false else if c.noDedup then h.refute p true else h.matched p c.uid
  else
    let h := h.tentative p (.pageWait page)
    if h.ldr.fetching.contains (p.troupe, page) then h
    else
      let (shelf, a, _) := h.journalHome p.troupe
      (h.modLdr fun l => { l with fetching := l.fetching ++ [(p.troupe, page)] }).addBundle (.pageRead p.troupe page) clsLand
        p.troupe shelf 0 0xFFFF [(0xFF, a)]

/-! ## Encryption (R131 to R133) -/

/-- A Write that finds no counter value, or whose slot is not ACTIVE, completes with status 0x83, or 0x82 for a SEALED slot. -/
def Head.failKey (h : Head) (p : PChunk) (slot : Nat) : Head :=
  h.withCtx p.ctx fun c =>
    let st := (h.stg.slot slot).state
    let ans := if slot = 0xFF ∨ st = 0 ∨ st = 1 then (stLocked, p.domain) else (stRetired, slot)
    ((h.complete c ans.1 ans.2).dropStream 1 c.id).dropWrite c.id

/-- Seal a chunk whose frame is complete: header, ciphertext, tag and padding go to staging with their STAGE_GUARD (R102, R133,
R165). A decided chunk is placed at once. -/
def Head.sealChunk (h : Head) (p : PChunk) (cellarOk : Bool) : Head :=
  let slot := (h.stg.entry p.domain).1
  let s := h.stg.slot slot
  if slot = 0xFF ∨ s.state = 0 ∨ s.state = 1 then h.failKey p slot
  else
    match h.takeValue slot p.site cellarOk with
    | (h, none) => h.failKey p slot
    | (h, some v) =>
      let e := h.domain p.domain
      let prof := h.cprof ((e.map (·.cprof)).getD 0)
      let frame := frameHeader prof p.segment.isSome p.data.length ++ p.blocks ++ leBytes 4 ((xxh64 p.data).toNat % 2 ^ 32)
      let segIdx := (p.segment.map (·.2)).getD 0
      let nodedup := h.verifyMode p.domain == 0
      let flags := flag p.tail + 2 * flag p.forced + 4 * flag (decide (0 < segIdx)) + 8 * flag nodedup
      let iv := h.iv p.site s.epoch v
      let hdr := chunkHeader flags p.domain p.data.length frame.length prof.id segIdx s.keyId iv (crc64 p.data)
        (if nodedup then zeros 32 else p.fp) (h.ptpNs / 1000000000)
      let (ct, tag) := gcmSeal s.key iv hdr frame
      let bytes := padTo 64 (hdr ++ ct ++ tag)
      let hd := h.dp.nextHandle
      let h := h.modDp fun d => { d with
        nextHandle := hd + 1
        staged := d.staged ++
          [{ handle := hd, troupe := p.troupe, uid := none, bytes := bytes, guard := crc64 bytes, dirty := false }] }
      let h := (h.modPchunk p.id fun x => { x with handle := some hd, sealed := true }).cmpCount 0 1
      let h := { h with cph := { h.cph with stat := bump 0 1 h.cph.stat } }
      let plain := h.cmp.plainBytes + p.data.length
      let out := h.cmp.frameBytes + frame.length
      let h := (h.cmpCount 1 (plain / 1024)).cmpCount 2 (out / 1024)
      let h := { h with cmp := { h.cmp with plainBytes := plain % 1024, frameBytes := out % 1024 } }
      match h.dp.pchunk? p.id with
      | none => h
      | some q => if q.stage = .unique then h.storeChunk q else h

/-! ## The engine's boundary (R114, R115) -/

/-- Bytes in the output buffer now: the cipher drains 32,000 bytes a µs (R133). -/
def Head.outNow (h : Head) (b : Booth) : Nat := b.outUsed - (h.now - b.outAt) * 32000

/-- The block of the piece in hand. -/
def Head.blockOf (h : Head) (p : PChunk) (u : ZUnit) : Bytes :=
  let prof := h.cprof (((h.domain p.domain).map (·.cprof)).getD 0)
  zBlock prof p.segment.isSome u.last (p.history ++ p.data.take p.eaten) p.blocks (slice p.eaten u.bytes p.data)

/-- Move an assembled block into the output buffer. -/
def Head.moveBlock (h : Head) (site : Nat) (p : PChunk) (u : ZUnit) (used : Nat) : Head :=
  let n := (h.blockOf p u).length
  let h := h.modPchunk p.id fun x => { x with blocks := x.blocks ++ h.blockOf p u, eaten := x.eaten + u.bytes }
  h.modBooth site fun b => { b with outUsed := used + n, outAt := h.now }

/-- The first piece of the holder is done. -/
def Head.popUnit (h : Head) (site : Nat) : Head :=
  h.modBooth site fun b => { b with streams := b.streams.map fun s =>
    if (some s.sid = b.holder) then { s with units := s.units.tail, since := h.dp.order } else s }

/-- A boundary on a site's engine: the holder's piece ends, its block moves to the output buffer or stalls the engine, a complete
frame is sealed, and the next stream is chosen. -/
def Head.boundary (h : Head) (site : Nat) (cellarOk : Bool) : Head :=
  let b := h.dp.booth site
  match b.holding with
  | none => h.choose site
  | some s =>
    match s.units with
    | [] => h.choose site
    | u :: _ =>
      if b.stalled then h
      else if 3 ≤ s.kind then (h.popUnit site).choose site
      else
        match h.dp.pchunk? u.chunk with
        | none => (h.popUnit site).choose site
        | some p =>
          let used := h.outNow b
          if u.bytes ≠ 0 ∧ used ≠ 0 ∧ 65536 < used + (h.blockOf p u).length then h.modBooth site fun b => { b with stalled := true }
          else
            let h := if u.bytes = 0 then h else h.moveBlock site p u used
            let h := h.popUnit site
            let h := if u.last then ((h.dp.pchunk? p.id).map fun q => h.sealChunk q cellarOk).getD h else h
            (h.choose site).placeWaiting

/-- The cipher has drained enough: the stalled block moves in; its piece stays the holder's until the boundary. -/
def Head.unstall (h : Head) (site : Nat) : Head :=
  let b := h.dp.booth site
  if !b.stalled then h
  else
    let h := h.modBooth site fun b => { b with stalled := false }
    match b.holding.bind (·.units.head?) with
    | none => h
    | some u =>
      match h.dp.pchunk? u.chunk with
      | none => h
      | some p =>
        let h := h.moveBlock site p u (min (h.outNow b) (65536 - (h.blockOf p u).length))
        h.modBooth site fun b => { b with streams := b.streams.map fun s =>
          if (some s.sid = b.holder) then { s with units := s.units.modifyHead fun x => { x with bytes := 0 } } else s }

/-! ## Segment streams (R109, R110) -/

def Head.modCmp (h : Head) (f : Cmp → Cmp) : Head := { h with cmp := f h.cmp }

/-- The Write's domain compresses per segment (R87, R108). -/
def Head.segmented (h : Head) (dom : Nat) : Bool :=
  h.verifyMode dom == 0 && h.bit Adr.CMP_CTRL 0 && (h.cprof (((h.domain dom).map (·.cprof)).getD 0)).history == 1

/-- A history slot is free. -/
def Cmp.histFree (c : Cmp) (slots : Nat) : Bool := decide ((c.segs.filter (·.history)).length < slots)

/-- End a segment stream: its history slot is free, and its context once its Writes in hand are done. -/
def Head.endSeg (h : Head) (x : SegStream) : Head :=
  (h.modCmp fun c => { c with segs := c.segs.filter (·.id != x.id) }).reapStreams

/-- The next segment of a stream, where SEG_ENABLE is sampled (R122): a history slot, or the stream runs per chunk (R110). -/
def Head.nextSegment (h : Head) (id : Nat) : Head :=
  let others := { h.cmp with segs := h.cmp.segs.filter (·.id != id) }
  let on := ((h.cmp.segs.find? (·.id == id)).bind fun x => (h.hqe.ns? x.nsid).map fun ns => h.segmented ns.domain).getD false
  let free := others.histFree (h.fld Adr.CMP_SPILL_SIZE 15 8)
  let ok := on && free
  let n := h.cmp.nextSeg
  let h := h.modCmp fun c => { c with
    nextSeg := n + 1
    segs := c.segs.map fun x => if x.id = id then { x with segment := n, index := 0, bytes := 0, history := ok, hist := [] } else x }
  h.when (on && !free) fun h => h.cmpCount 3 1

/-- The segment stream that a Write continues. -/
def Head.segFor (h : Head) (nsid slba : Nat) : Option SegStream :=
  h.cmp.segs.find? fun x => x.nsid == nsid && x.nextLba == slba && h.takesBursts x.site &&
    decide (h.now ≤ x.lastAt + orIfZero 1 (h.fld Adr.CMP_CTRL 15 8) * 100)

/-- Put a chunk into the open segment of its stream, unless the stream has ended; a segment closes at its size or at 1,024 chunks. -/
def Head.inSegment (h : Head) (id kib : Nat) (data : Bytes) : Head × Option (Nat × Nat) × Bytes :=
  match h.cmp.segs.find? (·.id == id) with
  | none => (h, none, [])
  | some x =>
    let seg := if x.history then some (x.segment, x.index) else none
    let h' := h.modCmp fun c => { c with segs := c.segs.map fun y => if y.id = x.id then
      { y with index := y.index + 1, bytes := y.bytes + data.length, hist := if y.history then y.hist ++ data else [] } else y }
    let full := decide (kib * 1024 ≤ x.bytes + data.length) || x.index == 1023
    (h'.when full fun h => h.nextSegment x.id, seg, x.hist)

/-! ## The chunker (R81 to R83) -/

def gearStep (z : BitVec 64) : BitVec 64 :=
  let z := (z ^^^ (z >>> 30)) * 0xBF58476D1CE4E5B9#64
  let z := (z ^^^ (z >>> 27)) * 0x94D049BB133111EB#64
  z ^^^ (z >>> 31)

/-- Entry `b` of the gear table of a seed. -/
def gear (seed : BitVec 64) (b : Byte) : BitVec 64 := gearStep (seed + (BitVec.ofNat 64 (b.toNat + 1)) * 0x9E3779B97F4A7C15#64)

/-- Bit `i` of a mask as a mask. -/
def maskBit (i : Nat) : BitVec 64 := BitVec.ofNat 64 (2 ^ i)

/-- M_S: the two lowest clear bits at or above bit 16 are also set. -/
def maskS (m : BitVec 64) : BitVec 64 :=
  (((List.range 64).filter fun i => decide (16 ≤ i) && !m.getLsbD i).take 2).foldl (fun x i => x ||| maskBit i) m

/-- M_L: the two lowest set bits are cleared; 0 when M has fewer than two. -/
def maskL (m : BitVec 64) : BitVec 64 :=
  let setBits := (List.range 64).filter m.getLsbD
  if setBits.length < 2 then 0 else (setBits.take 2).foldl (fun x i => x &&& ~~~maskBit i) m

/-- Where the open chunk stands: its bytes, last byte first, their number and the rolling hash. -/
structure CutState where
  rev : Bytes
  n : Nat
  hash : BitVec 64

/-- Cut after byte `x`: none, or a cut with its FORCED flag. -/
def cutHere (ms ml : BitVec 64) (n : Nat) (hash : BitVec 64) : Option Bool :=
  if n = 262144 then some true
  else if 65536 ≤ n ∧ hash &&& ml = 0 then some false
  else if 16384 ≤ n ∧ hash &&& ms = 0 then some false
  else none

/-- Run the chunker over bytes: the chunks closed, first one first, and the open chunk. -/
def chunker (seed ms ml : BitVec 64) : Bytes → CutState → List (Bytes × Bool) × CutState
  | [], c => ([], c)
  | x :: xs, c =>
    let hash := (c.hash <<< 1) + gear seed x
    let rev := x :: c.rev
    match cutHere ms ml (c.n + 1) hash with
    | some forced =>
      let (l, c') := chunker seed ms ml xs ⟨[], 0, 0⟩
      ((rev.reverse, forced) :: l, c')
    | none => chunker seed ms ml xs ⟨rev, c.n + 1, hash⟩

/-- Close a chunk of a Write: it enters the booth's chunk area. In a domain without dedup it is stored without a lookup (R87). -/
def Head.closeChunk (h : Head) (n : Nat) (data : Bytes) (forced tail : Bool) : Head :=
  h.withCtx n fun c =>
    match h.hqe.ns? c.cap.nsid with
    | none => h
    | some ns =>
      let id := h.dp.nextChunk
      let wp := h.verifyMode ns.domain == 0
      let kib := (h.cprof (((h.domain ns.domain).map (·.cprof)).getD 0)).segmentKib
      let (h, seg, hist) := match c.seg with | some id => h.inSegment id kib data | none => (h, none, [])
      let p : PChunk :=
        { id := id, ctx := n, site := c.site, nsid := ns.nsid, domain := ns.domain, troupe := ns.troupe, start := c.chunkStart,
          data := data, tail := tail, forced := forced,
          cuts := (c.bursts.filter fun b => decide (c.chunkStart < b ∧ b < c.chunkStart + data.length)).map (· - c.chunkStart),
          fp := zeros 32, noIndex := wp, stream := c.seg, segment := seg, history := hist }
      let h := h.modDp fun d => { d with nextChunk := id + 1, pchunks := d.pchunks ++ [p] }
      let h := h.modCtx n fun x => { x with chunks := x.chunks ++ [id], chunkStart := x.chunkStart + data.length }
      let h := (h.ldrCount 0xD (flag tail)).ldrCount 0xE (flag forced)
      h.when wp fun h => h.decideUnique p

/-- Feed data bytes of a Write to the chunker; at the Write's end the open chunk closes, as TAIL below 16,384 bytes. -/
def Head.chunkData (h : Head) (n : Nat) (data : Bytes) (atEnd : Bool) : Head :=
  h.withCtx n fun c =>
    match (h.hqe.ns? c.cap.nsid).bind fun ns => h.domain ns.domain with
    | none => h
    | some e =>
      let (done, rest) := chunker e.seed (maskS e.gearMask) (maskL e.gearMask) data
        ⟨c.openBytes.reverse, c.openBytes.length, c.hash⟩
      let h := h.forEach done fun h (d, forced) => h.closeChunk n d forced false
      let left := rest.rev.reverse
      let h := if atEnd ∧ left ≠ [] then h.closeChunk n left false (decide (left.length < 16384)) else h
      h.modCtx n fun x => if atEnd then { x with openBytes := [], hash := 0 } else { x with openBytes := left, hash := rest.hash }

/-! ## Protection checks on receive (R62, R163, R164) -/

/-- One received block: data and its protection fields. -/
structure RxBlock where
  data : Bytes
  guard : BitVec 64
  app : Nat
  ref : Nat

/-- Split a received block; with PRACT 1 the port generates its fields. -/
def rxBlock (c : Capsule) (lba : Nat) (bs : Bytes) : RxBlock :=
  if c.pract then ⟨bs, crc64 bs, c.lbat, lba % 2 ^ 48⟩
  else ⟨bs.take 4096, BitVec.ofNat 64 (beNat (slice 4096 8 bs)), beNat (slice 4104 2 bs), beNat (slice 4106 6 bs)⟩

/-- The failing fields of a block: guard first, then application tag, then reference tag. -/
def piFail (point : Nat) (lba : Nat) (b : RxBlock) (g a r : Bool) (appExp mask : Nat) : Option PiFail :=
  let good := crc64 b.data
  let f (sc : Nat) : PiFail :=
    { point := point, sc := sc, lba := lba, guardExp := good, guardAct := b.guard, refExp := lba % 2 ^ 48, refAct := b.ref,
      appExp := appExp, appAct := b.app, appMask := mask }
  if g && good != b.guard then some (f 0x82)
  else if a && b.app &&& mask != appExp &&& mask then some (f 0x83)
  else if r && b.ref != lba % 2 ^ 48 then some (f 0x84)
  else none

/-- Check point 0x0: the fields that PRCHK selects, none for a block with application tag 0xFFFF. -/
def portCheck (c : Capsule) (lba : Nat) (b : RxBlock) : Option PiFail :=
  if c.pract ∨ b.app = 0xFFFF then none
  else piFail 0x0 lba b c.prchkGuard c.prchkApp c.prchkRef c.lbat c.lbatm

/-- Check point 0x1: all three fields, the application tag against the one the port passed. -/
def entryCheck (lba : Nat) (b : RxBlock) : Option PiFail := piFail 0x1 lba b true false true b.app 0xFFFF

/-- Whole blocks of `size` bytes at the front of a byte string. -/
def splitBlocks (size : Nat) : Nat → Bytes → List Bytes
  | 0, _ => []
  | n + 1, bs => if size = 0 ∨ bs.length < size then [] else bs.take size :: splitBlocks size n (bs.drop size)

/-- Fail a command at a check point: the point is counted, the command ends with the field's status and its stream is dropped. -/
def Head.failAt (h : Head) (c : Ctx) (f : PiFail) : Head :=
  ((h.pointFailed f.point c.site 0 0).failCtx c f).dropStream 1 c.id

/-- Take received bytes of a Write into its booth (R164). -/
def Head.receive (h : Head) (n : Nat) (data : Bytes) : Head :=
  h.withCtx n fun c =>
    let size := c.cap.blockBytes
    let got := c.partialBytes ++ data
    let whole := splitBlocks size (got.length + 1) got
    let lba := c.cap.slba + c.tags.length
    let blocks := whole.zipIdx.map fun (b, i) => (lba + i, rxBlock c.cap (lba + i) b)
    match blocks.findSome? fun (l, b) => portCheck c.cap l b with
    | some f => h.failAt c f
    | none =>
      match blocks.findSome? fun (l, b) => entryCheck l b with
      | some f => h.failAt c f
      | none =>
        let dataBytes := blocks.flatMap (·.2.data)
        let total := c.chunkStart + c.openBytes.length + dataBytes.length
        let h := h.modCtx n fun x => { x with
          partialBytes := got.drop (whole.length * size), tags := x.tags ++ blocks.map (·.2.app), got := x.got + data.length
          bursts := x.bursts ++ [total], grant := none }
        let h := h.modHqe fun q => { q with blocksWritten := q.blocksWritten + whole.length }
        let h := h.chunkData n dataBytes (c.got + data.length == c.cap.required)
        h.checkIssued n

/-! ## Dispatch and bursts (R13, R14) -/

/-- The stream context of a Write: its segment stream's, or a new one at a candidate booth. -/
def Head.dispatchSite (h : Head) (c : Ctx) (ns : Namespace) : Head × Option Nat :=
  let prog := if h.verifyMode ns.domain = 0 then 1 else 0
  match h.segFor ns.nsid c.cap.slba with
  | some x =>
    ((h.modCmp fun m => { m with segs := m.segs.map fun y => if y.id = x.id then
       { y with nextLba := c.cap.slba + c.cap.nlb + 1, lastAt := h.now } else y }).modCtx c.id fun k => { k with seg := some x.id }, some x.site)
  | none =>
    let h := h.forEach (h.cmp.segs.filter (·.nsid == ns.nsid)) Head.endSeg
    if h.segmented ns.domain then
      let id := h.cmp.nextSeg
      match h.acceptStream 2 id (h.candidates ns.domain prog) with
      | (h, none) => (h, none)
      | (h, some site) =>
        let h := h.modCmp fun m => { m with
          nextSeg := id + 1
          segs := m.segs ++ [{ id := id, nsid := ns.nsid, site := site, nextLba := c.cap.slba + c.cap.nlb + 1, lastAt := h.now,
                               segment := id }] }
        ((h.nextSegment id).modCtx c.id fun k => { k with seg := some id }, some site)
    else h.acceptStream 1 c.id (h.candidates ns.domain prog)

/-- Send the Descriptor of a writer to the Catcher (R243). -/
def Head.describe (h : Head) (t : Troupe) (c : Ctx) : Head :=
  h.when (h.paired t) fun h => h.emit (.descriptor t c.cap.opcode c.cap.nsid c.cap.slba c.cap.nlb c.arrival c.id)

/-- Dispatch a Write: the booth is recorded; in-capsule data moves to it at once and its slot is freed (R13, R51). -/
def Head.dispatchWrite (h : Head) (c : Ctx) : Head :=
  match h.hqe.ns? c.cap.nsid with
  | none => h
  | some ns =>
    match h.dispatchSite c ns with
    | (h, none) => h
    | (h, some site) =>
      let h := h.modCtx c.id fun x => { x with phase := .running, site := site }
      let h := h.describe ns.troupe c
      match c.cap.inCapsule with
      | none => h
      | some d =>
        let h := h.modCtx c.id fun x => { x with asked := d.length }
        (h.freeSlots c.cntlid c.qid 1).receive c.id d

/-- Closed chunks that a site's booth-local memory still holds, in bytes (R104). -/
def Head.localBytes (h : Head) (site : Nat) : Nat :=
  ((h.dp.pchunks.filter fun p => p.site == site && p.eaten < p.data.length).map fun p => p.data.length - p.eaten).sum

/-- The booth has room for another burst: one of two input buffers, and the chunk area is not over-full. -/
def Head.burstRoom (h : Head) (site : Nat) : Bool :=
  decide ((h.hqe.ctxs.filter fun c => c.site == site && c.grant.isSome).length < 2 ∧ h.localBytes site ≤ 262144)

/-- Source 441 when pacing starts and at most once a second while it lasts, with an INFO record (R4). -/
def Head.notePacing (h : Head) : Head :=
  let was := h.dp.pacing
  let h := h.modDp fun d => { d with pacing := h.paced }
  if h.paced ∧ (!was ∨ h.dp.lastPacing + 1000000 ≤ h.now) then
    (h.modDp fun d => { d with lastPacing := h.now }).report 441 sevInfo []
  else h

/-- Request the next burst of a Write: at most 64 KiB (R14). -/
def Head.requestBurst (h : Head) (n : Nat) : Head :=
  h.withCtx n fun c =>
    if c.phase ≠ .running ∨ c.admin ∨ c.cap.opcode ≠ opWrite ∨ c.grant.isSome ∨ c.cap.required ≤ c.asked ∨
       !h.takesBursts c.site ∨ !h.burstRoom c.site then h
    else if h.paced then h.notePacing
    else
      let len := min 65536 (c.cap.required - c.asked)
      (h.notePacing.modCtx n fun x => { x with grant := some (c.asked, len), asked := c.asked + len }).emit (.pull n c.asked len)

/-! ## The acknowledgement (R18, R248) -/

/-- The beat of a troupe has matched, or its log entry is on both landing copies. -/
def Trp.settled (t : Trp) (beat : Nat) : Bool := decide (beat < t.openBeat) && t.beats.all fun b => decide (beat < b.beat)

/-- Post the completion of a writer whose conditions have been met; a Write takes its stream context with it. -/
def Head.tryAck (h : Head) (n : Nat) : Head :=
  h.withCtx n fun c =>
    match h.hqe.ns? c.cap.nsid with
    | none => h
    | some ns =>
      let t := h.pair.trp ns.troupe
      if c.phase = .waitAck ∧ t.role = 1 ∧ (t.state = 1 ∨ t.state = 2 ∨ t.state = 5) ∧ c.unconfirmed = [] ∧ c.unvaulted = [] ∧
         (c.lastBeat.map t.settled).getD true then
        (h.complete c stSuccess 0).dropStream 1 c.id
      else h

/-- Try every writer that waits. -/
def Head.tryAcks (h : Head) : Head :=
  h.forEach ((h.hqe.ctxs.filter (·.phase == .waitAck)).map (·.id)) Head.tryAck

end Sys2Proof.Machine
end

