-- ==== Sys2Proof/Machine/ShelfOps.lean ====
section
/-!
DEFINITION. Shelves: the rack account, demands, closing and waking, STAGE-IN holds and the estimate of a deferral
(10_shelves_and_the_wheel.md R221 to R226, R235, R237).
-/

namespace Sys2Proof.Machine

open Sys2Proof

def Head.modShf (h : Head) (f : Shf → Shf) : Head := { h with shf := f h.shf }

/-- Change a shelf; one not listed yet is listed. -/
def Head.modShelf (h : Head) (n : Nat) (f : Shelf → Shelf) : Head :=
  h.modShf fun s => { s with shelves := f (s.shelf n) :: s.shelves.filter (·.shelf != n) }

/-! ## Power slots -/

/-- Class bit POWER (R230). -/
def clsPower : Nat := 4

/-- The slot admits a class. -/
def Head.admits (h : Head) (slot cls : Nat) : Bool := bitAt cls (h.plan slot).classMask

/-- Some slot of the cycle admits POWER. -/
def Head.anyPower (h : Head) : Bool := (List.range 256).any fun s => h.admits s clsPower

/-- The first power slot at or after a slot count. -/
def Head.powerSlotFrom (h : Head) (n : Nat) : Option Nat :=
  ((List.range 256).find? fun i => h.admits ((n + i) % 256) clsPower).map (n + ·)

/-- The first power slot that begins at least 1 beat later. -/
def Head.nextPower (h : Head) : Option Nat := h.powerSlotFrom (h.whl.slotCount + 16)

/-! ## The rack account (R222) -/

/-- What a power slot samples (R239): SHF_POLICY, and on the power master the figures of each shelf; the other head keeps the copy. -/
def Head.sampleShelves (h : Head) : Head :=
  let policy := h.reg Adr.SHF_POLICY
  let own := h.shelvesOn.map fun s =>
    (s, h.reg (bankKey s Adr.SHF_SHELF_PWR), h.reg (bankKey s Adr.SHF_SHELF_LOW), h.reg (bankKey s Adr.SHF_SHELF_TIME))
  h.modShf fun f => { f with slotDone := some h.whl.slotCount, policy := policy, figures := if h.pair.spareMaster then own else f.figures }

/-- Draw that a wake adds. -/
def Head.wakeAdds (h : Head) (s : Nat) : Nat := h.wakeW s - h.darkW s

/-- D at the next power slot: a shelf that is leaving has left. -/
def Head.drawNext (h : Head) : Nat :=
  (h.modShf fun f => { f with shelves := f.shelves.map fun s => { s with leaving := false } }).rackDraw

/-- What the closings under way free. -/
def Head.closingFrees (h : Head) : Nat :=
  ((h.shelvesOn.filter fun s => (h.shf.shelf s).state == 4).map fun s => h.openW s - h.darkW s).sum

/-- Draw that the transition armed for a shelf adds: a wake, or modules that gain power. -/
def Head.armAdds (h : Head) (s : Nat) : Nat :=
  match (h.shf.shelf s).armed with
  | some (_, 1) => h.wakeAdds s
  | some (_, 2) =>
    h.moduleW s * ((List.range 48).filter fun i => bitAt i (h.shf.shelf s).armMask && !bitAt i (h.shf.shelf s).partialMask).length
  | _ => 0

/-- Added draws of the transitions armed for a power slot. -/
def Head.armedAdds (h : Head) (n : Nat) : Nat :=
  ((h.shelvesOn.filter fun s => ((h.shf.shelf s).armed.map (·.1)) == some n).map h.armAdds).sum

/-- Added draws of all the transitions armed. -/
def Head.armedTotal (h : Head) : Nat := (h.shelvesOn.map h.armAdds).sum

/-- R222 admits a transition that adds `w` in power slot `n`, beside what is armed. -/
def Head.slotAdmits (h : Head) (n w : Nat) : Bool :=
  decide (h.drawNext + h.armedTotal + w ≤ h.shf.rackW ∧ h.armedAdds n + w ≤ (h.plan (n % 256)).budgetW)

def Head.wakeAdmitted (h : Head) (s n : Nat) : Bool := h.slotAdmits n (h.wakeAdds s)

/-- Send ARM POWER for a shelf, or ARM MODULES for action 2: cycle low 32 bits, slot, and the action or the module mask (R220). -/
def Head.armShelf (h : Head) (s n action : Nat) : Head :=
  (h.modShelf s fun x => { x with armed := some (n, action) }).emit
    (if action = 2 then .shelfBus s 0x11 [n / 256 % 2 ^ 32, n % 256, (h.shf.shelf s).armMask]
     else .shelfBus s 0x10 [n / 256 % 2 ^ 32, n % 256, action])

/-! ## Closing (R224, R225) -/

/-- Geometries that cold shelves take: those of the enabled domains. -/
def Head.coldGeoms (h : Head) : List GeomEnt :=
  (((h.tsi.sections.domain.getD []).filter (·.enable == 1)).map (·.coldGeom)).dedup.filterMap h.geom

/-- Most free zone groups of a shelf for any geometry in use. -/
def Head.roomOn (h : Head) (s : Nat) : Nat := ((h.coldGeoms.map fun g => h.freeGroups s (g.k + 2))).foldl max 0

/-- Cold shelves open for appends. -/
def Head.fillOpen (h : Head) : List Nat :=
  h.shelvesOn.filter fun s => !h.landing s && (h.shf.shelf s).state == 3 && decide (0 < h.roomOn s)

def Head.held (h : Head) (s : Nat) : Bool := h.shf.holds.any (·.shelf == s)

/-- A shelf is closable (R224). -/
def Head.closable (h : Head) (s : Nat) : Bool :=
  let x := h.shf.shelf s
  h.shelfOn s && x.state == 3 && !h.landing s && !h.held s &&
    decide (x.since + h.shelfPolicy 11 0 * 1000000 ≤ h.now) &&
    (h.roomOn s == 0 || decide (h.shelfPolicy 15 12 ≤ (h.fillOpen.filter (· != s)).length))

/-- The shelf OPEN longest of a list; ties to the lower number. -/
def Head.openLongest (h : Head) (l : List Nat) : Option Nat :=
  l.foldl (fun best s => match best with
    | none => some s
    | some b => if (h.shf.shelf s).since < (h.shf.shelf b).since then some s else some b) none

/-- A shelf goes to a state at this moment; vendor event 0xC2 for a landing shelf or one with a zone group of a troupe this head
flies (R75). -/
def Head.setShelfState (h : Head) (s st : Nat) : Head :=
  let used := h.landing s || h.pty.groups.any fun g => g.shelf == s && h.flies g.troupe
  let h := h.modShelf s fun x => { x with state := st, since := h.now }
  h.when used fun h => h.postEvent 7 0xC2 0xC2

/-- Step 1 of R225: CLOSING, and its open stripes close and launch. -/
def Head.startClosing (h : Head) (s : Nat) : Head :=
  let h := (h.setShelfState s 4).modShelf s fun x => { x with shn := false, shutDown := false, fill := false }
  h.forEach ((h.pty.stripes.filter fun x => x.shelf == s && x.phase == .opened).map (·.number)) Head.closeStripe

/-- Step 3 of R225: ARM POWER off for the first power slot that begins at least 1 beat later, if there is one. -/
def Head.armOff (h : Head) (s : Nat) : Head :=
  match h.nextPower with
  | none => h
  | some n => h.armShelf s n 0

/-- Close shelves until the wake of shelf `s` will be admitted once the closings under way have ended. -/
def Head.closeFor (h : Head) (s : Nat) : Nat → Head
  | 0 => h
  | f + 1 =>
    if h.drawNext - h.closingFrees + h.armedTotal + h.wakeAdds s ≤ h.shf.rackW then h
    else match h.openLongest (h.shelvesOn.filter h.closable) with
      | none => h
      | some c => (h.startClosing c).closeFor s f

/-- Closings that a lower rack budget asks for (R223): MIN_OPEN_S and FILL_SHELVES do not protect a shelf. -/
def Head.fitBudget (h : Head) : Nat → Head
  | 0 => h
  | f + 1 =>
    if h.drawNext - h.closingFrees ≤ h.shf.rackW then h.modShf fun x => { x with holdsOver := false }
    else
      match h.openLongest (h.shelvesOn.filter fun s => !h.landing s && (h.shf.shelf s).state == 3 && !h.held s) with
      | some c => (h.startClosing c).fitBudget f
      | none =>
        if h.shf.holds ≠ [] ∧ !h.shf.holdsOver then (h.modShf fun x => { x with holdsOver := true }).raise 438 else h

/-! ## Demands (R224) -/

/-- Deadline order: the earlier one first, none last, ties to the lower shelf. -/
def Demand.before (a b : Demand) : Bool :=
  match a.deadline, b.deadline with
  | some x, some y => decide (x < y ∨ (x = y ∧ a.shelf < b.shelf))
  | some _, none => true
  | none, some _ => false
  | none, none => decide (a.shelf < b.shelf)

/-- The demands the power master serves: its own and its peer's. -/
def Shf.allDemands (f : Shf) : List Demand :=
  f.demands ++ f.peerDemands.map fun (k, s, d) =>
    { kind := k, shelf := s, deadline := match k with | .background => none | _ => some d }

/-- The shelf that a demand takes: a Fill demand the DARK shelf with most free zone groups, any other its own. PARTIAL is a dark shelf
too (R194, R221). -/
def Head.demandShelf (h : Head) (d : Demand) : Option Nat :=
  let dark (s : Nat) := ((h.shf.shelf s).state == 1 || (h.shf.shelf s).state == 5) && (h.shf.shelf s).armed.isNone
  match d.kind with
  | .fill =>
    if h.shelvesOn.any fun s => (h.shf.shelf s).fill && ((h.shf.shelf s).state == 2 || (h.shf.shelf s).armed.isSome) then none
    else
      (h.shelvesOn.filter fun s => !h.landing s && dark s && decide (0 < h.roomOn s)).foldl
        (fun best s => match best with
          | none => some s
          | some b => if h.roomOn b < h.roomOn s then some s else some b) none
  | _ => if h.shelfOn d.shelf ∧ dark d.shelf then some d.shelf else none

/-- A demand of another kind waits: for a DARK shelf, or for one that is CLOSING. -/
def Head.demandWaits (h : Head) : Bool :=
  h.shf.allDemands.any fun d => d.kind != .background &&
    ((h.demandShelf d).isSome || (d.kind != .fill && h.shelfOn d.shelf && (h.shf.shelf d.shelf).state == 4))

/-- The waiting demand with the earliest deadline that a DARK shelf can answer, with its shelf; a Background demand only when no other
waits. -/
def Head.nextDemand (h : Head) : Option (Demand × Nat) :=
  ((h.shf.allDemands.filter fun d => d.kind != .background || !h.demandWaits).filterMap
    fun d => (h.demandShelf d).map fun s => (d, s)).foldl
    (fun best x => match best with
      | none => some x
      | some b => if x.1.before b.1 then some x else some b) none

/-- Serve the demand with the earliest deadline: arm the wake at a power slot, or close shelves for it. -/
def Head.serveDemand (h : Head) (atSlot : Bool) : Head :=
  match h.nextDemand with
  | none => h
  | some (d, s) =>
    match h.nextPower with
    | none => h
    | some n =>
      if h.wakeAdmitted s n then
        (if atSlot then (h.armShelf s n 1).modShelf s fun x => { x with fill := d.kind == .fill } else h)
      else h.closeFor s 128

/-- Add a demand; demands for one shelf merge and take the earliest deadline. -/
def Head.addDemand (h : Head) (d : Demand) : Head :=
  h.modShf fun f =>
    match f.demands.find? fun x => x.kind == d.kind && x.shelf == d.shelf with
    | none => { f with demands := f.demands ++ [d] }
    | some _ => { f with demands := f.demands.map fun x =>
        if x.kind = d.kind ∧ x.shelf = d.shelf then
          { x with ctxs := x.ctxs ++ d.ctxs, deadline := match x.deadline, d.deadline with
              | some a, some b => some (min a b)
              | none, b => b
              | a, none => a }
        else x }

/-- A demand arrives (R224): the power master serves the earliest one. -/
def Head.demand (h : Head) (d : Demand) : Head :=
  let h := h.addDemand d
  h.when h.pair.spareMaster fun h => h.serveDemand false

/-- Demands that an OPEN shelf has met. -/
def Head.meetDemands (h : Head) (s : Nat) (fill : Bool) : Head :=
  h.modShf fun f => { f with
    demands := f.demands.filter fun d => !(d.shelf == s && d.kind != .fill) && !(fill && d.kind == .fill)
    peerDemands := f.peerDemands.filter fun d => !(d.2.1 == s && d.1 != .fill) && !(fill && d.1 == .fill) }

/-! ## A power slot -/

/-- Transitions armed for this slot take effect; one whose ARM failed moves to the next power slot with source 436 (R220). -/
def Head.transition (h : Head) (failed : List Nat) (s : Nat) : Head :=
  let x := h.shf.shelf s
  match x.armed with
  | none => h
  | some (n, act) =>
    if h.whl.slotCount < n then h
    else if failed.contains s then
      let h := h.raise 436
      match h.nextPower with
      | none => h.modShelf s fun x => { x with armed := none }
      | some m => h.armShelf s m act
    else
      (h.setShelfState s (if act = 0 then 1 else if act = 1 then 2 else if x.armMask = 0 then 1 else 5)).modShelf s fun x =>
        if act = 0 then { x with armed := none, leaving := true, linked := false, railsOff := true, partialMask := 0 }
        else if act = 1 then
          { x with armed := none, linked := false, railsOff := false, partialMask := 0, failed := if x.failed = 1 then 2 else x.failed }
        else { x with armed := none, railsOff := x.armMask == 0, partialMask := x.armMask }

/-- Close every closable shelf that nothing needs. -/
def Head.closeUnneeded (h : Head) : Head :=
  let named := (h.shf.allDemands.filter (·.kind != .fill)).map (·.shelf)
  h.forEach (h.shelvesOn.filter fun s => h.closable s && h.roomOn s == 0 && !named.contains s) Head.startClosing

/-- The work of the power master at a power slot. -/
def Head.atPowerSlot (h : Head) (failed : List Nat) : Head :=
  if !h.pair.spareMaster ∨ !h.admits h.whl.slot clsPower then h
  else
    let h := h.modShf fun f => { f with shelves := f.shelves.map fun s => { s with leaving := false } }
    let h := h.forEach h.shelvesOn fun h s => h.transition failed s
    let h := h.forEach (h.shelvesOn.filter fun s =>
      (h.shf.shelf s).state == 4 && (h.shf.shelf s).shutDown && (h.shf.shelf s).armed.isNone) Head.armOff
    let h := (h.fitBudget 128).serveDemand true
    h.closeUnneeded

/-- Arms not yet reached that R222 no longer admits, after a change of RACK_W or of the plan: DISARM withdraws them (R220), and a power-off
goes to the next power slot. -/
def Head.checkArms (h : Head) : Head :=
  h.when h.pair.spareMaster fun h => h.forEach h.shelvesOn fun h s =>
    match (h.shf.shelf s).armed with
    | none => h
    | some (n, act) =>
      let w := h.armAdds s
      let out := (h.modShelf s fun x => { x with armed := none })
      if n ≤ h.whl.slotCount ∨ (h.admits (n % 256) clsPower ∧ (w = 0 ∨ out.slotAdmits n w)) then h
      else
        let h := out.emit (.shelfBus s 0x12 [])
        if act = 0 then h.armOff s else h

/-! ## The estimate of a deferral (R21, R235) -/

/-- The least draw of the rack: landing shelves OPEN, every other one DARK. -/
def Head.leastDraw (h : Head) : Nat := (h.shelvesOn.map fun s => if h.landing s then h.openW s else h.darkW s).sum

/-- No plan can wake the shelf; none at all on a head that is not power master while the link is down (R260). -/
def Head.hopeless (h : Head) (s : Nat) : Bool :=
  let x := (h.shf.shelf s).state
  x == 6 || x == 0 || (!h.pair.spareMaster && !h.pair.icl) ||
    (x != 2 &&
      (!h.anyPower || decide (h.shf.rackW < h.leastDraw + h.wakeAdds s) ||
        (List.range 256).all fun i => !h.admits i clsPower || decide ((h.plan i).budgetW < h.wakeAdds s)))

/-- The head at a later time of its plan: the Wheel runs on, 16 µs a slot. -/
def Head.runTo (h : Head) (t : Nat) : Head :=
  let n := h.whl.slotCount + (t - h.whl.slotAt) / 16
  { h with now := t, whl := { h.whl with cycle := n / 256, slot := n % 256, slotAt := h.whl.slotAt + (t - h.whl.slotAt) / 16 * 16 } }

/-- Times at which a shelf or a hold changes by itself. -/
def Head.planTimes (h : Head) : List Nat :=
  (h.shelvesOn.map fun s =>
    let x := h.shf.shelf s
    if x.state = 4 ∧ x.armed.isNone then x.since + h.closeMs s * 1000
    else if x.state = 2 then x.since + h.wakeMs s * 1000
    else if x.state = 3 then x.since + h.shelfPolicy 11 0 * 1000000
    else 0) ++ h.shf.holds.map (·.expiry)

/-- The time of the next power slot. -/
def Head.powerTime (h : Head) : Option Nat :=
  (h.powerSlotFrom (h.whl.slotCount + 1)).map fun n => h.whl.slotAt + (n - h.whl.slotCount) * 16

/-- What happens by itself at a time of the plan. -/
def Head.planEvents (h : Head) : Head :=
  let h := h.modShf fun f => { f with holds := f.holds.filter fun x => decide (h.now < x.expiry) }
  h.forEach h.shelvesOn fun h s =>
    let x := h.shf.shelf s
    if x.state = 4 ∧ x.armed.isNone ∧ x.since + h.closeMs s * 1000 ≤ h.now then h.armOff s
    else if x.state = 2 ∧ x.since + h.wakeMs s * 1000 ≤ h.now then
      (h.modShelf s fun x => { x with state := 3, since := h.now }).meetDemands s x.fill
    else h

/-- Run the plan forward until every shelf of a list is OPEN; answers the time. -/
def Head.planFor (l : List Nat) : Nat → Head → Option Nat
  | 0, _ => none
  | f + 1, h =>
    if l.all fun s => (h.shf.shelf s).state == 3 then some h.now
    else
      let changes := h.planTimes.filter fun t => decide (h.now < t)
      let armed := h.shelvesOn.any fun s => (h.shf.shelf s).armed.isSome || (h.shf.shelf s).leaving
      let wants := match h.nextDemand, h.nextPower with
        | some (_, s), some n => h.wakeAdmitted s n
        | _, _ => false
      let times := changes ++ (if armed || wants then h.powerTime.toList else [])
      match times with
      | [] => none
      | t :: ts =>
        let t := ts.foldl min t
        let h' := (h.runTo t).planEvents
        let h' := if h'.powerSlotFrom h'.whl.slotCount = some h'.whl.slotCount ∧ t = h'.whl.slotAt then h'.atPowerSlot []
                  else h'.serveDemand false
        Head.planFor l f h'

/-- The estimate in milliseconds for shelves that are not OPEN. -/
def Head.estimate (h : Head) (l : List Nat) : Nat :=
  if l.any h.hopeless then 0xFFFFFFFF
  else
    let due := h.now + orIfZero 1 (h.shelfPolicy 23 16) * 1000000
    let p := { h with pair := { h.pair with spareMaster := true }, out := [], pty := { h.pty with stripes := [] } }
    let p := l.foldl (fun p s => p.demand { kind := .stage, shelf := s, deadline := some due }) p
    match Head.planFor l 4096 p with
    | none => 0xFFFFFFFF
    | some t =>
      let ms := ceilDiv (t - h.now) 1000
      if 0xFFFFFFFE < ms then 0xFFFFFFFF else ms

end Sys2Proof.Machine
end

