-- ==== Sys2Proof/Machine/ReadOps.lean ====
section
/-!
DEFINITION. The read path up to the decode: resolving a range, deferral, decode tasks, their sources and sites, and the blocks a
command sends or compares (01_head_architecture.md R15, R20, R21; 05 R111, R120; 06 R136; 08 R162, R163).
-/

namespace Sys2Proof.Machine

open Sys2Proof

/-! ## Resolving a range -/

/-- Extents that touch bytes [s, s + n) of a namespace. -/
def extentsIn (l : List Extent) (nsid s n : Nat) : List Extent :=
  l.filter fun e => e.nsid == nsid && decide (e.start < s + n ∧ s < e.start + e.len)
def Dp.extentsOf (d : Dp) (nsid s n : Nat) : List Extent := extentsIn d.extents nsid s n

/-- Stored chunks that a range of blocks needs. -/
def Dp.chunksOf (d : Dp) (nsid slba blocks : Nat) : List Nat :=
  ((d.extentsOf nsid (slba * 4096) (blocks * 4096)).filterMap (·.chunk)).dedup

/-- A copy in this head's staging (R20 source 1). -/
def Dp.stagedCopy (d : Dp) (u : Nat) : Option Staged := d.staged.find? fun s => s.uid == some u && !s.mirror

/-- The shelf whose members hold a stored chunk. -/
def Head.chunkShelf (h : Head) (u : Nat) : Option Nat := ((h.dp.chunk? u).bind fun c => h.stripe? c.stripe).map (·.shelf)

/-- A shelf that takes operations of this head: OPEN, and its port has a link. -/
def Head.reachable (h : Head) (s : Nat) : Bool := (h.shf.shelf s).state == 3 && !(h.shf.port (h.shelfPort s)).lost

/-- Shelves that must be opened for a chunk list: those of chunks with no copy in staging. -/
def Head.darkShelves (h : Head) (us : List Nat) : List Nat :=
  ((us.filter fun u => (h.dp.stagedCopy u).isNone).filterMap h.chunkShelf).dedup.filter fun s => (h.shf.shelf s).state != 3

/-- The chunks of a segment up to and including chunk `u`, in order (R111). -/
def Dp.segmentTo (d : Dp) (u : Nat) : List Nat :=
  match (d.chunk? u).bind (·.segment) with
  | none => [u]
  | some (s, i) =>
    let l := (d.chunks.filter fun c => match c.segment with | some (t, j) => t == s && decide (j ≤ i) | none => false)
    ((l.insertionSort fun a b => decide ((a.segment.map (·.2)).getD 0 ≤ (b.segment.map (·.2)).getD 0)).map (·.uid))

/-- Every chunk whose decode a chunk list needs. -/
def Dp.withHistory (d : Dp) (us : List Nat) : List Nat := (us.flatMap d.segmentTo).dedup

/-! ## Decode tasks -/

def Dp.task? (d : Dp) (n : Nat) : Option Task := d.tasks.find? (·.id == n)
def Head.modTask (h : Head) (n : Nat) (f : Task → Task) : Head :=
  h.modDp fun d => { d with tasks := d.tasks.map fun t => if t.id = n then f t else t }

/-- Drop a task, its stream and its member reads. -/
def Head.dropTask (h : Head) (n : Nat) : Head :=
  let h := (h.modDp fun d => { d with tasks := d.tasks.filter (·.id != n) }).dropStream 3 n
  h.modPty fun p => { p with bundles := p.bundles.filter fun b => b.kind != .chunkRead n && b.kind != .rebuildRead n }

/-- Input pieces of a reduced chunk of `len` bytes: at most 64 KiB each. -/
def burstUnits (id : Nat) : Nat → Nat → List ZUnit
  | 0, _ => []
  | f + 1, len => if len ≤ 65536 then [{ chunk := id, bytes := len, last := true }]
                  else { chunk := id, bytes := 65536, last := false } :: burstUnits id f (len - 65536)

/-- The reduced bytes of a task have reached its booth. -/
def Head.feedTask (h : Head) (t : Task) : Head :=
  let len := ((h.dp.chunk? t.uid).map (·.reducedLen)).getD 0
  let h := h.modTask t.id fun x => { x with waiting := none }
  h.feed t.site 3 t.id (burstUnits t.id 8 len)

/-- Data roles of a stripe that hold bytes of a chunk. -/
def chunkRoles (c : Chunk) : List Nat :=
  let s := c.off64 * 64
  (List.range 32).filter fun r => decide (r * unitBytes < s + c.reducedLen ∧ s < (r + 1) * unitBytes)

/-- The chunk's bytes touch block `row` of data role `r`. -/
def Chunk.touches (c : Chunk) (r row : Nat) : Bool :=
  let s := c.off64 * 64
  let b := r * unitBytes + row * 4096
  decide (b < s + c.reducedLen ∧ s < b + 4096)

/-- Rows of its stripe that hold a chunk's bytes. -/
def chunkRows (c : Chunk) : List Nat := (List.range 32).filter fun row => (chunkRoles c).any fun r => c.touches r row

/-- Read a chunk's members for a task: the roles that hold it; k of the others when one of those is missing (R202); with `all` every role,
for a chunk that fails its checks (R168). -/
def Head.readMembers (h : Head) (t : Task) (all : Bool) : Head :=
  match h.dp.chunk? t.uid with
  | none => h
  | some c =>
    match h.stripe? c.stripe with
    | none => h
    | some s =>
      let mods := (h.roleModules s.number).zipIdx.map fun (m, r) => (r, m)
      let dead := h.deadRoles s.number
      let rebuild := all || (chunkRoles c).any dead.contains
      let want := if all then List.range (s.k + 2) else if rebuild then survivors s.k dead else chunkRoles c
      let roles := mods.filter fun x => want.contains x.1 && !dead.contains x.1
      let id := h.pty.nextBundle
      let h := h.when rebuild fun h => h.ptyCount 0x5 1
      let h := h.addBundle (if rebuild then .rebuildRead t.id else .chunkRead t.id) clsHread s.troupe s.shelf s.number 0xFFFF roles
      h.modTask t.id fun x => { x with waiting := some id }

/-- The first live site for a decode: of the domain's rings for a new decode (R15), of one ring for another attempt (R120). -/
def Head.decodeSites (h : Head) (dom prog : Nat) (ring : Option Nat) (not : List Nat) : List Nat :=
  match ring with
  | none => (h.candidates dom prog).filter fun s => !not.contains s
  | some r => ((List.range 36).filter fun s => s / 9 == r && h.takesBursts s && h.serves s prog && !not.contains s).insertionSort
      fun a b => decide (h.queued a < h.queued b ∨ (h.queued a = h.queued b ∧ a ≤ b))

/-- Start a decode of a stored chunk: from staging, or from the members of an OPEN shelf (R20). None when no booth accepts it. -/
def Head.startTask (h : Head) (u : Nat) (purpose : Purpose) (site : Option Nat) : Head × Option Nat :=
  match h.dp.chunk? u with
  | none => (h, none)
  | some c =>
    let id := h.dp.nextTask
    let prog := match purpose with | .verify => 3 | _ => 2
    let sites := match site with | some s => [s] | none => h.decodeSites c.domain prog none []
    match h.acceptStream 3 id sites with
    | (h, none) => (h, none)
    | (h, some s) =>
      let copy := h.dp.stagedCopy u
      let t : Task := { id := id, uid := u, site := s, purpose := purpose, source := if copy.isSome then 0 else 1,
                        dirty := (copy.map (·.dirty)).getD false }
      let h := h.modDp fun d => { d with nextTask := id + 1, tasks := d.tasks ++ [t] }
      (if copy.isSome then h.feedTask t else h.readMembers t false, some s)

/-- Start the decodes of a command: a segment runs whole on one booth (R111). None when a booth refuses. -/
def Head.startAll (h : Head) (ctx : Nat) (us : List Nat) : Option Head :=
  us.foldl (fun (acc : Option Head) u =>
    acc.bind fun h =>
      let l := h.dp.segmentTo u
      let r := l.foldl (fun (a : Option (Head × Option Nat)) v =>
        a.bind fun (h, site) =>
          match h.startTask v (if v = u then .read ctx else .history ctx) site with
          | (_, none) => none
          | (h, some s) => some (h, if l.length = 1 then none else some s)) (some (h, none))
      r.map (·.1)) (some h)

/-! ## Blocks of a command -/

/-- The stored application tag of a block: that of the extent that maps its first byte; 0xFFFF where none does (R60, R162). -/
def tagAt (l : List Extent) (nsid lba : Nat) : Nat :=
  match extentsIn l nsid (lba * 4096) 1 with
  | e :: _ => if e.chunk.isSome then e.apptag else 0xFFFF
  | [] => 0xFFFF

/-- The bytes [s, s + n) of a namespace from the chunks decoded so far, zero where nothing is mapped; none while a chunk is
still missing. -/
def blockBytes (view : List Extent) (decoded : List (Nat × Bytes)) (nsid s n : Nat) : Option Bytes :=
  (extentsIn view nsid s n).foldl (fun acc e =>
    acc.bind fun bs =>
      match e.chunk with
      | none => some bs
      | some u =>
        match decoded.find? (·.1 == u) with
        | none => none
        | some (_, plain) =>
          let a := max s e.start
          let b := min (s + n) (e.start + e.len)
          some (patch (a - s) (fit (b - a) (plain.drop (e.offset + (a - e.start)))) bs)) (some (zeros n))

/-- A block as it leaves the port: with PRACT 0 its protection information follows (R61, R62). -/
def sentBlock (c : Capsule) (lba tag : Nat) (data : Bytes) : Bytes :=
  if c.pract then data
  else data ++ beBytes 8 (crc64 data).toNat ++ beBytes 2 tag ++ beBytes 6 (lba % 2 ^ 48)

/-- The PRCHK checks of a block at the port on send: its guard and reference tag are the head's own, so the application tag
alone can fail, under LBATM and the Type 1 escape (R62). -/
def sendCheck (c : Capsule) (lba tag : Nat) (data : Bytes) : Option PiFail :=
  if tag = 0xFFFF then none
  else piFail 0x5 lba ⟨data, crc64 data, tag, lba % 2 ^ 48⟩ false c.prchkApp false c.lbat c.lbatm

/-- Compare one block with the host's: data, and with PRACT 0 the application tag (R59). -/
def sameBlock (c : Ctx) (lba tag : Nat) (data : Bytes) : Bool :=
  let b := rxBlock c.cap lba (slice ((lba - c.cap.slba) * c.cap.blockBytes) c.cap.blockBytes c.hostData)
  b.data == data && (c.cap.pract || b.app == tag)

/-- Drop the decodes of a command. -/
def Head.dropTasks (h : Head) (ctx : Nat) : Head :=
  h.forEach ((h.dp.tasks.filter fun t => t.purpose == .read ctx || t.purpose == .history ctx).map (·.id)) Head.dropTask

/-- Fail a reader. -/
def Head.failRead (h : Head) (c : Ctx) (f : PiFail) : Head := (h.failCtx c f).dropTasks c.id

/-- Send or compare one block of a command whose bytes are complete. -/
def Head.serveBlock (h : Head) (n lba : Nat) : Head :=
  h.withCtx n fun c =>
    if c.phase ≠ .running then h
    else match blockBytes c.view c.decoded c.cap.nsid (lba * 4096) 4096 with
      | none => h
      | some data =>
        let tag := tagAt c.view c.cap.nsid lba
        let h' := h.modCtx n fun x => { x with remaining := x.remaining.filter (· != lba) }
        if c.cap.opcode = opCompare then
          (if sameBlock c lba tag data then h' else (h.complete c stCompare 0).dropTasks n)
        else
          match sendCheck c.cap lba tag data with
          | some f => (h.pointFailed 0x5 c.site 0 0).failRead c f
          | none =>
            (h'.emit (.hostData n lba (sentBlock c.cap lba tag data))).modHqe fun q => { q with blocksRead := q.blocksRead + 1 }

/-- Serve every block that can be served; the completion follows the last one (R15). -/
def Head.serveBlocks (h : Head) (n : Nat) : Head :=
  h.withCtx n fun c =>
    let h := h.forEach c.remaining fun h lba => h.serveBlock n lba
    h.withCtx n fun c => if c.phase = .running ∧ c.remaining = [] then h.complete c stSuccess 0 else h

/-- Run a Read, or the read part of a Compare: poisoned blocks fail it, a dark shelf defers it, an unreachable one answers Not
Ready, and its chunks go to booths (R15, R20, R21, R166, R217). -/
def Head.runRead (h : Head) (c : Ctx) (host : Bytes) : Head :=
  let n := c.cap.nlb + 1
  let es := h.dp.extentsOf c.cap.nsid (c.cap.slba * 4096) (n * 4096)
  match es.find? (·.poisoned) with
  | some e =>
    let lba := max c.cap.slba (e.start / 4096)
    h.failCtx c { point := if e.lost then 0x4 else 0x3, sc := 0x81, lba := lba, refExp := lba % 2 ^ 48 }
  | none =>
    let us := h.dp.chunksOf c.cap.nsid c.cap.slba n
    let all := h.dp.withHistory us
    let flash := (all.filter fun u => (h.dp.stagedCopy u).isNone).filterMap h.chunkShelf
    if flash.any fun s => (h.shf.port (h.shelfPort s)).lost then h.complete c stNotReady 0
    else
      match h.darkShelves all with
      | s :: ss => h.complete c stDeferred (h.estimate (s :: ss))
      | [] =>
        match h.startAll c.id us with
        | none => h
        | some h =>
          let h := h.when (c.cap.opcode == opCompare && c.holdsSlot) fun h => h.freeSlots c.cntlid c.qid 1
          let h := h.modCtx c.id fun x => { x with
            phase := .running, resolved := true, refs := all, hostData := host, view := es,
            remaining := (List.range n).map (c.cap.slba + ·) }
          h.serveBlocks c.id

end Sys2Proof.Machine
end

