-- ==== Sys2Proof/Machine/TsiOps.lean ====
section
/-!
DEFINITION. The Thiez image: parsing, overlays, agreement checks and derived images (02_thiez_structural_image.md R26 to R45; 08 R169;
05 R108; 10 R230; 12 R267; 13 R282).
-/

namespace Sys2Proof.Machine

open Sys2Proof

abbrev Raw := List (Nat × Bytes)

def Head.modTsi (h : Head) (f : Tsi → Tsi) : Head := { h with tsi := f h.tsi }

def rawOf (r : Raw) (ty : Nat) : Option Bytes := (r.find? (·.1 == ty)).map (·.2)

/-- Set a section, keeping TYPE order. -/
def rawSet (r : Raw) (ty : Nat) (b : Bytes) : Raw :=
  (r.filter fun x => decide (x.1 < ty)) ++ (ty, b) :: r.filter fun x => decide (ty < x.1)

/-! ## Sections (R28 to R31) -/

/-- Entries of `n` bytes. -/
def entries (n : Nat) : Nat → Bytes → List Bytes
  | 0, _ => []
  | f + 1, bs => if n = 0 ∨ bs.length < n then [] else bs.take n :: entries n f (bs.drop n)

/-- The entries of a section. -/
def sectionEntries (n : Nat) (bs : Bytes) : List Bytes := entries n (bs.length / max 1 n + 1) bs

def byteAt (i : Nat) (bs : Bytes) : Nat := (bs.getD i 0).toNat

/-- Entry size of a section type; the BANK section is laid out by hand. -/
def entrySize (ty : Nat) : Nat :=
  match ty with | 1 => 8 | 2 => 64 | 3 => 36 | 4 => 16 | 5 => 32 | 6 => 16 | 8 => 4 | 9 => 16 | 10 => 1 | _ => 0

/-- The entry counts that R28 allows. -/
def countOk (ty n : Nat) : Bool :=
  match ty with
  | 1 => n == 36 | 2 => n == 4 | 3 => n == 4 | 4 => decide (1 ≤ n ∧ n ≤ 32) | 5 => decide (1 ≤ n ∧ n ≤ 4096)
  | 6 => decide (1 ≤ n ∧ n ≤ 16) | 7 => decide (65 ≤ n ∧ n ≤ 72) | 8 => n == 162 | 9 => n == 256 | 10 => n == 4096
  | _ => false

/-- Bytes of a section with `n` entries. -/
def sizeOf (ty n : Nat) : Nat := if ty = 7 then 256 + 16 * (n - 64) else n * entrySize ty

/-- Parse the sections of an image. -/
def parseSections (r : Raw) : Sections :=
  { site := (rawOf r 1).map fun b => (sectionEntries 8 b).map fun e => ⟨byteAt 0 e, byteAt 1 e, byteAt 2 e⟩
    xbar := (rawOf r 2).map fun b => (sectionEntries 64 b).map fun e =>
      ((List.range 8).map fun i => byteAt i e, (List.range 4).map fun i => leAt (8 + 4 * i) 4 e)
    lane := (rawOf r 3).map fun b => (sectionEntries 36 b).map fun e => e.map (·.toNat)
    geom := (rawOf r 4).map fun b => (sectionEntries 16 b).map fun e =>
      ⟨byteAt 0 e, byteAt 1 e, byteAt 2 e, byteAt 3 e, byteAt 4 e, byteAt 5 e, byteAt 6 e⟩
    domain := (rawOf r 5).map fun b => (sectionEntries 32 b).map fun e =>
      { id := leAt 0 2 e, enable := byteAt 2 e, verify := byteAt 3 e, gearMask := BitVec.ofNat 64 (leAt 4 8 e),
        seed := BitVec.ofNat 64 (leAt 0x0C 8 e), saltIndex := leAt 0x14 2 e, cprof := byteAt 0x16 e, coldGeom := byteAt 0x17 e,
        landingGeom := byteAt 0x18 e }
    cprof := (rawOf r 6).map fun b => (sectionEntries 16 b).map fun e =>
      ⟨byteAt 0 e, byteAt 1 e, byteAt 2 e, byteAt 3 e, leAt 4 2 e, byteAt 6 e⟩
    bank := (rawOf r 7).map fun b =>
      ((List.range 64).map fun i => byteAt (4 * i) b,
       (sectionEntries 16 (b.drop 256)).map fun e => ⟨byteAt 0 e, byteAt 1 e, leAt 4 4 e, leAt 8 4 e⟩)
    pdom := (rawOf r 8).map fun b => (sectionEntries 4 b).map fun e => ⟨byteAt 0 e, byteAt 1 e⟩
    wheel := (rawOf r 9).map fun b => (sectionEntries 16 b).map fun e => ⟨leAt 0 2 e, leAt 2 2 e, leAt 4 2 e⟩
    dring := (rawOf r 10).map fun b => b.map (·.toNat) }

/-- SHA3-256 over sections in TYPE order: the digest of a merged image (log), and, over the pair-scoped ones, its pair digest
(R28). -/
def rawDigest (r : Raw) : Bytes := sha3_256 (r.flatMap (·.2))
def pairTypes : List Nat := [4, 5, 6, 9]
def pairDigest (r : Raw) : Bytes := rawDigest (r.filter fun x => pairTypes.contains x.1)

/-! ## The container (R26) -/

/-- A directory entry: TYPE, COUNT, OFFSET, SIZE, CRC. -/
structure DirEnt where
  ty : Nat
  count : Nat
  ofs : Nat
  size : Nat
  crc : Nat

def dirEnts (bs : Bytes) (n : Nat) : List DirEnt :=
  (List.range n).map fun i =>
    let e := slice (0x40 + 16 * i) 16 bs
    ⟨byteAt 0 e, leAt 2 2 e, leAt 4 4 e, leAt 8 4 e, leAt 12 4 e⟩

/-- Two directory entries that overlap, or one outside the image. -/
def dirBad (len first : Nat) : List DirEnt → Option DirEnt
  | [] => none
  | e :: es =>
    if e.ofs % 64 ≠ 0 ∨ e.ofs < first ∨ len < e.ofs + e.size ∨ e.size ≠ sizeOf e.ty e.count ∨
       es.any fun x => decide (x.ofs < e.ofs + e.size ∧ e.ofs < x.ofs + x.size) then some e
    else dirBad len first es

/-- The first directory entry that breaks the ascending TYPE order (R26); a repeated type is a finding of its own. -/
def dirUnordered : List DirEnt → Option DirEnt
  | [] => none
  | e :: es => if es.any fun x => decide (x.ty < e.ty) then some e else dirUnordered es

/-- Parse an image as LOAD leaves it in staging. -/
def parseImage (bs : Bytes) : Image :=
  let n := leAt 0x34 2 bs
  let len := leAt 0x30 4 bs
  let dir := dirEnts bs (min n 16)
  let known := dir.filter fun e => decide (1 ≤ e.ty ∧ e.ty ≤ 10)
  let stop := (dir.map fun e => e.ofs + e.size).foldl max 0x40
  let authAt := ceilDiv stop 64 * 64
  let authLen := leAt (authAt + 2) 2 bs
  let form : Nat × Nat × Nat :=
    if bs.length < 0x40 ∨ leAt 0 4 bs ≠ 0x315A4854 ∨ leAt 4 2 bs ≠ 1 ∨ len ≠ bs.length ∨ n = 0 ∨ 16 < n ∨ 2 < byteAt 6 bs ∨
       bs.length < 0x40 + 16 * n ∨ bs.length < authAt + 4 + authLen then (1, 0, 0)
    else match (dirUnordered dir).orElse fun _ => dirBad len (0x40 + 16 * n) known with
      | some e => (1, e.ty, 0)
      | none => (0, 0, 0)
  let types := dir.map (·.ty)
  let crc : Nat × Nat × Nat :=
    match known.find? fun e => (crc32c (slice e.ofs e.size bs)).toNat != e.crc || !countOk e.ty e.count with
    | some e => (5, e.ty, 0)
    | none =>
      match types.find? fun t => t == 0 || decide (10 < t) || decide (1 < types.count t) with
      | some t => (5, t, 0)
      | none =>
        match (List.range 10).find? fun i => byteAt 6 bs == 0 && !types.contains (i + 1) with
        | some i => (5, i + 1, 0)
        | none => (0, 0, 0)
  { kind := byteAt 6 bs, imageId := leAt 8 4 bs, generation := leAt 0xC 4 bs, grades := byteAt 7 bs, part := leAt 0x36 2 bs,
    base := slice 0x10 32 bs, auth := leAt authAt 2 bs, types := types,
    raw := known.foldl (fun r e => rawSet r e.ty (slice e.ofs e.size bs)) [], form := form, crc := crc }

/-- A staged copy after another LOAD: a full image replaces it, a delta merges section by section with a staged delta (R33). -/
def mergeStaged (old : Option Image) (new : Image) : Image :=
  match old with
  | some o =>
    if new.kind = 1 ∧ o.kind = 1 then
      { new with raw := new.raw.foldl (fun r e => rawSet r e.1 e.2) o.raw
                 types := (o.types.filter fun t => !new.types.contains t) ++ new.types
                 form := if o.form.1 ≠ 0 then o.form else new.form
                 crc := if o.crc.1 ≠ 0 then o.crc else new.crc }
    else new
  | none => new

/-! ## The retirement overlay (R41 to R44) -/

/-- Write bytes into a section. -/
def rawPatch (r : Raw) (ty ofs : Nat) (b : Bytes) : Raw :=
  match rawOf r ty with
  | none => r
  | some s => rawSet r ty (patch ofs b s)

def rawByte (r : Raw) (ty ofs : Nat) : Nat := byteAt ofs ((rawOf r ty).getD [])

/-- Replace one lane code of a ring by another. -/
def laneMap (r : Raw) (ring : Nat) (f : Nat → Nat) : Raw :=
  match rawOf r 3 with
  | none => r
  | some s => rawSet r 3 (patch (36 * ring) ((slice (36 * ring) 36 s).map fun b => BitVec.ofNat 8 (f b.toNat)) s)

/-- Retire a booth site: a replacement takes its logical position and its lanes; without one the position is empty and its lanes
are unused (R41, R43). -/
def retireSite (r : Raw) (s : Nat) (repl : Option Nat) : Raw :=
  let ring := s / 9
  let pos := rawByte r 1 (8 * s + 1)
  let progs := rawByte r 1 (8 * s + 2)
  let wasLive := rawByte r 1 (8 * s) == 1
  let r := rawPatch r 1 (8 * s) (leBytes 1 3 ++ leBytes 1 0xFF)
  if !wasLive then r
  else match repl with
    | some n =>
      let r := rawPatch r 1 (8 * n) (leBytes 1 1 ++ leBytes 1 pos ++ leBytes 1 progs)
      let r := rawPatch r 2 (64 * ring + pos) (leBytes 1 (n % 9))
      laneMap r ring fun c => if c = s % 9 then n % 9 else c
    | none =>
      let r := rawPatch r 2 (64 * ring + pos) (leBytes 1 0xFF)
      laneMap r ring fun c => if c = s % 9 then 0x0F else c

/-- Retire a ring lane: an unused lane of the ring feeds its site (R42); without one the site is retired in turn, and no spare site
has four usable lanes either (R43). -/
def retireLane (r : Raw) (lane : Nat) (repl : Option Nat) : Raw :=
  let ring := lane / 36
  let site := rawByte r 3 lane
  let r := rawPatch r 3 lane (leBytes 1 0x0E)
  if 8 < site then r
  else match repl with
    | some l => rawPatch r 3 l (leBytes 1 site)
    | none => retireSite r (9 * ring + site) none

/-- Retire an SRAM bank: its function goes to a replacement (R42), or, for the Larder and the Cupboard, to the Pantry bank with the
highest number. -/
def retireBank (r : Raw) (b : Nat) (repl : Option Nat) : Raw :=
  let f := rawByte r 7 (4 * b)
  let r := rawPatch r 7 (4 * b) (leBytes 1 4)
  match repl with
  | some n => rawPatch r 7 (4 * n) (leBytes 1 f)
  | none => r

/-- The spare site of a ring, free in an image. -/
def freeSite (r : Raw) (ring : Nat) : Option Nat :=
  ((List.range 9).map (9 * ring + ·)).find? fun s => rawByte r 1 (8 * s) == 2
/-- An unused lane of a ring. -/
def freeLane (r : Raw) (ring : Nat) : Option Nat := ((List.range 36).map (36 * ring + ·)).find? fun l => rawByte r 3 l == 0x0F
/-- A spare bank; else, for a Larder or Cupboard bank, the highest Pantry bank while more than 16 serve. -/
def freeBank (r : Raw) (b : Nat) : Option Nat :=
  match (List.range 64).find? fun i => rawByte r 7 (4 * i) == 3 with
  | some i => some i
  | none =>
    let f := rawByte r 7 (4 * b)
    let pantry := (List.range 64).filter fun i => rawByte r 7 (4 * i) == 0 && i != b
    if (f = 1 ∨ f = 2) ∧ 16 < pantry.length then pantry.getLast? else none

/-- The replacement of a retired part in an image: the one the list names where it is free, else the next free spare (R44). -/
def placeFor (r : Raw) (kind part : Nat) (named : Option Nat) : Option Nat :=
  match kind with
  | 1 =>
    match named with
    | some n => if rawByte r 1 (8 * n) = 2 ∨ rawByte r 1 (8 * n) = 0 then some n else freeSite r (part / 9)
    | none => none
  | 2 =>
    match named with
    | some n => if rawByte r 3 n = 0x0F then some n else freeLane r (part / 36)
    | none => none
  | _ =>
    match named with
    | some n => if rawByte r 7 (4 * n) = 3 ∨ rawByte r 7 (4 * n) = 0 then some n else freeBank r part
    | none => none

/-- Retire a part in an image. -/
def retirePart (r : Raw) (kind part : Nat) (repl : Option Nat) : Raw :=
  match kind with
  | 1 => retireSite r part repl
  | 2 => retireLane r part repl
  | _ => retireBank r part repl

/-- A part is already retired in an image. -/
def retiredIn (r : Raw) (kind part : Nat) : Bool :=
  match kind with
  | 1 => rawByte r 1 (8 * part) == 3
  | 2 => rawByte r 3 part == 0x0E
  | _ => rawByte r 7 (4 * part) == 4

/-- Retire a part in an image unless the image has it retired. -/
def retireOnce (r : Raw) (kind part : Nat) (repl : Option Nat) : Raw :=
  if retiredIn r kind part then r else retirePart r kind part repl

/-- Overlay the retirement list (R44). -/
def overlay (l : List Retirement) (r : Raw) : Raw :=
  l.foldl (fun r x => retireOnce r x.kind x.part (placeFor r x.kind x.part x.replacement)) r

/-- The merged copy of a staged image: a delta over the active image, the retirement list on top (R32). -/
def Head.merged (h : Head) (i : Image) : Raw :=
  overlay h.tsi.retired (if i.kind = 0 then i.raw else i.raw.foldl (fun r e => rawSet r e.1 e.2) h.tsi.raw)

/-! ## Agreement checks (R32) -/

abbrev Finding := Option (Nat × Nat)

/-- The first entry of a list that a test rejects. -/
def firstBad {α : Type} (ty : Nat) (l : List α) (bad : Nat → α → Bool) : Finding :=
  (l.zipIdx.find? fun (x, i) => bad i x).map fun (_, i) => (ty, i)

def Sections.live (s : Sections) (n : Nat) : Bool := (((s.site.getD [])[n]?).map (·.state == 1)).getD false
def Sections.ringSites (r : Nat) : List Nat := (List.range 9).map (9 * r + ·)
def Sections.liveIn (s : Sections) (r : Nat) : List Nat := (Sections.ringSites r).filter s.live

/-- 0x06: parts that the grade disables. -/
def Head.check06 (h : Head) (s : Sections) : Finding :=
  let ringOff (r : Nat) := !bitAt r h.ringMask
  (firstBad 1 (s.site.getD []) fun i e => decide (h.sitesPresent ≤ i) && e.state != 0) <|>
  (firstBad 2 (s.xbar.getD []) fun i e => ringOff i && e.1.any (· != 0xFF)) <|>
  (firstBad 3 (s.lane.getD []) fun i e => ringOff i && e.any fun c => decide (c < 9)) <|>
  (firstBad 7 ((s.bank.map (·.2)).getD []) fun _ e => decide (2 ^ h.hbmStacks ≤ e.stackMask)) <|>
  (firstBad 10 (s.dring.getD []) fun _ m => (List.range 8).any fun r => bitAt r m && ringOff r)

/-- 0x07: SITE against XBAR. -/
def check07 (s : Sections) : Finding :=
  let site (n : Nat) : SiteEnt := (s.site.getD []).getD n ⟨0, 0xFF, 0⟩
  (firstBad 2 (s.xbar.getD []) fun r e =>
    let live := s.liveIn r
    decide (8 < live.length) ||
      live.any (fun n => decide (7 < (site n).position) || e.1.getD (site n).position 0xFF != n % 9) ||
      e.1.zipIdx.any (fun (p, i) => p != 0xFF && (decide (8 < p) || !s.live (9 * r + p) || (site (9 * r + p)).position != i)) ||
      decide ((e.1.filter (· != 0xFF)).dedup.length ≠ (e.1.filter (· != 0xFF)).length))

/-- 0x08: LANE against SITE; lanes of the retirement list stay retired. -/
def Head.check08 (h : Head) (s : Sections) : Finding :=
  firstBad 3 (s.lane.getD []) fun r e =>
    (List.range 9).any (fun i => (e.filter (· == i)).length != if s.live (9 * r + i) then 4 else 0) ||
      e.any (fun c => decide (8 < c) && c != 0x0E && c != 0x0F) ||
      h.tsi.retired.any fun x => x.kind == 2 && x.part / 36 == r && e.getD (x.part % 36) 0x0E != 0x0E

/-- The chain words of R30. -/
def chainWords : List Nat := [0x00054321, 0x00005421, 0x00000145, 0x00001345]

/-- 0x09: chains and the programs that live sites serve. -/
def check09 (s : Sections) : Finding :=
  let site (n : Nat) : SiteEnt := (s.site.getD []).getD n ⟨0, 0xFF, 0⟩
  (firstBad 2 (s.xbar.getD []) fun _ e => e.2 != chainWords) <|>
  (firstBad 1 (s.site.getD []) fun _ e => e.state == 1 && !bitAt 2 e.programs && !bitAt 3 e.programs) <|>
  (firstBad 5 (s.domain.getD []) fun _ d =>
    d.enable == 1 && (List.range 4).any fun r =>
      let live := s.liveIn r
      decide (live ≠ []) && bitAt r ((s.dring.getD []).getD d.id 0) &&
        !live.any fun n => bitAt (if d.verify = 0 then 1 else 0) (site n).programs)

/-- 0x0A: ranges of GEOM and CPROF. -/
def check0A (s : Sections) : Finding :=
  (firstBad 4 (s.geom.getD []) fun i g =>
    g.id != i || decide (g.k < 4 ∨ 30 < g.k ∨ g.parity ≠ 2 ∨ g.unit ≠ 0 ∨ 1 < g.cls ∨ g.writeMode ≠ g.cls ∨ g.k + 1 < g.rotate)) <|>
  (firstBad 6 (s.cprof.getD []) fun i c =>
    c.id != i || decide (c.level < 1 ∨ 9 < c.level ∨ c.windowLog < 17 ∨ 23 < c.windowLog ∨ 1 < c.history ∨ 1 < c.literals) ||
      (if c.history = 1 then decide (c.segmentKib < 256 ∨ 4096 < c.segmentKib ∨ c.segmentKib % 64 ≠ 0) else c.segmentKib != 0))

/-- 0x0B: what domains name. -/
def check0B (s : Sections) : Finding :=
  (firstBad 5 (s.domain.getD []) fun _ d =>
    decide ((s.cprof.getD []).length ≤ d.cprof ∨ (s.geom.getD []).length ≤ d.coldGeom ∨ (s.geom.getD []).length ≤ d.landingGeom) ||
      (s.dring.getD []).getD d.id 0 % 16 == 0 ||
      (d.enable == 1 && (List.range 4).any fun r => bitAt r ((s.dring.getD []).getD d.id 0) && s.liveIn r == [])) <|>
  (firstBad 10 (s.dring.getD []) fun _ m => m % 16 == 0)

/-- Two regions overlap on a stack. -/
def regionsMeet (a b : RegionEnt) : Bool :=
  let n (m : Nat) := max 1 ((List.range 8).filter fun i => bitAt i m).length
  (List.range 8).any (fun i => bitAt i a.stackMask && bitAt i b.stackMask) &&
    decide (a.baseMib < b.baseMib + b.sizeMib / n b.stackMask ∧ b.baseMib < a.baseMib + a.sizeMib / n a.stackMask)

/-- 0x0C: banks and HBM regions. -/
def check0C (s : Sections) : Finding :=
  match s.bank with
  | none => none
  | some (f, rs) =>
    let n (k : Nat) := (f.filter (· == k)).length
    let nstk (m : Nat) := max 1 ((List.range 8).filter fun i => bitAt i m).length
    if n 1 ≠ 24 ∨ n 2 ≠ 8 ∨ n 0 < 16 then some (7, 0)
    else if (rs.zipIdx.any fun (a, i) => rs.zipIdx.any fun (b, j) => decide (i < j) && regionsMeet a b) ∨
        (rs.any fun a => decide (35712 < a.baseMib + a.sizeMib / nstk a.stackMask) || a.sizeMib % nstk a.stackMask != 0 ||
          a.stackMask == 0 || decide (2 < a.function)) ∨
        ((rs.filter (·.function == 0)).map (·.sizeMib)).sum < 32768 then some (7, 64)
    else none

/-- 0x0D: power domains that live sites, their ring fabrics, serving banks and the ports of enabled shelves need. -/
def Head.check0D (h : Head) (s : Sections) : Finding :=
  let need (d : Nat) : Bool :=
    (decide (d < 36) && s.live d) || (decide (36 ≤ d ∧ d < 40) && decide (s.liveIn (d - 36) ≠ [])) ||
      (decide (40 ≤ d ∧ d < 104) && decide ((((s.bank.map (·.1)).getD []).getD (d - 40) 4) < 3)) ||
      (decide (112 ≤ d ∧ d < 128) && h.shelvesOn.any fun x => h.shelfPort x == d - 112)
  firstBad 8 (s.pdom.getD []) fun d e => e.flags % 2 == 0 && need d

/-- 0x0E: the slot plan. -/
def Head.check0E (h : Head) (s : Sections) : Finding :=
  firstBad 9 (s.wheel.getD []) fun _ e => decide (h.shf.rackW < e.budgetW ∨ 0x7F < e.classMask)

/-- The XMSS root computed from an image's signature is that of a blown root which has not been revoked (R27). -/
def Head.rootOk (h : Head) (root : Bytes) : Bool :=
  (h.fuse.roots.zipIdx.any fun (r, i) => r.2.take 32 == root && !h.fuse.revoked.getLsbD i)

/-- CHECK (R32): code, section, entry. -/
def Head.checkImage (h : Head) (i : Image) (xmssRoot : Bytes) : Nat × Nat × Nat :=
  let s := parseSections (h.merged i)
  let at_ (code : Nat) (f : Finding) : Option (Nat × Nat × Nat) := f.map fun (t, e) => (code, t, e)
  let gradeBit := match h.fuse.grade with | 1 => 0 | 2 => 1 | _ => 2
  if i.form.1 ≠ 0 then i.form
  else if i.kind = 2 ∨ i.auth ≠ 1 ∨ !h.rootOk xmssRoot then (2, 0, 0)
  else if i.part ≠ 0x640 ∨ !bitAt gradeBit i.grades then (3, 0, 0)
  else if i.kind = 1 ∧ i.base ≠ fit 32 h.tsi.digest then (4, 0, 0)
  else if i.crc.1 ≠ 0 then i.crc
  else
    (at_ 6 (h.check06 s) <|> at_ 7 (check07 s) <|> at_ 8 (h.check08 s) <|> at_ 9 (check09 s) <|> at_ 0xA (check0A s) <|>
      at_ 0xB (check0B s) <|> at_ 0xC (check0C s) <|> at_ 0xD (h.check0D s) <|> at_ 0xE (h.check0E s)).getD (0, 0, 0)

/-! ## Arming (R35, R37) -/

/-- Sites affected by a change of image (R37). -/
def affectedSites (a b : Raw) : List Nat :=
  let x := parseSections a
  let y := parseSections b
  (List.range 36).filter fun n =>
    (x.site.getD [])[n]? != (y.site.getD [])[n]? ||
      ((x.xbar.getD [])[n / 9]?).map (·.2) != ((y.xbar.getD [])[n / 9]?).map (·.2) ||
      ((x.xbar.getD [])[n / 9]?).map (fun e => e.1.zipIdx.filter fun p => p.1 == n % 9) !=
        ((y.xbar.getD [])[n / 9]?).map (fun e => e.1.zipIdx.filter fun p => p.1 == n % 9) ||
      ((x.lane.getD [])[n / 9]?).map (fun e => e.zipIdx.filter fun p => p.1 == n % 9) !=
        ((y.lane.getD [])[n / 9]?).map (fun e => e.zipIdx.filter fun p => p.1 == n % 9)

/-- Slots that have started once 48 µs have passed (R35). -/
def Head.threeSlots (h : Head) : Nat := h.whl.slotCount + 3 + flag (decide (h.whl.slotAt < h.now))

/-- The first beat edge at least 3 slots (48 µs) ahead. -/
def Head.firstEdge (h : Head) : Nat := (h.threeSlots + 15) / 16

/-- A beat that starts at least 3 slots ahead. -/
def Head.edgeOk (h : Head) (beat : Nat) : Bool := decide (h.threeSlots ≤ beat * 16)

/-- The full beat count that the 32-bit number of TSI_ARM_BEAT names: the nearest one with those low bits, in the past too (DEDUCED, log 31). -/
def Head.fullBeat (h : Head) (b : Nat) : Nat :=
  let d := (b + 2 ^ 32 - h.whl.beat % 2 ^ 32) % 2 ^ 32
  if d < 2 ^ 31 then h.whl.beat + d else h.whl.beat + d - 2 ^ 32

/-! ## The commit point (R36, R37) -/

/-- Abort an arm: ARM_ABORT with a reason, source 934. -/
def Head.armAbort (h : Head) (reason : Nat) : Head :=
  ((h.modTsi fun t => { t with state := 4, armed := none, abortReason := reason, peerArm := none }).orReg Adr.TSI_STATUS 0x40).raise 934

/-- An armed image commits: its affected sites take no new bursts. -/
def Head.commitArm (h : Head) (a : Armed) : Head :=
  h.modTsi fun t =>
    let t := { t with restoring := (t.restoring ++ a.affected).dedup }
    if a.derived then { t with derivedArm := some { a with committed := true } }
    else { t with armed := some { a with committed := true }, state := 7, peerArm := none }

/-- The exchange ends when the peer's pair digest and target beat are here: both apply, or both abort (R36). -/
def Head.settleArm (h : Head) (a : Armed) : Head :=
  match h.tsi.peerArm with
  | none => h
  | some p => if p = (pairDigest a.raw, a.beat) then h.commitArm a else h.armAbort 1

/-- The peer's pair digest and target beat arrive (R36). A head that has offered its own settles. One with a pair-scoped arm for that beat keeps
them for its commit point. Any other answers, with its own arm, which it aborts, or with nothing armed: an empty digest (DESIGN CHOICE, log 31). -/
def Head.peerArmed (h : Head) (d : Bytes) (beat : Nat) : Head :=
  match h.tsi.armed.filter fun a => a.pairScoped && !a.committed && h.tsi.active.isSome with
  | some a =>
    let h := h.modTsi fun t => { t with peerArm := some (d, beat) }
    if a.offered then h.settleArm a
    else if d = [] then h.modTsi fun t => { t with peerArm := none }
    else if a.beat = beat then h
    else (h.emit (.control (.imageArm (pairDigest a.raw) a.beat))).armAbort 1
  | none => if d = [] then h else h.emit (.control (.imageArm [] beat))

/-- The link has failed before the exchange completed (R36). -/
def Head.exchangeLost (h : Head) : Head :=
  h.when ((h.tsi.armed.map fun a => a.offered && !a.committed).getD false) fun h => h.armAbort 2

/-- A staged image has reached its commit point. -/
def Tsi.pastCommit (t : Tsi) : Bool := (t.armed.map fun a => a.committed || a.offered).getD false

/-! ## Substitutions (R41 to R45) -/

/-- Put a part on the retirement list (R44). -/
def Head.listRetired (h : Head) (kind part : Nat) (repl : Option Nat) : Head :=
  h.modTsi fun t => { t with retired := (t.retired ++ [({ kind := kind, part := part, replacement := repl, opSec := h.opNow, cycles := h.cel.cycles } : Retirement)]).take 256 }

/-- The raw image that a new substitution starts from: the one in force with those before it. -/
def Tsi.baseRaw (t : Tsi) : Raw := t.substitutions.foldl (fun r x => retireOnce r x.kind x.part x.replacement) t.raw

/-- Arm the derived image of the first substitution, which stays first in the list until its image applies, unless one is armed or a staged image has passed its commit
point (R35, R45). -/
def Head.armDerived (h : Head) : Head :=
  match h.tsi.substitutions, h.tsi.derivedArm with
  | x :: _, none =>
    if x.waitMicrocode ∨ h.tsi.pastCommit then h
    else
      let raw := retireOnce h.tsi.raw x.kind x.part x.replacement
      h.modTsi fun t => { t with
        derivedArm := some { imageId := (t.active.map (·.imageId)).getD 0, raw := raw, beat := h.firstEdge, pairScoped := false,
                             derived := true, affected := affectedSites t.raw raw } }
  | _, _ => h

/-- A substitution takes precedence over a staged image (R45). -/
def Head.preempt (h : Head) : Head :=
  if h.tsi.state = 4 then h.modTsi fun t => { t with state := 2, checked := none }
  else match h.tsi.armed with
    | some _ =>
      if h.tsi.pastCommit then h
      else
        ((h.modTsi fun t => { t with state := 2, checked := none, armed := none, abortReason := 3 }).orReg Adr.TSI_STATUS 0x40).raise 934
    | none => h

/-- The power domain of a spare site is switched on (R41). -/
def Head.spareOn (h : Head) (d : Nat) : Head :=
  let x := Domain.get h.pwr.domains d
  if x.state ≠ 0 then h
  else { h with pwr := { h.pwr with domains := { x with state := 1, since := h.now } :: h.pwr.domains.filter (·.dom != d) } }

/-- Begin a substitution: the retirement list is written, staged work gives way, and the derived image is armed when it can be. -/
def Head.substitute (h : Head) (kind part : Nat) : Head :=
  let base := h.tsi.baseRaw
  let repl := match kind with | 1 => freeSite base (part / 9) | 2 => freeLane base (part / 36) | _ => freeBank base part
  let wait := kind == 1 && (repl.map fun n => !h.tsi.microcode.contains n).getD false
  let h := (h.listRetired kind part repl).preempt
  let h := match kind, repl with | 1, some n => h.spareOn n | _, _ => h
  (h.modTsi fun t => { t with substitutions := t.substitutions ++ [({ kind := kind, part := part, replacement := repl, waitMicrocode := wait } : Substitution)] }).armDerived

end Sys2Proof.Machine
end

