-- ==== Sys2Proof/Machine/SpareOps.lean ====
section
/-!
DEFINITION. Spares and reduced modes by kind (15_faults_barker_attic.md R318, R321; log 0xC4 of R70).
-/

namespace Sys2Proof.Machine

open Sys2Proof

def Head.modFlt (h : Head) (f : Faults → Faults) : Head := { h with flt := f h.flt }
def Faults.kind (f : Faults) (k : Nat) : SpareKind := (f.spares.find? (·.kind == k)).getD { kind := k }
def Head.modKind (h : Head) (k : Nat) (f : SpareKind → SpareKind) : Head :=
  h.modFlt fun x => { x with spares := x.spares.map fun s => if s.kind = k then f s else s }

/-- Post the vendor event that log 0xC4 has changed (R75). -/
def Head.sparesChanged (h : Head) : Head := h.postEvent 7 0xC4 0xC4

/-- A spare of a kind goes into service; the last one sets MODE 1 and raises source 995 (R318). For booth sites the spare belongs
to its ring, so every one in service is its ring's last. -/
def Head.spareUsed (h : Head) (k : Nat) : Head :=
  let x := h.flt.kind k
  let last := k == 1 || decide (x.total ≤ x.inUse + 1)
  let h := h.modKind k fun s => { s with inUse := s.inUse + 1, mode := if last then max 1 s.mode else s.mode }
  h.when last fun h => (h.raise 995).sparesChanged

/-- Kind of a reduced mode (R321): bit 0 RING SHORT to bit 5 MODULE SPARES OUT. -/
def modeKind (bit : Nat) : Nat := match bit with | 0 => 1 | 1 => 2 | 2 => 3 | 3 => 4 | 4 => 5 | _ => 6

/-- Enter a reduced mode (R321): MODE 2, the event, the mode's own source if a rule gives it one, source 993, a CRITICAL record
and its bit. Entering a mode in force changes only MODE. -/
def Head.enterReduced (h : Head) (bit : Nat) (source : Option Nat) (payload : Bytes) : Head :=
  let h := h.modKind (modeKind bit) fun s => { s with mode := 2 }
  if h.flt.reduced.getLsbD bit then h
  else
    let h := (h.modFlt fun f => { f with reduced := f.reduced ||| BitVec.ofNat 6 (2 ^ bit) }).sparesChanged
    let h := match source with | none => h | some s => h.raise s
    h.report 993 sevCritical payload

/-- Leave a reduced mode (R321). -/
def Head.leaveReduced (h : Head) (bit : Nat) : Head :=
  if !h.flt.reduced.getLsbD bit then h
  else
    let h := h.modFlt fun f => { f with reduced := f.reduced &&& ~~~(BitVec.ofNat 6 (2 ^ bit)) }
    let h := h.modKind (modeKind bit) fun s => { s with mode := if s.total ≤ s.inUse then 1 else 0 }
    h.report 994 sevNotice (leBytes 1 bit)

end Sys2Proof.Machine
end

