-- ==== Sys2Proof/Machine/MendOps.lean ====
section
/-!
DEFINITION. Mend: module states and declarations, spares, rebuilds, lost chunks, relocation, reclamation and the reshape job
(09_rebuild_and_reshape.md R187 to R211).
-/

namespace Sys2Proof.Machine

open Sys2Proof

/-! ## Relocation (R203) -/

/-- The chunks of a chunk's segment in SEG_INDEX order, or the chunk alone. -/
def Dp.mates (d : Dp) (u : Nat) : List Nat :=
  match (d.chunk? u).bind (·.segment) with
  | none => [u]
  | some (s, _) =>
    let l := d.chunks.filter fun c => (c.segment.map (·.1)) == some s && !c.released
    (l.insertionSort fun a b => decide ((a.segment.map (·.2)).getD 0 ≤ (b.segment.map (·.2)).getD 0)).map (·.uid)

/-- Chunks that live in a set of stripes, in placement order. -/
def Head.chunksIn (h : Head) (stripes : List Nat) : List Nat :=
  (stripes.flatMap fun n => (h.dp.chunks.filter fun c => c.stripe == n && !c.released && !c.poisoned).insertionSort
    fun a b => decide (a.off64 ≤ b.off64)).map (·.uid)

/-- Live chunks of a zone group. -/
def Head.groupChunks (h : Head) (g : Nat) : List Nat :=
  h.chunksIn ((h.pty.stripes.filter fun s => s.group == g && s.phase != .voided).map (·.number))

/-- A reduced chunk that enters staging outside a Write goes to the Catcher, or to the vault zones while ALONE. -/
def Head.mirror (h : Head) (t : Troupe) (s : Staged) : Head :=
  if h.paired t then
    let h := { h with pair := { h.pair with mirrorBytes := h.pair.mirrorBytes + s.bytes.length } }
    h.emit (.chunk t s.handle s.bytes s.guard)
  else if h.bit Adr.TRP_CFG 1 then h
  else
    let (shelf, a, _) := h.journalHome t
    h.addBundle (.vault s.handle) clsLand t shelf 0 0xFFFF [(0xFF, a)]

/-- The job's own open stripe of a geometry on a shelf (R208). -/
def Head.jobStripe (h : Head) (t : Troupe) (g : GeomEnt) (shelf ring len : Nat) : Head × Option Stripe :=
  match h.pty.stripes.find? fun s => s.phase == .opened && s.reshape && s.troupe == t && s.geom == g.id && s.shelf == shelf with
  | some s => if len ≤ s.room then (h, some s) else (h.closeStripe s.number, none)
  | none =>
    let grp := h.pty.groups.find? fun x => x.troupe == t && x.geom == g.id && x.shelf == shelf && !x.closed && decide (x.next < x.units)
    let (h, grp) := match grp with
      | some x => (h, some x)
      | none => if 0 < h.freeGroups shelf (g.k + 2) then let (h, x) := h.openGroup t g shelf; (h, some x) else (h, none)
    match grp with
    | none => (h, none)
    | some x =>
      let seq := match t with | .a => h.pty.nextStripe.1 | .b => h.pty.nextStripe.2
      let s : Stripe :=
        { number := seq % 2 ^ 47 + troupeBit t * 2 ^ 47, troupe := t, geom := g.id, k := g.k, shelf := shelf, group := x.id,
          unit := x.next, ring := ring, openedAt := h.now, reshape := true,
          closeAt := let ms := h.fld Adr.PTY_CFG 15 0; if ms = 0 then 0 else h.now + ms * 1000 }
      let h := h.modGroup x.id fun y => { y with next := y.next + 1 }
      (h.modPty fun p => { p with
        stripes := p.stripes ++ [s]
        nextStripe := match t with | .a => (p.nextStripe.1 + 1, p.nextStripe.2) | .b => (p.nextStripe.1, p.nextStripe.2 + 1) },
       some s)

/-- A place for a relocated chunk: in the job's stripes, or in the troupe's open stripe of the domain's COLD_GEOM. -/
def Head.placeAgain (h : Head) (c : Chunk) (job : Bool) : Head × Option (Nat × Nat) :=
  let ring := ((h.stripe? c.stripe).map (·.ring)).getD 0
  let len := ceilDiv c.reducedLen 64 * 64
  if job then
    match h.geom h.rsh.dst with
    | none => (h, none)
    | some g =>
      let put (h : Head) (s : Stripe) := let (h, off) := h.putInStripe s.number c.uid len; (h, some (s.number, off))
      match h.jobStripe c.troupe g h.rsh.shelf ring len with
      | (h, some s) => put h s
      | (h, none) =>
        match h.jobStripe c.troupe g h.rsh.shelf ring len with
        | (h, some s) => put h s
        | (h, none) => (h, none)
  else
    match (h.domain c.domain).bind fun e => h.geom e.coldGeom with
    | none => (h, none)
    | some g => h.placeChunk c.troupe g ring c.uid c.reducedLen

/-- Wait for the shelf, or for room. -/
def Head.queueRelocation (h : Head) (u : Nat) : Head :=
  h.modMnd fun m => if m.relocate.contains u then m else { m with relocate := m.relocate ++ [u] }

/-- Move a chunk whose bytes are in staging: its place changes by a relocation order and its old bytes count as free. -/
def Head.moveChunk (h : Head) (u : Nat) (job : Bool) : Head :=
  match h.dp.chunk? u, h.dp.stagedCopy u with
  | some c, some s =>
    match h.placeAgain c job with
    | (_, none) => h.queueRelocation u
    | (h, some (n, off)) =>
      let h := h.modDp fun d => { d with staged := d.staged.map fun x => if x.handle = s.handle then { x with dirty := true } else x }
      let h := ((h.freeGroup c.stripe c.reducedLen).modChunk u fun c => { c with stripe := n, off64 := off }).mirror c.troupe s
      let h := h.modMnd fun m => { m with
        relocate := m.relocate.filter (· != u)
        reshape := if job then { m.reshape with lastBeat := h.whl.beat } else m.reshape }
      let h := h.when c.indexed fun h => h.dirtyPage c.troupe (h.homePage c.troupe c.fp)
      h.issue c.troupe { type := 0x09, domain := c.domain, order := 0, b := c.reducedLen,
                         result := (h.dp.extents.filter (·.chunk == some u)).length, location := h.dp.locationOf (some u),
                         prior := c.location, key := keyOf16 c }
  | _, _ => h

/-- Relocate one chunk: from its copy in staging, or by reads of its members; on a shelf that is not open the work waits. -/
def Head.relocateOne (h : Head) (u : Nat) (avoid : List Nat) (job : Bool) : Head :=
  match h.dp.chunk? u with
  | none => h
  | some c =>
    if c.released ∨ c.poisoned then h
    else if (h.dp.stagedCopy u).isSome then h.moveChunk u job
    else if h.pty.bundles.any fun b => match b.kind with | .relocRead v _ _ => v == u | _ => false then h
    else
      match h.stripe? c.stripe with
      | none => h
      | some s =>
        if (h.shf.shelf s.shelf).state ≠ 3 then h.queueRelocation u
        else
          let mods := (h.roleModules s.number).zipIdx.map fun (m, r) => (r, m)
          let avoid := (avoid ++ h.deadRoles s.number).dedup
          let direct := !(chunkRoles c).any avoid.contains
          let avoid := if direct then [] else avoid
          let want := if direct then chunkRoles c else survivors s.k avoid
          let roles := mods.filter fun x => want.contains x.1
          h.addBundle (.relocRead u avoid job) clsMend s.troupe s.shelf s.number 0xFFFF roles

/-- Relocate chunks; those of a segment go together. -/
def Head.relocateAll (h : Head) (us : List Nat) (avoid : List Nat) (job : Bool) : Head :=
  h.forEach (us.flatMap h.dp.mates).dedup fun h u => h.relocateOne u avoid job

/-- Work that waited for a shelf proceeds while the shelf is open. -/
def Head.retryRelocations (h : Head) (shelf : Nat) : Head :=
  h.forEach (h.mnd.relocate.filter fun u => h.chunkShelf u == some shelf || (h.dp.stagedCopy u).isSome)
    fun h u => h.relocateOne u [] false

/-- Bytes of a chunk in the data units of its stripe. -/
def chunkFrom (c : Chunk) (units : List Bytes) : Bytes := slice (c.off64 * 64) c.reducedLen (units.flatMap (fit unitBytes))

/-- HDR_CRC of a stored chunk holds (R102). -/
def hdrOk (bytes : Bytes) : Bool := decide (96 ≤ bytes.length) && crcBytes (bytes.take 92) == slice 92 4 bytes

/-- The units that a bundle's good reads returned, by role. -/
def Bundle.units (b : Bundle) (n : Nat) : List (Option Bytes) :=
  (List.range n).map fun r =>
    (b.ops.find? fun o => o.member == r && o.status == some 0 && o.tagRows == [] && o.mediaRows == []).map (·.data)

/-- Block `row` of each role, where a read returned it good: only a block that fails its tag or returns a media error is lost (R202). -/
def Bundle.blocks (b : Bundle) (n row : Nat) : List (Option Bytes) :=
  (List.range n).map fun r =>
    (b.ops.find? fun o => o.member == r && o.status == some 0 && !o.tagRows.contains row && !o.mediaRows.contains row).map fun o =>
      slice (row * 4096) 4096 o.data

/-- Members whose read ended in a media error that names no block: they are read again block by block (R202). -/
def Bundle.reread (b : Bundle) : List (Nat × Nat) :=
  (b.ops.filter fun o => decide (o.member < 0x40) && (o.status.map (· / 256)) == some 2 &&
    !b.ops.any fun x => x.member == o.member && x.byBlock).map fun o => (o.member, o.mdl)

/-- Roles of which a block was not read good. -/
def Bundle.badRoles (b : Bundle) : List Nat :=
  (b.ops.filter fun o => decide (o.member < 0x40) && (o.tagRows != [] || o.mediaRows != [] ||
    (o.status != some 0 && !b.ops.any fun x => x.member == o.member && x.byBlock))).map (·.member)

/-- The members that a reconstruction has still to read: k that are not lost, and every one for a tag that failed, since P and Q must
then agree, or with `all` (R168, R193, R202). -/
def Head.moreRoles (h : Head) (b : Bundle) (k : Nat) (avoid : List Nat) (all : Bool) : List (Nat × Nat) :=
  let gone := avoid ++ h.deadRoles b.stripe
  let want := if all || b.ops.any (·.tagRows != []) then List.range (k + 2) else survivors k (gone ++ b.badRoles)
  ((h.roleModules b.stripe).zipIdx.map fun (m, r) => (r, m)).filter fun x =>
    want.contains x.1 && !gone.contains x.1 && !b.ops.any (·.member == x.1)

/-- Every block that holds a chunk's bytes was read good. -/
def readsWhole (k : Nat) (c : Chunk) (b : Bundle) : Bool :=
  (chunkRows c).all fun row => (chunkRoles c).all fun r => !c.touches r row || ((b.blocks (k + 2) row).getD r none).isSome

/-- The blocks that were read agree with a row. -/
def rowAgrees (row : List Bytes) (units : List (Option Bytes)) : Bool :=
  units.zipIdx.all fun (u, r) => match u with | none => true | some b => b == row.getD r []

/-- The results for one row, in the order of R168: with one block lost and both P and Q read they must agree, else each pair that includes
it; with none lost and a disagreement, each touched role and then each pair that includes one. -/
def rowResults (n k : Nat) (touched : List Nat) (units : List (Option Bytes)) : List (List Bytes) :=
  let roles := List.range (k + 2)
  match roles.filter fun r => (units.getD r none).isNone with
  | [] =>
    let whole := (rebuildRow n k units).toList
    if whole.any fun row => rowAgrees row units then whole
    else
      (touched.filterMap fun x =>
        let u := units.set x none
        (rebuildRow n k u).filter fun row => rowAgrees row u) ++
      touched.flatMap fun x => (roles.filter (· != x)).filterMap fun y => rebuildRow n k ((units.set x none).set y none)
  | [x] =>
    match rebuildRow n k units with
    | none => []
    | some row =>
      if k ≤ x ∨ rowAgrees row units then [row] else (roles.filter (· != x)).filterMap fun y => rebuildRow n k (units.set y none)
  | _ => (rebuildRow n k units).toList

/-- One result of each row. -/
def rowChoices : List (List (List Bytes)) → List (List (List Bytes))
  | [] => [[]]
  | x :: l => x.flatMap fun a => (rowChoices l).map fun r => a :: r

/-- The data units that a reconstruction gives for a chunk, each with its rows in the order of R168; rows that do not hold the chunk are
left out. With `check` no block is known to be bad: there is no result when every row agrees with its parity. -/
def chunkResults (k : Nat) (c : Chunk) (b : Bundle) (check : Bool) : List (List Bytes) :=
  let rows := chunkRows c
  let touched (row : Nat) := (chunkRoles c).filter fun r => c.touches r row
  let whole (row : Nat) := (touched row).all fun r => ((b.blocks (k + 2) row).getD r none).isSome
  let agrees (row : Nat) := (rebuildRow 4096 k (b.blocks (k + 2) row)).any fun x => rowAgrees x (b.blocks (k + 2) row)
  if check && rows.all agrees then []
  else
    (rowChoices ((List.range 32).map fun row =>
      if !rows.contains row then [[]]
      else if !check && whole row then [(b.blocks (k + 2) row).map fun u => u.getD []]
      else rowResults 4096 k (touched row) (b.blocks (k + 2) row))).map fun l =>
        (List.range k).map fun r => l.flatMap fun row => fit 4096 (row.getD r [])

/-- The reads of a relocation have ended: the bytes go to staging, checked, and the chunk is placed. Blocks that failed are
reconstructed from the other roles (R202), and so is a chunk whose header fails (R168); a chunk that cannot be had stays where it is. -/
def Head.relocArrived (h : Head) (b : Bundle) (u : Nat) (avoid : List Nat) (job : Bool) : Head :=
  match h.dp.chunk? u, h.stripe? b.stripe with
  | some c, some s =>
    let direct := readsWhole s.k c b
    let good := direct && ((chunkResults s.k c b false).map (chunkFrom c)).any hdrOk
    let more := h.moreRoles b s.k avoid direct
    if b.reread ≠ [] then h.readMore b (.relocRead u avoid job) b.reread true
    else if !good ∧ more ≠ [] then h.readMore b (.relocRead u avoid job) more false
    else
      let h := (h.dropBundle b.id).when (!good) fun h => h.ptyCount 0x5 1
      match ((chunkResults s.k c b (direct && !good)).map (chunkFrom c)).find? hdrOk with
      | some bytes =>
        let hd := h.dp.nextHandle
        let h := h.modDp fun d => { d with
          nextHandle := hd + 1
          staged := d.staged ++
            [{ handle := hd, troupe := c.troupe, uid := some u, bytes := bytes, guard := crc64 bytes, dirty := false }] }
        h.moveChunk u job
      | none => if direct then (h.pointFailed 0x3 0x3F s.shelf 0).poison u else h
  | _, _ => h.dropBundle b.id

/-! ## Reclamation (R206) -/

/-- LIVE_PCT: 5 to 90; other values act as 40. -/
def Head.livePct (h : Head) : Nat :=
  let p := h.fld Adr.MND_RECLAIM 7 0
  if 5 ≤ p ∧ p ≤ 90 then p else 40

/-- Live bytes of a zone group. -/
def Head.liveBytes (h : Head) (g : Nat) : Nat := ((h.groupChunks g).map fun u => ((h.dp.chunk? u).map (·.reducedLen)).getD 0).sum

/-- Stripes of a group that are neither committed nor voided. -/
def Head.groupBusy (h : Head) (g : Nat) : Bool :=
  h.pty.stripes.any fun s => s.group == g && s.phase != .committed && s.phase != .voided

/-- A reader holds a reference on a chunk of the group. -/
def Head.groupRead (h : Head) (g : Nat) : Bool :=
  h.dp.chunks.any fun c => ((h.stripe? c.stripe).map (·.group)) == some g &&
    h.hqe.ctxs.any fun x => x.inFlight && x.refs.contains c.uid

/-- Reset an emptied zone group. -/
def Head.resetGroup (h : Head) (g : Group) : Head :=
  if g.reset ∨ h.groupBusy g.id ∨ h.groupChunks g.id ≠ [] ∨ h.groupRead g.id then h
  else
    (h.modGroup g.id fun x => { x with reset := true, closed := true }).addBundle (.zoneReset g.id) clsZone g.troupe g.shelf 0 0xFFFF
      (g.members.map fun m => (0xFF, m.1))

/-- Reclaim a closed group whose live bytes have fallen below LIVE_PCT of its capacity: relocate what lives, or reset it. -/
def Head.reclaim (h : Head) (id : Nat) : Head :=
  match h.pty.groups.find? (·.id == id) with
  | none => h
  | some g =>
    if !g.closed ∨ g.reset ∨ (h.shf.shelf g.shelf).state ≠ 3 ∨ g.k * g.units * unitBytes * h.livePct ≤ 100 * h.liveBytes id then h
    else if h.groupChunks id = [] then h.resetGroup g
    else h.relocateAll (h.groupChunks id) [] false

/-- The zones of a group have been reset: they return to the free pool of modules still in service. -/
def Head.groupFreed (h : Head) (id : Nat) : Head :=
  match h.pty.groups.find? (·.id == id) with
  | none => h
  | some g =>
    let h := h.modMnd fun m => { m with modules := m.modules.map fun x =>
      if x.shelf = g.shelf ∧ x.state ≤ 1 then
        { x with zones := x.zones ++ (g.members.filter (·.1 == x.mdl)).map (·.2) }
      else x }
    (h.modPty fun p => { p with
      groups := p.groups.filter (·.id != id)
      stripes := p.stripes.filter (·.group != id) }).placeWaiting

/-! ## Lost chunks (R200) -/

/-- A chunk is lost: its extents are marked, source 567, the loss list. -/
def Head.loseChunk (h : Head) (u : Nat) : Head :=
  match h.dp.chunk? u with
  | none => h
  | some c =>
    if c.poisoned then h
    else
      let (nsid, lba, _) := (h.dp.extentRanges u).headD (0, 0, 0)
      let h := h.modMnd fun m => { m with loss := m.loss ++
        [{ domain := c.domain, fp := c.fp, stripe := c.stripe, off64 := c.off64, logicalLen := c.logicalLen, nsid := nsid, lba := lba }] }
      (h.markPoison u true).raise 567

/-- A loss list entry as `MND_LOSS_DATA_k` shows it: the fields in the order R200 names them (log 40). -/
def Loss.encode (l : Loss) : Bytes :=
  fit 64 (leBytes 2 l.domain ++ fit 32 l.fp ++ leBytes 8 l.stripe ++ leBytes 4 l.off64 ++ leBytes 4 l.logicalLen ++
    leBytes 4 l.nsid ++ leBytes 8 l.lba)

/-! ## Module states (R187 to R190) -/

def Head.modModule (h : Head) (s n : Nat) (f : Module → Module) : Head :=
  h.modMnd fun m => { m with modules := f (m.mdl s n) :: m.modules.filter fun x => !(x.shelf == s && x.mdl == n) }

def Head.setModule (h : Head) (s n st : Nat) : Head := h.modModule s n fun m => { m with state := st }

/-- Zone groups that include a module, with its position. -/
def Head.groupsOf (h : Head) (s n : Nat) : List (Group × Nat) :=
  (h.pty.groups.filter fun g => g.shelf == s && !g.reset).filterMap fun g =>
    (g.members.findIdx? (·.1 == n)).map fun i => (g, i)

/-- Roles of a stripe whose program has reported success. -/
def Head.passedRoles (h : Head) (stripe : Nat) : List Nat :=
  h.pty.bundles.flatMap fun b =>
    if b.kind = .append stripe then ((b.ops.filter (·.status == some 0)).map (·.member)) else []

/-- A module leaves service (R190): its open groups close and finish, their open stripes close early, and stripes in flight on a
FAILED module are voided without asking it for filler. -/
def Head.isolate (h : Head) (s n : Nat) (failed : Bool) : Head :=
  let gs := h.groupsOf s n
  let h := h.forEach gs fun h (g, _) =>
    let h := h.forEach ((h.pty.stripes.filter fun x => x.group == g.id && x.phase == .opened).map (·.number)) Head.closeStripe
    if g.closed then h
    else
      (h.modGroup g.id fun x => { x with closed := true }).addBundle (.finish g.id) clsZone g.troupe s 0 0xFFFF
        ((g.members.filter (·.1 != n)).map fun m => (0xFF, m.1))
  if !failed then h
  else
    h.forEach (h.pty.stripes.filter fun x => gs.any (·.1.id == x.group) && (x.phase == .flying || x.phase == .reported))
      fun h x =>
        let role := (h.roleModules x.number).findIdx (· == n)
        h.voidStripe x (role :: h.passedRoles x.number)

/-! ## Spares (R191, R192, R205) -/

/-- A rebuild or copy-out of a module. -/
def Mnd.rebuildOf (m : Mnd) (s n : Nat) : Option Rebuild := m.rebuilds.find? fun r => r.shelf == s && r.mdl == n

/-- The spare module of the shelf that has a qualifying zone for every zone it replaces, lowest number first. -/
def Head.spareModule (h : Head) (s : Nat) (zones : List (Nat × Nat)) : Option Module :=
  let ok (m : Module) := m.shelf == s && m.spare && m.state == 0 &&
    zones.all fun z => m.zones.contains z.1 && decide (z.2 ≤ m.zoneUnits)
  (h.mnd.modules.filter ok).foldl (fun best m => match best with
    | none => some m
    | some b => if m.mdl < b.mdl then some m else some b) none

/-- A free zone for one position of a group on a module without a zone of the group: spread over as many modules as qualify,
lowest number first. -/
def Head.spareZone (h : Head) (g : Group) (used : List Nat) : Option (Nat × Nat) :=
  let times (m : Module) := (used.filter (· == m.mdl)).length
  let due := h.mnd.rebuilds.flatMap fun r => (r.todo.filter (·.1 == g.id)).map (·.2.2.1)
  let ok (m : Module) := m.shelf == g.shelf && m.state == 0 && !m.spare && !g.members.any (·.1 == m.mdl) && !due.contains m.mdl &&
    decide (times m < m.zones.length ∧ g.units ≤ m.zoneUnits)
  ((h.mnd.modules.filter ok).foldl (fun (best : Option Module) m => match best with
    | none => some m
    | some b => if times m < times b ∨ (times m = times b ∧ m.mdl < b.mdl) then some m else some b) none).map
      fun m => (m.mdl, m.zones.getD (times m) 0)

/-- Assign distributed spare zones to a list of group positions; the positions without one are left over. -/
def Head.spread (h : Head) : List (Group × Nat) → List Nat → List (Nat × Nat × Nat × Nat) × List (Group × Nat)
  | [], _ => ([], [])
  | (g, i) :: rest, used =>
    match h.spareZone g used with
    | none => let (a, b) := h.spread rest used; (a, (g, i) :: b)
    | some (m, z) => let (a, b) := h.spread rest (m :: used); ((g.id, i, m, z) :: a, b)

/-- Take zones of the todo list out of their modules' free zones. -/
def Head.takeZones (h : Head) (s : Nat) (todo : List (Nat × Nat × Nat × Nat)) : Head :=
  h.modMnd fun m => { m with modules := m.modules.map fun x =>
    if x.shelf = s then { x with zones := x.zones.filter fun z => !todo.any fun t => t.2.2.1 == x.mdl && t.2.2.2 == z } else x }

/-- Start a rebuild, a copy-out or an evacuation; the spare master tells the peer, which works on the groups of its own troupes (R189, R195). -/
def Head.addRebuild (h : Head) (s n : Nat) (copyOut : Bool) (kind : Nat) (todo : List (Nat × Nat × Nat × Nat)) : Head :=
  (h.modMnd fun m => { m with
    rebuilds := m.rebuilds ++ [{ id := m.nextRebuild, shelf := s, mdl := n, copyOut := copyOut, spareKind := kind, todo := todo }]
    nextRebuild := m.nextRebuild + 1 }).when (h.pair.icl && h.pair.spareMaster) fun h =>
      h.emit (.control (.rebuild s n copyOut kind todo))

/-- REBUILDING, on both heads. -/
def Head.setRebuilding (h : Head) (s n : Nat) : Head :=
  (h.setModule s n 3).when h.pair.icl fun h => h.emit (.control (.moduleState s n 3))

/-- Roles that a group has lost: positions on FAILED or REBUILDING modules not yet replaced. -/
def Head.lostPositions (h : Head) (g : Group) : List Nat :=
  (List.range g.members.length).filter fun i =>
    let st := (h.mnd.mdl g.shelf (g.members.getD i (0, 0)).1).state
    st == 2 || st == 3

/-- EXPOSED (R198): some written group of a shelf has lost two roles; source 566 and a CRITICAL record when that begins for a shelf. -/
def Head.checkExposed (h : Head) : Head :=
  let bad := h.pty.groups.filter fun g => decide (0 < g.next) && !g.reset && decide (2 ≤ (h.lostPositions g).length)
  let shelves := (bad.map (·.shelf)).dedup
  let fresh := shelves.filter fun s => !h.mnd.exposed.contains s
  let h := h.modMnd fun m => { m with exposed := shelves }
  h.forEach fresh fun h s =>
    match bad.find? (·.shelf == s) with
    | none => h
    | some g => h.report 566 sevCritical
      (leBytes 1 s ++ (h.lostPositions g).flatMap fun i => leBytes 1 (g.members.getD i (0, 0)).1)

/-- The kind is spent (R205): the reduced mode, and the evacuation of the groups, those that have lost two roles first. -/
def Head.sparesSpent (h : Head) (s n : Nat) (left : List (Group × Nat)) : Head :=
  let h := (h.enterReduced 5 (some 569) (leBytes 1 s ++ leBytes 1 n)).modKind 7 fun x => { x with mode := 2 }
  let h := h.modMnd fun m => { m with reduced := true }
  let order := left.filter (fun x => decide (2 ≤ (h.lostPositions x.1).length)) ++
    left.filter fun x => decide ((h.lostPositions x.1).length < 2)
  if left = [] then h else h.addRebuild s n false 3 (order.map fun x => (x.1.id, x.2, 0, 0))

/-- A zone of a kind-7 spare goes into service: TOTAL is what is free and in use. -/
def Head.zoneUsed (h : Head) : Head :=
  let free := ((h.mnd.modules.filter fun m => m.state == 0 && !m.spare).map (·.zones.length)).sum
  (h.modKind 7 fun x => { x with total := x.inUse + 1 + free }).spareUsed 7

/-- Landing stripes that a module serves, with its role. -/
def Head.landingOf (h : Head) (s n : Nat) : List (Nat × Nat) :=
  (h.pty.landing.filter (·.2.1 == s)).filterMap fun x => (x.2.2.2.findIdx? (· == n)).map fun r => (x.1, r)

/-- Spares are assigned by the spare master, and by no head while the Iclin link to a present peer is down (R189). -/
def Head.assigns (h : Head) : Bool :=
  h.pair.spareMaster && (h.pair.icl || h.pair.absent || h.pair.see == 0)

/-- Assign replacement capacity to a module that failed or wore out (R191, R204, R205), by the spare master. -/
def Head.assign (h : Head) (s n : Nat) : Head :=
  let worn := (h.mnd.mdl s n).state == 1
  if !h.assigns ∨ (h.mnd.rebuildOf s n).isSome then h
  else if h.landing s then
    match h.spareModule s [] with
    | none => h.sparesSpent s n []
    | some m =>
      let todo := (h.landingOf s n).map fun (st, r) => (st, r, m.mdl, 0)
      let h := (h.modModule s m.mdl fun x => { x with spare := false }).addRebuild s n worn 1 todo
      (h.when (!worn) fun h => h.setRebuilding s n).spareUsed 6 |>.raise 563
  else
    let gs := h.groupsOf s n
    let zones := gs.map fun (g, i) => ((g.members.getD i (0, 0)).2, g.units)
    match h.spareModule s zones with
    | some m =>
      let todo := gs.map fun (g, i) => (g.id, i, m.mdl, (g.members.getD i (0, 0)).2)
      let h := ((h.modModule s m.mdl fun x => { x with spare := false }).takeZones s todo).addRebuild s n worn 1 todo
      ((h.when (!worn) fun h => h.setRebuilding s n).spareUsed 6).raise 563
    | none =>
      let (todo, left) := if h.bit Adr.MND_CFG 9 then h.spread gs [] else ([], gs)
      let h := if todo = [] then h
        else
          let h := (h.takeZones s todo).addRebuild s n worn 2 todo
          let h := h.when (!worn) fun h => h.setRebuilding s n
          h.forEach todo fun h _ => h.zoneUsed.raise 563
      if left = [] ∧ (todo ≠ [] ∨ gs = []) then h else h.sparesSpent s n left

/-- Assign spares to every FAILED or WORN module that has none yet. -/
def Head.assignAll (h : Head) : Head :=
  h.forEach (h.mnd.modules.filter fun m => m.state == 1 || m.state == 2) fun h m => h.assign m.shelf m.mdl

/-- Journal copies on a failed module (R181, R201): source 550, the copy is missing, and a move to the lowest HEALTHY module of the
landing shelf that holds neither copy begins. -/
def Head.journalLost (h : Head) (t : Troupe) (s n : Nat) : Head :=
  let (shelf, a, b) := h.journalHome t
  if shelf ≠ s ∨ (a ≠ n ∧ b ≠ n) then h
  else
    let h := h.modPty fun p => { p with copies := p.copies.modify (troupeBit t) fun c =>
      if a = n then (false, c.2.1, c.2.2) else (c.1, false, c.2.2) }
    let pick := (h.mnd.modules.filter fun m => m.shelf == s && m.state == 0 && m.mdl != a && m.mdl != b).foldl
      (fun (best : Option Nat) m => match best with
        | none => some m.mdl
        | some x => some (min x m.mdl)) none
    (h.modMnd fun m => { m with jrnEff := m.jrnEff.set (troupeBit t) (a, b, pick) }).raise 550

/-- A change of the state table to FAILED or WORN takes effect (R190, R191, R201). -/
def Head.applyDeclaration (h : Head) (s n : Nat) (worn : Bool) : Head :=
  let h := (h.setModule s n (if worn then 1 else 2)).isolate s n (!worn)
  let h := h.when (!worn) fun h => (h.journalLost .a s n).journalLost .b s n
  (h.assign s n).checkExposed

/-- Declare a module FAILED or WORN (R188, R189): the sources and the FAULT records; the spare master makes the change, another
head reports it and acts only when it is alone. -/
def Head.declareModule (h : Head) (s n : Nat) (worn : Bool) (cause count : Nat) : Head :=
  let st := (h.mnd.mdl s n).state
  if (if worn then st ≠ 0 else 1 < st) ∨ h.mnd.reported.any (fun x => x.1 == s && x.2.1 == n) then h
  else
    let h := h.report (if worn then 562 else 561) sevFault (leBytes 1 s ++ leBytes 1 n ++ leBytes 1 cause ++ leBytes 2 count)
    let h := h.report 992 sevFault
      (leBytes 1 7 ++ leBytes 2 (s * 64 + n) ++ leBytes 2 count ++ leBytes 2 (h.windowH 7))
    if h.pair.spareMaster then
      let h := h.when h.pair.icl fun h => h.emit (.control (.moduleState s n (if worn then 1 else 2)))
      h.applyDeclaration s n worn
    else
      let h := h.modMnd fun m => { m with reported := m.reported ++ [(s, n, if worn then 1 else 2)] }
      if h.pair.icl then h.emit (.control (.declare s n worn))
      else if worn then h else (h.setModule s n 2).isolate s n true

/-- Count a cause of a module (R188): 0 late, 1 media, 2 program. A module out of service counts no more. -/
def Head.countModule (h : Head) (s n cause : Nat) : Head :=
  let m := h.mnd.mdl s n
  if 1 < m.state then h
  else
    let add (l : List Nat) := (h.opNow :: l).take 256
    let h := h.modModule s n fun m => match cause with
      | 0 => { m with late := add m.late }
      | 1 => { m with media := add m.media }
      | _ => { m with program := add m.program }
    let h := h.raise 560
    let m := h.mnd.mdl s n
    let times := match cause with | 0 => m.late | 1 => m.media | _ => m.program
    let lim := orIfZero 1 (h.fld Adr.MND_FAIL_THRESH (8 * cause + 7) (8 * cause))
    let n' := (h.inWindow (h.windowH 7) times).length
    if lim ≤ n' then h.declareModule s n false cause n' else h

/-- A port reports a member-block tag failure or a media error on a module (R163, R188). -/
def Head.memberBad (h : Head) (s n : Nat) (tagFail : Bool) : Head :=
  (h.when tagFail fun h => h.pointFailed 0x4 0x3F s n).countModule s n 1

/-! ## Rebuild units (R193 to R200) -/

/-- The rebuild rates of every port at a beat edge (R196), in MB/s: 256 bytes a beat make 1 MB/s. -/
def Head.setRates (h : Head) : Head :=
  let floor := orIfZero 1 (h.fld Adr.MND_RATE_FLOOR 15 0)
  let ceil := max floor (h.fld Adr.MND_RATE_CEIL 15 0)
  let live := h.mnd.rebuilds.filter (·.spareKind != 3)
  let width (r : Rebuild) := ((h.pty.groups.find? fun g => some g.id == (r.todo.head?.map (·.1))).map (·.k)).getD 14
  let rate (r : Rebuild) : Nat × Bool :=
    let port := h.shelfPort r.shelf
    let m := ((live.filter fun x => h.shelfPort x.shelf == port).map (·.m)).sum
    let k := width r
    let load := assocGet port 0 h.mnd.portLoad / 256
    let avail := 56250 * (100 - min 50 (h.fld Adr.MND_CFG 23 16)) / 100 - load
    let raw := avail * m / (if r.copyOut then 2 else k + m)
    let whole := min (max raw floor) (ceil * m)
    (whole * r.m / max 1 m, decide (raw < floor))
  let rs := h.mnd.rebuilds.map fun r => if r.spareKind = 3 then r else { r with rate := (rate r).1, atFloor := (rate r).2 }
  let portWork (p : Nat) := ((rs.filter fun r => r.spareKind != 3 && h.shelfPort r.shelf == p).map fun r =>
    r.rate * (if r.copyOut then 2 else width r + r.m) / max 1 r.m).sum
  let aboveFloor := rs.any fun r => r.atFloor &&
    decide (56250 < assocGet (h.shelfPort r.shelf) 0 h.mnd.portLoad / 256 + portWork (h.shelfPort r.shelf))
  let h := h.modMnd fun m => { m with rebuilds := rs, portLoad := [], appendLoad := [], floorPace := aboveFloor }
  h.forEach (rs.filter (·.atFloor)) fun h _ => h.raise 565

/-- Credit of one slot: r × 16 µs (R196). -/
def Head.addCredit (h : Head) : Head :=
  h.modMnd fun m => { m with rebuilds := m.rebuilds.map fun r => { r with credit := r.credit + r.rate * 16 } }

def Head.modRebuild (h : Head) (id : Nat) (f : Rebuild → Rebuild) : Head :=
  h.modMnd fun m => { m with rebuilds := m.rebuilds.map fun r => if r.id = id then f r else r }

/-- The positions of the group in hand: both lost roles of one group go in one pass (R198). -/
def Rebuild.batch (r : Rebuild) : List (Nat × Nat × Nat × Nat) :=
  match r.todo with
  | [] => []
  | x :: _ => r.todo.filter (·.1 == x.1) ++ r.joint

/-- This head flies the troupe of a group, or of a landing stripe, that a rebuild is to move. -/
def Head.mine (h : Head) (r : Rebuild) (item : Nat) : Bool :=
  if h.landing r.shelf then h.flies (ofBit (item / 2 ^ 47 % 2))
  else ((h.pty.groups.find? (·.id == item)).map fun g => h.flies g.troupe).getD true

/-- Take up the next group of a troupe that this head flies (R198): groups that have lost two modules come first, both roles in one pass, and a later rebuild leaves those to
the earlier one; a group that the earlier one had begun alone comes last. None while every group left is the earlier one's. -/
def Head.chooseGroup (h : Head) (r : Rebuild) : Option Rebuild :=
  let has (x : Rebuild) (g : Nat) := x.todo.any (·.1 == g)
  let others := if r.copyOut then [] else
    h.mnd.rebuilds.filter fun x => x.shelf == r.shelf && !x.copyOut && x.spareKind != 3 && x.id != r.id
  let own := r.todo.filter fun e => h.mine r e.1 && !others.any fun x => decide (x.id < r.id) && has x e.1
  let both := own.filter fun e => others.any fun x => has x e.1
  match both ++ own.filter fun e => !both.contains e with
  | [] => none
  | e :: l =>
    let joint := ((others.find? fun x => has x e.1).map fun x => x.todo.filter (·.1 == e.1)).getD []
    let r := { r with todo := e :: l ++ r.todo.filter (fun x => !own.contains x), joint := joint }
    some { r with m := max 1 r.batch.length }

/-- The role that a group position holds in the stripe of a unit. -/
def roleAt (k rotate pos unit : Nat) : Nat := ((List.range (k + 2)).find? fun r => position k rotate r unit == pos).getD 0

/-- The stripe at a unit of a group. -/
def Head.stripeAt (h : Head) (g unit : Nat) : Option Stripe := h.pty.stripes.find? fun s => s.group == g && s.unit == unit

/-- The rebuild ends: source 564, and its module is retired (R195); a module that lost only a zone stays in service, and the zone
that was replaced gets Finish (R319). -/
def Head.endRebuild (h : Head) (r : Rebuild) : Head :=
  let h := h.modMnd fun m => { m with rebuilds := m.rebuilds.filter (·.id != r.id) }
  let h :=
    if (h.mnd.mdl r.shelf r.mdl).state = 0 then h.emit (.moduleCmd r.shelf r.mdl 1)
    else
      let h := h.setModule r.shelf r.mdl 4
      h.when (h.pair.icl && h.pair.spareMaster) fun h => h.emit (.control (.moduleState r.shelf r.mdl 4))
  (h.raise 564).checkExposed

/-- Zones that have been moved leave the rebuilds, and a rebuild with none left ends (R195). -/
def Head.takeOff (h : Head) (moved : Rebuild → Nat × Nat × Nat × Nat → Bool) : Head :=
  let due := (h.mnd.rebuilds.filter fun r => r.todo.any (moved r)).map (·.id)
  let h := h.modMnd fun m => { m with rebuilds := m.rebuilds.map fun r =>
    { r with todo := r.todo.filter fun t => !moved r t, moved := r.moved + (r.todo.filter (moved r)).length } }
  h.forEach (h.mnd.rebuilds.filter fun r => due.contains r.id && r.todo == []) Head.endRebuild

/-- A rebuild that stops takes its group up again from the start, at the spare zone's write pointer (R195). -/
def Head.stopRebuild (h : Head) (r : Rebuild) : Rebuild :=
  { r with unit := if h.landing r.shelf then r.unit else 0, joint := [], busy := false, written := false, resumed := false, verify := false }

/-- A group whose troupe this head does not fly any more is let go, once nothing of it is under way. -/
def Head.letGo (h : Head) (r : Rebuild) : Head :=
  if r.todo.head?.all (fun x => h.mine r x.1) ∨ h.pty.bundles.any (fun b => b.kind == .rebuildUnit r.id && b.launched.isSome) then h
  else
    (h.modPty fun p => { p with bundles := p.bundles.filter (·.kind != .rebuildUnit r.id) }).modRebuild r.id fun x =>
      { h.stopRebuild x with unit := 0 }

/-- The member reads that rebuild the lost roles of a stripe: none of a void one, the module's own for a copy-out, else k survivors (R193,
R204). -/
def Head.rebuildSources (h : Head) (r : Rebuild) (s : Stripe) : List (Nat × Nat) :=
  let rot := ((h.geom s.geom).map (·.rotate)).getD 0
  let lost := r.batch.map fun x => roleAt s.k rot x.2.1 s.unit
  let mods := h.roleModules s.number
  if s.phase = .voided then []
  else (if r.copyOut then lost else survivors s.k (lost ++ h.deadRoles s.number)).map fun x => (x, mods.getD x 0)

/-- Modules that a rebuild of the unit in hand reads and writes: k survivors and the spares, and a further survivor that R199 needs. -/
def Head.rebuildModules (h : Head) (r : Rebuild) : List Nat :=
  let more := h.pty.bundles.flatMap fun b =>
    if b.kind = .rebuildUnit r.id then (b.ops.filter fun o => decide (o.member < 0x40)).map (·.mdl) else []
  let reads := ((r.todo.head?.bind fun x => h.stripeAt x.1 r.unit).map fun s => (h.rebuildSources r s).map (·.2)).getD []
  (reads ++ r.batch.map (·.2.2.1) ++ more).dedup

/-- On a shelf that is not open Mend asks for the power of the modules it needs (R194): ARM MODULES for the next power slot that
R222 admits. -/
def Head.powerModules (h : Head) (r : Rebuild) : Head :=
  let sh := h.shf.shelf r.shelf
  let mask := ((h.rebuildModules r).map fun m => 2 ^ m).foldl (· ||| ·) sh.partialMask
  let w := h.moduleW r.shelf * ((h.rebuildModules r).filter fun m => !bitAt m sh.partialMask).length
  let others := h.mnd.rebuilds.filter fun x => x.shelf == r.shelf && x.id != r.id && (x.busy || decide (0 < x.unit))
  match h.nextPower with
  | none => h
  | some n =>
    if !(sh.state == 1 || sh.state == 5) ∨ sh.armed.isSome ∨ max 1 (h.fld Adr.MND_CFG 11 10) ≤ others.length ∨
       !h.slotAdmits n w then h
    else (h.modShelf r.shelf fun x => { x with armMask := mask }).armShelf r.shelf n 2

/-- The modules of a partly powered shelf are powered down when the last group that used them completes (R194). -/
def Head.unpowerModules (h : Head) (shelf : Nat) : Head :=
  let sh := h.shf.shelf shelf
  if sh.state ≠ 5 ∨ sh.armed.isSome ∨ h.mnd.rebuilds.any (fun x => x.shelf == shelf && (x.busy || decide (0 < x.unit))) then h
  else
    match h.nextPower with
    | none => h
    | some n => (h.modShelf shelf fun x => { x with armMask := 0 }).armShelf shelf n 2

/-- The modules of a unit have power: the shelf is open, or partly powered with all of them, and they are not about to lose it. -/
def Head.modulesPowered (h : Head) (r : Rebuild) : Bool :=
  let sh := h.shf.shelf r.shelf
  let mask := if sh.armed.any (·.2 == 2) then sh.partialMask &&& sh.armMask else sh.partialMask
  sh.state == 3 || (sh.state == 5 && (h.rebuildModules r).all fun m => bitAt m mask)

/-- A group has been rebuilt: its positions move to the spare by map updates (R195). -/
def Head.groupMoved (h : Head) (r : Rebuild) : Head :=
  let done := r.batch
  let h := h.forEach done fun h (g, pos, mdl, zone) =>
    match h.pty.groups.find? (·.id == g) with
    | none => h
    | some grp =>
      let old := (grp.members.getD pos (0, 0)).1
      let h := h.modGroup g fun x => { x with members := x.members.set pos (mdl, zone) }
      h.when (h.flies grp.troupe) fun h =>
        h.issue grp.troupe { type := 0x0A, order := 0, a := g, b := pos, result := mdl, prior := old }
  let h := h.modMnd fun m => { m with rebuilds := m.rebuilds.map fun x => { x with
    todo := x.todo.filter fun t => !done.contains t, moved := x.moved + (x.todo.filter done.contains).length } }
  let h := h.modRebuild r.id fun x => { x with joint := [], unit := 0, busy := false, written := false, resumed := false, m := 1 }
  let h := h.unpowerModules r.shelf
  h.forEach (h.mnd.rebuilds.filter fun x => x.shelf == r.shelf && x.spareKind != 3 && x.todo == []) Head.endRebuild

/-- A landing role has been rebuilt: the stripe names the spare. -/
def Head.landingMoved (h : Head) (r : Rebuild) (st role mdl : Nat) : Head :=
  let h := h.modPty fun p => { p with landing := p.landing.map fun x =>
    if x.1 = st then (x.1, x.2.1, x.2.2.1, x.2.2.2.set role mdl) else x }
  let h := h.modRebuild r.id fun x => { x with todo := x.todo.tail, moved := x.moved + 1, unit := 0, busy := false, written := false }
  let h := h.when h.pair.icl fun h => h.emit (.control (.rebuildMoved r.shelf r.mdl st role mdl))
  match h.mnd.rebuilds.find? (·.id == r.id) with
  | none => h
  | some r => if r.todo = [] then h.endRebuild r else h

/-- A rebuild holds a landing row (R193). -/
def Head.rebuildHolds (h : Head) (stripe row : Nat) : Bool :=
  h.mnd.rebuilds.any fun r => h.landing r.shelf && r.busy && (r.todo.head?.map (·.1)) == some stripe && r.unit == row

/-- The rows or units of the group in hand are finished: go to the next. -/
def Head.unitDone (h : Head) (id : Nat) : Head :=
  match h.mnd.rebuilds.find? (·.id == id) with
  | none => h
  | some r =>
    match r.todo with
    | [] => h.endRebuild r
    | (g, pos, mdl, _) :: _ =>
      let next := r.unit + 1
      let h := h.modRebuild id fun x => { x with unit := next, busy := false, written := false, verify := false }
      if h.landing r.shelf then (if 32 ≤ next then h.landingMoved r g pos mdl else h)
      else
        match h.pty.groups.find? (·.id == g) with
        | none => h.modRebuild id fun x => { x with todo := x.todo.tail, joint := [], unit := 0, resumed := false }
        | some grp => if grp.next ≤ next then h.groupMoved r else h

/-- Launch the rebuild of one unit row set of the group in hand when the credit reaches it (R193, R196). -/
def Head.launchRows (h : Head) (r : Rebuild) : Head :=
  match r.todo with
  | [] => h.endRebuild r
  | (g, pos, mdl, _) :: _ =>
    let need := 131072 * r.m
    if r.busy ∧ !h.landing r.shelf ∧ !h.modulesPowered r then h.powerModules r
    else if r.busy ∨ r.credit < need ∨ h.parting then h
    else if h.landing r.shelf then
      let st := h.pty.landing.find? (·.1 == g)
      let k := ((st.bind fun x => h.geom x.2.2.1).map (·.k)).getD 0
      if h.pty.rows.any fun x => x.stripe == g && x.row == r.unit && x.locked then h
      else
        let mods := (st.map (·.2.2.2)).getD []
        let reads := if r.copyOut then [(pos, mods.getD pos 0)] else (survivors k [pos]).map fun x => (x, mods.getD x 0)
        let t := ofBit (g / 2 ^ 47 % 2)
        (h.modRebuild r.id fun x => { x with busy := true, credit := x.credit - need }).addBundle (.rebuildUnit r.id) clsMend t r.shelf g
          r.unit (reads ++ [(0x40 + pos, mdl)])
    else if !h.modulesPowered r then h.powerModules r
    else
      match h.pty.groups.find? (·.id == g) with
      | none => h.unitDone r.id
      | some grp =>
        match h.stripeAt g r.unit with
        | none => h.unitDone r.id
        | some s =>
          if grp.next ≤ r.unit then h.unitDone r.id
          else
            let rot := ((h.geom s.geom).map (·.rotate)).getD 0
            let reads := h.rebuildSources r s
            let writes := r.batch.map fun x => (0x40 + roleAt s.k rot x.2.1 s.unit, x.2.2.1)
            let ops := if r.verify then writes.map fun x => (x.1 - 0x40, x.2) else reads ++ writes
            (h.modRebuild r.id fun x => { x with busy := true, credit := x.credit - need, m := max 1 r.batch.length }).addBundle
              (.rebuildUnit r.id) clsMend s.troupe r.shelf s.number 0xFFFF ops

/-- Launch the next unit row set of a rebuild. A group is taken up at its spare's write pointer, and with units there the last one is checked
first (R195). -/
def Head.launchUnit (h : Head) (r : Rebuild) (pointer : Nat) : Head :=
  let h := h.letGo r
  match h.mnd.rebuilds.find? (·.id == r.id) with
  | none => h
  | some r =>
    if r.todo = [] ∨ r.busy ∨ r.unit ≠ 0 ∨ r.resumed then h.launchRows r
    else if h.landing r.shelf then
      match r.todo.filter fun x => h.mine r x.1 with
      | [] => h
      | x :: _ =>
        let r := { r with todo := x :: r.todo.filter (· != x) }
        (h.modRebuild r.id fun _ => r).launchRows r
    else
      match h.chooseGroup r with
      | none => h
      | some r =>
        let r := { r with unit := pointer - 1, resumed := decide (0 < pointer), verify := decide (0 < pointer) }
        (h.modRebuild r.id fun _ => r).launchRows r

/-- What the reads of a unit row set have shown: in the rows `bad` the blocks `gone` cannot be reconstructed (R200), and further blocks of
survivors failed (R199). Chunks on lost data are lost, with one CRITICAL record for the stripe; the rest of a stripe with such rows is relocated,
and so are chunks on failed survivor blocks. -/
def Head.unitLosses (h : Head) (s : Stripe) (b : Bundle) (bad : List Nat) : Head :=
  let gone (row : Nat) := (List.range (s.k + 2)).filter fun r => ((b.blocks (s.k + 2) row).getD r none).isNone
  let chunks := (h.chunksIn [s.number]).filterMap h.dp.chunk?
  let lost := (chunks.filter fun c => bad.any fun row => (gone row).any fun r => decide (r < s.k) && c.touches r row).map (·.uid)
  let hurt := (chunks.filter fun c => b.ops.any fun o => decide (o.member < s.k) && b.badRoles.contains o.member &&
    (List.range 32).any fun row => (gone row).contains o.member && c.touches o.member row).map (·.uid)
  let h := h.forEach lost Head.loseChunk
  let h := h.when (bad.any fun row => (gone row).any fun r => decide (r < s.k)) fun h => h.record sevCritical 567
    (leBytes 8 s.number ++ leBytes 4 ((bad.map fun row => 2 ^ row).sum) ++ leBytes 4 lost.length)
  h.relocateAll (if bad = [] then hurt else h.chunksIn [s.number]) [] false

/-- The reads of a unit row set have ended: the lost roles are rebuilt row by row and sent to the spare, or further reads are made (R193,
R199, R200). -/
def Head.rebuildReads (h : Head) (b : Bundle) (r : Rebuild) : Head :=
  let writes := (b.ops.filter fun o => decide (0x40 ≤ o.member)).map fun o => (o.member - 0x40, o.mdl)
  let lost := writes.map (·.1)
  let landing := h.landing r.shelf
  let st := h.stripe? b.stripe
  let land := h.pty.landing.find? (·.1 == b.stripe)
  let k := match st with | some s => s.k | none => ((land.bind fun x => h.geom x.2.2.1).map (·.k)).getD 0
  let geom := match st with | some s => s.geom | none => (land.map (·.2.2.1)).getD 0
  let void := ((st.map (·.phase)) == some .voided)
  let rows := List.range (if landing then 1 else 32)
  let rowOf (row : Nat) : Option (List Bytes) :=
    let u := b.blocks (k + 2) row
    if r.copyOut ∧ lost.all fun x => (u.getD x none).isSome then some (u.map fun d => d.getD []) else rebuildRow 4096 k u
  let bad := if void then [] else rows.filter fun row => (rowOf row).isNone
  let have_ := (List.range (k + 2)).filter fun x => b.ops.any (·.member == x)
  let unread := (List.range (k + 2)).filter fun x => !have_.contains x && !(lost.contains x && !r.copyOut) && !(h.deadRoles b.stripe).contains x
  let mods := h.roleModules b.stripe
  if !void ∧ !landing ∧ b.reread ≠ [] then h.readMore b b.kind b.reread true
  else if bad ≠ [] ∧ unread ≠ [] ∧ have_ ≠ [] then h.readMore b b.kind (unread.map fun y => (y, mods.getD y 0)) false
  else
    let h := h.modRebuild r.id fun x => { x with written := true }
    let h := match st with | some s => h.when (!void) fun h => h.unitLosses s b bad | none => h
    h.emits (writes.map fun (role, mdl) =>
      let tagRole (row : Nat) := if void then 0xFF else if bad.contains row then 0xFD else role
      let block (row : Nat) := if void then zeros 4096 else ((rowOf row).map fun x => fit 4096 (x.getD role [])).getD (zeros 4096)
      if landing then
        .rowBlock r.shelf mdl b.stripe b.row role (block 0 ++ memberTag (block 0) b.stripe b.row (tagRole 0) geom)
      else
        let zone := ((r.batch.find? (·.2.2.1 == mdl)).map (·.2.2.2)).getD 0
        .program r.shelf mdl zone r.unit (taggedRows b.stripe geom tagRole 32 (rows.flatMap block)))

/-- The spare's copy of the last unit written has been read: a unit whose tags fail is rebuilt again, else the next one follows (R195). -/
def Head.rebuildChecked (h : Head) (b : Bundle) (r : Rebuild) : Head :=
  let h := h.dropBundle b.id
  if b.ops.all fun o => o.status == some 0 && o.tagRows == [] then h.unitDone r.id
  else h.modRebuild r.id fun x => { x with busy := false, verify := false }

/-- A completion of a unit row set has come (R195). -/
def Head.rebuildReported (h : Head) (b : Bundle) (id : Nat) : Head :=
  match h.mnd.rebuilds.find? (·.id == id) with
  | none => h.dropBundle b.id
  | some r =>
    if r.verify ∧ !h.landing r.shelf then (if b.ops.all (·.status.isSome) then h.rebuildChecked b r else h) else
    let reads := b.ops.filter fun o => decide (o.member < 0x40)
    let writes := b.ops.filter fun o => decide (0x40 ≤ o.member)
    let h := if !r.written ∧ reads.all (·.status.isSome) then h.rebuildReads b r else h
    let again := ((h.pty.bundles.find? (·.id == b.id)).map fun x => x.ops.length != b.ops.length).getD false
    if again ∨ !(reads.all (·.status.isSome) ∧ writes.all (·.status.isSome)) then h
    else
      let h := h.dropBundle b.id
      match writes.find? (·.status != some 0) with
      | some w => (h.countModule r.shelf w.mdl 2).modRebuild id fun x => { x with busy := false, written := false }
      | none => h.unitDone id

/-- An evacuation relocates the chunks of its next group of a troupe that this head flies; the module is RETIRED when the last group is
empty (R205). -/
def Head.evacuate (h : Head) (r : Rebuild) : Head :=
  if r.todo = [] then h.endRebuild r
  else
    match r.todo.find? fun x => h.mine r x.1 with
    | none => h
    | some (g, pos, _, _) =>
      if h.groupChunks g = [] then
        (h.takeOff fun x t => x.id == r.id && t.1 == g && t.2.1 == pos).when h.pair.icl fun h =>
          h.emit (.control (.rebuildMoved r.shelf r.mdl g pos 0))
      else h.relocateAll (h.groupChunks g) [] false

/-- No shelf of the troupe can open a group for a domain's COLD_GEOM and no open stripe or group has room (R205). -/
def Head.noSpace (h : Head) (t : Troupe) (dom : Nat) : Bool :=
  match (h.domain dom).bind fun e => h.geom e.coldGeom with
  | none => false
  | some g =>
    h.mnd.reduced &&
      !(h.pty.groups.any fun x => x.troupe == t && x.geom == g.id && !x.closed && decide (x.next < x.units)) &&
      !(h.shelvesOn.any fun s => !h.landing s && decide (0 < h.freeGroups s (g.k + 2)))

/-! ## The reshape job (R207 to R211) -/

/-- Committed source stripes of the job in order of zone group, then unit. -/
def Head.jobStripes (h : Head) : List Stripe :=
  let r := h.rsh
  (h.pty.stripes.filter fun s => s.shelf == r.shelf && s.troupe == r.troupe && s.geom == r.src && s.phase == .committed).insertionSort
    fun a b => decide (a.group < b.group ∨ (a.group = b.group ∧ a.unit ≤ b.unit))

/-- Source stripes at or ahead of the boundary. -/
def Head.jobAhead (h : Head) : List Stripe :=
  h.jobStripes.filter fun s => decide (h.rsh.group < s.group ∨ (h.rsh.group = s.group ∧ h.rsh.unit ≤ s.unit))

def Head.modRsh (h : Head) (f : Reshape → Reshape) : Head := h.modMnd fun m => { m with reshape := f m.reshape }

/-- Take the next batch and relocate its chunks into the job's stripes; a rebuild on the shelf holds the job (R208, R211). -/
def Head.startBatch (h : Head) : Head :=
  let r := h.rsh
  if r.state ≠ 1 ∨ r.inBatch ≠ [] ∨ h.mnd.rebuilds.any (·.shelf == r.shelf) ∨ h.parting then h
  else
    let l := (h.jobAhead.take (orIfZero 1 r.batch)).map (·.number)
    (h.modRsh fun r => { r with inBatch := l }).relocateAll (h.chunksIn l) [] true

/-- The chunks of the batch that have not moved. -/
def Head.batchLeft (h : Head) : List Nat := h.chunksIn h.rsh.inBatch

/-- Once every chunk of the batch is placed, the job's open stripes close. -/
def Head.closeJob (h : Head) : Head :=
  if h.rsh.inBatch = [] ∨ h.batchLeft ≠ [] then h
  else h.forEach ((h.pty.stripes.filter fun s => s.reshape && s.phase == .opened).map (·.number)) Head.closeStripe

/-- The batch's target stripes have committed and their map updates have matched. -/
def Head.batchDone (h : Head) : Bool :=
  decide (h.rsh.inBatch ≠ []) && decide (h.batchLeft = []) &&
    !(h.pty.stripes.any fun s => s.reshape && s.phase != .committed && s.phase != .voided) &&
    (h.pair.trp h.rsh.troupe).settled h.rsh.lastBeat

end Sys2Proof.Machine
end

