-- ==== Sys2Proof/Machine/PairOps.lean ====
section
/-!
DEFINITION. The pair: beats and their digests, going ALONE, the Catcher's execution of orders, freezes, the Baton, takeover,
handover and resynchronisation (11_troupes_flyer_catcher_baton.md R240 to R264).
-/

namespace Sys2Proof.Machine

open Sys2Proof

/-! ## Roles -/

/-- The head that is home to a troupe (R240). -/
def home (t : Troupe) : Nat := troupeBit t
def Head.isHome (h : Head) (t : Troupe) : Bool := h.headId == home t

/-- The other troupe. -/
def otherTroupe (t : Troupe) : Troupe := match t with | .a => .b | .b => .a

/-- The level of a line of a troupe. -/
def lineOf (v : BitVec 2) (t : Troupe) : Bool := v.getLsbD (troupeBit t)
def setLine (v : BitVec 2) (t : Troupe) (b : Bool) : BitVec 2 :=
  let m := BitVec.ofNat 2 (2 ^ troupeBit t)
  if b then v ||| m else v &&& ~~~m

/-- The spare and power master (R189): Flyer for troupe A, or the only head present. -/
def Head.electMaster (h : Head) : Head :=
  h.modPair fun p => { p with
    spareMaster := p.a.role == 1 || (!p.icl && !lineOf p.see .a && (p.b.role == 1 || p.absent)) }

/-- Change a troupe's role and state; the master's role follows. -/
def Head.setRole (h : Head) (t : Troupe) (role state : Nat) : Head :=
  (h.modTrp t fun x => { x with role := role, state := state }).electMaster

/-! ## Beats (R17, R246) -/

/-- A map record as it is digested (R244). -/
def OrderRec.encode (r : OrderRec) : Bytes :=
  leBytes 1 r.type ++ leBytes 1 r.flags ++ leBytes 2 r.domain ++ leBytes 4 r.nsid ++ leBytes 8 r.order ++ leBytes 8 r.a ++
    leBytes 4 r.b ++ leBytes 4 r.result ++ leBytes 8 r.location ++ leBytes 8 r.prior ++ fit 16 r.key

/-- The input of a beat's digest: header and records. -/
def beatInput (t : Troupe) (beat : Nat) (prev : Bytes) (rs : List OrderRec) : Bytes :=
  leBytes 4 0x54414542 ++ leBytes 1 (troupeBit t) ++ zeros 3 ++ leBytes 8 beat ++ leBytes 4 rs.length ++ zeros 4 ++
    leBytes 8 ((rs.head?.map (·.order)).getD 0) ++ fit 32 prev ++ rs.flatMap OrderRec.encode

/-- Commit digest of a beat. -/
def beatDigest (t : Troupe) (beat : Nat) (prev : Bytes) (rs : List OrderRec) : Bytes := sha3_256 (beatInput t beat prev rs)

/-- Order digest of a beat: RESULT and PRIOR are 0. -/
def orderDigest (t : Troupe) (beat : Nat) (prev : Bytes) (rs : List OrderRec) : Bytes :=
  beatDigest t beat prev (rs.map fun r => { r with result := 0, prior := 0 })

/-- Close the open beat of a troupe on this head. -/
def Head.closeBeat (h : Head) (t : Troupe) : Head :=
  let p := h.pair.trp t
  let b : Beat :=
    { beat := p.openBeat, records := p.openRecs, prev := p.prevDigest, digest := beatDigest t p.openBeat p.prevDigest p.openRecs,
      orderDigest := orderDigest t p.openBeat p.prevDigest p.openRecs, closedAt := h.now }
  h.modTrp t fun x => { x with beats := x.beats ++ [b], prevDigest := b.digest, openRecs := [], openBeat := x.openBeat + 1 }

/-- The end-of-beat Marker (R247). -/
def Head.sendMarker (h : Head) (t : Troupe) : Head :=
  let p := h.pair.trp t
  h.emit (.marker t p.openBeat p.openRecs.length p.order)

/-- Write a closed beat to the beat log in both journal copy modules (R248). -/
def Head.logBeat (h : Head) (t : Troupe) (b : Beat) : Head :=
  let (shelf, x, y) := h.journalHome t
  (h.modTrp t fun p => { p with blogUsed := p.blogUsed + 64 + 64 * b.records.length }).addBundle (.beatLog t b.beat) clsLand t shelf 0 0xFFFF
    [(0xFE, x), (0xFE, y)]

/-- A beat has matched, or its log entry is on both copies: it and the writers it held are settled. -/
def Head.settleBeat (h : Head) (t : Troupe) (beat : Nat) : Head :=
  let h := h.modTrp t fun p =>
    let l := p.beats.map fun b => if b.beat = beat then { b with matched := true } else b
    { p with beats := l.dropWhile (·.matched) }
  h.tryAcks

/-! ## ALONE (R247, R248) -/

/-- The chunks that Writes wait for go to the vault zones, unless staging is enough. -/
def Head.vaultWaiting (h : Head) (t : Troupe) : Head :=
  let lone := h.bit Adr.TRP_CFG 1
  let mine := h.hqe.ctxs.filter fun c => decide (c.unconfirmed ≠ []) && ((h.hqe.ns? c.cap.nsid).map (·.troupe)) == some t
  let h := h.modHqe fun q => { q with ctxs := q.ctxs.map fun c =>
    (if mine.any (fun x => x.id == c.id) then
      { c with unvaulted := if lone then c.unvaulted else c.unvaulted ++ c.unconfirmed, unconfirmed := [] } else c) }
  if lone then h
  else
    let (shelf, a, _) := h.journalHome t
    h.forEach (mine.flatMap (·.unconfirmed)) fun h n => h.addBundle (.vault n) clsLand t shelf 0 0xFFFF [(0xFF, a)]

/-- The Flyer takes a troupe to ALONE: beats not yet matched go to the beat log and waiting Writes complete by R248. -/
def Head.alone (h : Head) (t : Troupe) : Head :=
  let h := (h.setRole t 1 2).vaultWaiting t
  let h := h.forEach (h.pair.trp t).beats fun h b => if b.logged then h else h.logBeat t b
  h.tryAcks

/-- The Catcher is lost: ALONE with source 614. -/
def Head.catcherLost (h : Head) (t : Troupe) : Head :=
  let p := h.pair.trp t
  if p.role = 1 ∧ p.state = 1 then (h.raise 614).alone t else h

/-- The role of a Catcher becomes stale. -/
def Head.goStale (h : Head) (t : Troupe) : Head :=
  let p := h.pair.trp t
  if p.role = 2 then h.setRole t 3 2 else h

/-! ## Orders on the Catcher (R245) -/

/-- A stored chunk of a troupe by LOCATION. -/
def Dp.chunkAt (d : Dp) (t : Troupe) (loc : Nat) : Option Chunk :=
  d.chunks.find? fun c => c.troupe == t && c.location == loc && !c.released

/-- The chunk header's fingerprint (R102). -/
def headerFp (bytes : Bytes) : Bytes := slice 0x30 32 bytes

/-- The mirror copy that an index insert names. -/
def Dp.mirrorFor (d : Dp) (t : Troupe) (o : Order) : Option Staged :=
  d.staged.find? fun s => s.mirror && s.troupe == t && s.uid.isNone && s.bytes.length == o.opB &&
    (headerFp s.bytes).take 16 == o.key.take 16

/-- The record of an order before RESULT and PRIOR. -/
def orderRecord (o : Order) : OrderRec :=
  { type := o.type, flags := o.flags, domain := o.domain, nsid := o.nsid, order := o.order, a := o.opA, b := o.opB,
    location := o.location, key := fit 16 o.key }

def OrderRec.anomaly (r : OrderRec) : OrderRec := { r with flags := r.flags ||| 1, result := 0xFFFFFFFF }

/-- Zone groups and stripes as the Catcher learns them: from the journal entry of the stripe. -/
def Head.learnStripe (h : Head) (t : Troupe) (o : Order) (phase : StripePhase) : Head :=
  match h.pty.journal.find? fun j => j.troupe == t && j.kind == 1 && j.stripe == o.location % 2 ^ 48 with
  | none => h
  | some j =>
    let k := j.members - 2
    let rot := ((h.geom j.geom).map (·.rotate)).getD 0
    let mods := (List.range (k + 2)).map fun pos => j.modules.getD (roleAt k rot pos j.unit) 0
    let grp : Group :=
      { id := j.group, troupe := t, geom := j.geom, k := k, shelf := j.shelf, units := j.unit + 1, next := j.unit + 1,
        members := mods.map fun m => (m, Config.groupZone j.group m) }
    let s : Stripe :=
      { number := j.stripe, troupe := t, geom := j.geom, k := k, shelf := j.shelf, group := j.group, unit := j.unit, ring := j.ring,
        fill := j.fill, phase := phase, cycle := j.cycle, slot := j.slot }
    h.modPty fun p => { p with
      groups := if p.groups.any (·.id == grp.id) then
          p.groups.map fun g => if g.id = grp.id then { g with next := max g.next (j.unit + 1), units := max g.units (j.unit + 1) } else g
        else p.groups ++ [grp]
      stripes := if p.stripes.any (·.number == s.number) then
          p.stripes.map fun x => if x.number = s.number then { x with phase := phase } else x
        else p.stripes ++ [s] }

/-- Change the reference count of a chunk that an order names. -/
def Head.applyCount (h : Head) (t : Troupe) (o : Order) (up : Bool) : Head × OrderRec :=
  match h.dp.chunkAt t o.location with
  | none => (h, (orderRecord o).anomaly)
  | some c =>
    if !up ∧ c.refcount = 0 then (h, (orderRecord o).anomaly)
    else
      let n := if up then c.refcount + 1 else c.refcount - 1
      (h.modChunk c.uid fun x => { x with
         refcount := n, releasing := if up then false else x.releasing || n == 0, zeroBeat := if n = 0 then h.whl.beat else x.zeroBeat },
       { orderRecord o with result := n, prior := c.refcount })

/-- A chunk that an extent or an insert names for the first time. -/
def Head.learnChunk (h : Head) (t : Troupe) (o : Order) (indexed : Bool) : Head × Nat :=
  let u := h.dp.nextUid
  let s := if indexed then h.dp.mirrorFor t o else none
  let c : Chunk :=
    { uid := u, troupe := t, domain := o.domain,
      fp := match s with | some s => headerFp s.bytes | none => fit 32 o.key,
      indexed := indexed, noFilter := decide (o.flags / 4 % 2 = 1), refcount := if indexed then 1 else 0,
      stripe := o.location % 2 ^ 48, off64 := o.location / 2 ^ 48, reducedLen := if indexed then o.opB else 0,
      logicalLen := o.logicalLen, keyId := ((s.map fun s => leAt 0x14 4 s.bytes)).getD 0 }
  (h.modDp fun d => { d with
     nextUid := u + 1, chunks := d.chunks ++ [c]
     staged := match s with
       | none => d.staged
       | some s => d.staged.map fun x => if x.handle = s.handle ∧ x.mirror then { x with uid := some u } else x }, u)

/-- Cut the extents of a range on the Catcher; references change by their own orders, and chunks without an index entry count
their extents. -/
def Head.cutRange (h : Head) (nsid s n : Nat) (new : List Extent) : Head :=
  h.modDp fun d =>
    let es := d.extents.flatMap (fun e => e.cut nsid s n) ++ new
    { d with extents := es
             chunks := d.chunks.map fun c => if c.indexed || c.released then c else
               { c with refcount := (es.filter (·.chunk == some c.uid)).length } }

/-- Execute a map update against this head's map (R245): the complete record. -/
def Head.execOrder (h : Head) (t : Troupe) (o : Order) : Head × OrderRec :=
  let r := orderRecord o
  match o.type with
  | 0x01 =>
    match h.hqe.ns? o.nsid with
    | none => (h, r.anomaly)
    | some ns =>
      if ns.troupe ≠ t ∨ ns.size < o.opA + o.opB + 1 then (h, r.anomaly)
      else
        let prior := ((h.dp.extentAt o.nsid o.start).map fun e => h.dp.locationOf e.chunk).getD 0
        let (h, u) := match h.dp.chunkAt t o.location with | some c => (h, c.uid) | none => h.learnChunk t o false
        (h.cutRange o.nsid o.start o.len
           [{ nsid := o.nsid, start := o.start, len := o.len, chunk := some u, offset := o.offset, apptag := o.apptag }],
         { r with result := o.apptag, prior := prior })
  | 0x02 => h.applyCount t o true
  | 0x03 => h.applyCount t o false
  | 0x04 =>
    let (h, u) := h.learnChunk t o true
    let fp := ((h.dp.chunk? u).map (·.fp)).getD []
    let h := h.when (h.farValid && o.flags / 4 % 2 == 0) fun h => (h.farInsert fp).1
    ((h.dirtyPage t (h.homePage t fp)).larderInsert fp, { r with result := o.logicalLen })
  | 0x05 =>
    match h.dp.chunkAt t o.location with
    | none => (h, r.anomaly)
    | some c =>
      let h := (h.deleteTags c).freeGroup c.stripe c.reducedLen
      let h := h.modChunk c.uid fun x => { x with released := true, indexed := false }
      (h.purgeReleased, { r with result := h.pty.freeOf c.stripe / 65536, prior := c.refcount })
  | 0x06 =>
    let h := h.learnStripe t o .committed
    (h.modDp fun d => { d with staged := d.staged.filter fun s => !(s.mirror && s.troupe == t &&
       ((s.uid.bind d.chunk?).map fun c => c.stripe == o.location % 2 ^ 48).getD false) }, r)
  | 0x07 => (h.learnStripe t o .voided, r)
  | 0x08 =>
    (h.modDp fun d => { d with extents := d.extents.map fun e =>
       if e.nsid = o.nsid ∧ e.start < (o.opA + o.opB + 1) * 4096 ∧ o.opA * 4096 < e.start + e.len ∧
          (e.chunk.bind d.chunk?).any (fun c => c.location == o.location) then { e with poisoned := true } else e }, r)
  | 0x09 =>
    match h.dp.chunkAt t o.start with
    | none => (h, r.anomaly)
    | some c =>
      (h.modChunk c.uid fun x => { x with stripe := o.location % 2 ^ 48, off64 := o.location / 2 ^ 48 },
       { r with result := (h.dp.extents.filter (·.chunk == some c.uid)).length, prior := c.location })
  | 0x0A =>
    match h.pty.groups.find? (·.id == o.opA) with
    | none => (h, r.anomaly)
    | some g =>
      let mdl := o.logicalLen
      let due := (h.mnd.rebuilds.flatMap (·.todo)).find? fun t => t.1 == g.id && t.2.1 == o.opB && t.2.2.1 == mdl
      let zone := (due.map (·.2.2.2)).getD (Config.groupZone g.id mdl)
      ((h.modGroup g.id fun x => { x with members := x.members.set o.opB (mdl, zone) }).takeOff
         fun x t => x.shelf == g.shelf && x.spareKind != 3 && t.1 == g.id && t.2.1 == o.opB,
       { r with result := mdl, prior := (g.members.getD o.opB (0, 0)).1 })
  | 0x0B => (h.modLdr fun l => { l with dirtyPages := l.dirtyPages.filter (· != (t, o.opA)) }, r)
  | 0x0C => (h.cutRange o.nsid (o.opA * 4096) ((o.opB + 1) * 4096) [], r)
  | _ => (h, r.anomaly)

/-- Execute an order and put its record into the open beat. -/
def Head.takeOrder (h : Head) (t : Troupe) (o : Order) : Head :=
  let (h, r) := h.execOrder t o
  h.modTrp t fun p => { p with openRecs := p.openRecs ++ [r], order := max p.order o.order }

/-- An order can be executed: its chunk is confirmed, and while joining its page has arrived (R257, R263). -/
def Head.orderReady (h : Head) (t : Troupe) (o : Order) : Bool :=
  let p := h.pair.trp t
  (o.type != 0x04 || o.key.all (· == 0) || (h.dp.mirrorFor t o).isSome) &&
    (p.state != 6 || p.pages.contains (Config.orderPage o.type o.nsid o.opA o.location))

/-- Execute the waiting orders that are ready, in ORDER sequence. -/
def Head.drainOrders (h : Head) (t : Troupe) : Nat → Head
  | 0 => h
  | n + 1 =>
    match (h.pair.trp t).waitingOrders with
    | [] => h
    | o :: rest =>
      if h.orderReady t o then
        ((h.modTrp t fun p => { p with waitingOrders := rest }).takeOrder t o).drainOrders t n
      else h

/-! ## Freezes (R249, R250) -/

/-- A troupe whose handover has passed its commit point is not frozen any more on the giving head. -/
def Trp.canFreeze (p : Trp) : Bool := p.state == 1 || (p.state == 5 && !((p.handover.map (·.committed)).getD false))

/-- The beats that a freeze at `b` redoes. -/
def Trp.frozenBeats (p : Trp) : List Beat := p.beats.filter fun b => decide (p.frozenBeat ≤ b.beat) && decide (b.beat ≤ p.frozenBeat + 1)

/-- Redo beats b and b + 1 from their records: the recomputed digests (R250 steps 1 to 3). -/
def Trp.redo (p : Trp) (t : Troupe) : List Bytes :=
  p.frozenBeats.map fun b => beatDigest t b.beat b.prev b.records

/-- The outcome code of R250, from the Flyer's and the Catcher's verdicts. -/
def freezeCode (flyer catcher : Bool) (ordersAgree redoneAgree : Bool) : Nat :=
  match flyer, catcher with
  | true, false => 1
  | false, true => 2
  | true, true => if ordersAgree then 4 else 3
  | false, false => if redoneAgree then 5 else 6

/-- The first beat edge at least `n` slots ahead. -/
def Head.edgeAfter (h : Head) (n : Nat) : Nat := ceilDiv (h.whl.slotCount + n) 16

/-- Decide the outcome once both verdicts are known. -/
def Head.decideFreeze (h : Head) (t : Troupe) (v : VerdictMsg) : Head :=
  let p := h.pair.trp t
  match p.verdictOk with
  | none => h.modTrp t fun x => { x with peerVerdict := some v }
  | some own =>
    let f := if p.role = 1 then own else v.ok
    let c := if p.role = 1 then v.ok else own
    let code := freezeCode f c (p.frozenBeats.map (·.orderDigest) == v.orderDigests) (p.redone == v.recomputed)
    h.modTrp t fun x => { x with outcome := code, outcomeBeat := h.edgeAfter 3, peerVerdict := none }

/-- Give the verdict of this head and send it; a verdict of the peer that came first decides. -/
def Head.giveVerdict (h : Head) (t : Troupe) : Head :=
  let p := h.pair.trp t
  let redone := p.redo t
  let ok := redone == p.frozenBeats.map (·.digest)
  let h := h.modTrp t fun x => { x with verdictOk := some ok, redone := redone }
  let h := h.emit (.verdict { troupe := t, ok := ok, recomputed := redone, orderDigests := p.frozenBeats.map (·.orderDigest) })
  match p.peerVerdict with
  | none => h
  | some v => h.decideFreeze t v

/-- Digests of beat `b` differ: the troupe freezes on this head (R249). The verdict follows once beat b + 1 has closed. -/
def Head.freeze (h : Head) (t : Troupe) (b : Nat) (own peer : Bytes) : Head :=
  let p := h.pair.trp t
  if !p.canFreeze then h
  else
    let h := h.when (p.role == 1) fun h => (h.sendMarker t).closeBeat t
    let h := h.modTrp t fun x => { x with state := 3, frozenBeat := b, verdictOk := none, redone := [], outcome := 0, outcomeBeat := 0 }
    let h := h.modPair fun q => { q with mismatch := q.mismatch + 1, lastTroupe := troupeBit t }
    let h := h.report 608 sevCritical (leBytes 1 (troupeBit t) ++ leBytes 8 b ++ own ++ peer)
    h.when (p.role == 1 || p.beats.any fun x => x.beat == b + 1) fun h => h.giveVerdict t

/-- The peer's commit digest of a beat against this head's own (R247). -/
def Head.compareBeat (h : Head) (t : Troupe) (beat : Nat) (d : Bytes) : Head :=
  match (h.pair.trp t).beats.find? (·.beat == beat) with
  | none => h.modTrp t fun p => { p with peerDigests := assocSet beat d p.peerDigests }
  | some b =>
    let h := h.modTrp t fun p => { p with peerDigests := p.peerDigests.filter (·.1 != beat) }
    if b.digest = d then (h.modTrp t fun p => { p with digestBeat := beat }).settleBeat t beat
    else h.freeze t beat b.digest d

/-- Send this head's digest of the beat just closed, and compare one that came early. -/
def Head.exchangeDigest (h : Head) (t : Troupe) (beat : Nat) : Head :=
  match (h.pair.trp t).beats.find? (·.beat == beat) with
  | none => h
  | some b =>
    let h := h.emit (.digest t beat b.digest)
    match (h.pair.trp t).peerDigests.find? (·.1 == beat) with
    | none => h
    | some (_, d) => h.compareBeat t beat d

/-- Close the beats whose Marker has come and whose orders have all been executed (R245): an order after the Marker's last one belongs to
the next beat. A closed beat is digested; in a freeze the verdict follows. -/
def Head.closeMarked (h : Head) (t : Troupe) : Nat → Head
  | 0 => h
  | n + 1 =>
    let p := h.pair.trp t
    match p.marks with
    | [] => h
    | (beat, last) :: rest =>
      if p.waitingOrders.any fun o => decide (o.order ≤ last) then h
      else
        let late := p.openRecs.filter fun r => decide (last < r.order)
        let h := (h.modTrp t fun x => { x with
          marks := rest, openBeat := beat, openRecs := x.openRecs.filter fun r => decide (r.order ≤ last) }).closeBeat t
        let h := h.modTrp t fun x => { x with openRecs := late }
        (if p.state = 3 then h.giveVerdict t else h.exchangeDigest t beat).closeMarked t n

/-- Execute the waiting orders that are ready, and close the beats that they complete. -/
def Head.followOrders (h : Head) (t : Troupe) : Head :=
  let h := h.drainOrders t (h.pair.trp t).waitingOrders.length
  h.closeMarked t (h.pair.trp t).marks.length

/-- Receive an order: it waits behind those before it. -/
def Head.receiveOrder (h : Head) (t : Troupe) (o : Order) : Head :=
  (h.modTrp t fun p => { p with waitingOrders := p.waitingOrders ++ [o] }).followOrders t

/-- Report the outcome of a freeze: source 610, its NOTICE record, LAST_OUTCOME. -/
def Head.reportOutcome (h : Head) (t : Troupe) (code : Nat) : Head :=
  let h := h.report 610 sevNotice (leBytes 1 (troupeBit t) ++ leBytes 8 (h.pair.trp t).frozenBeat ++ leBytes 1 code)
  (h.modPair fun p => { p with lastOutcome := code }).modTrp t fun x =>
    { x with outcome := 0, verdictOk := none, peerVerdict := none, redone := [] }

/-! ## The Baton (R252 to R254) -/

/-- Drop the HOLD line of a troupe. -/
def Head.dropHold (h : Head) (t : Troupe) : Head :=
  h.modPair fun p => { p with hold := setLine p.hold t false, confirmed := setLine p.confirmed t false }

/-- The keeper drives both HOLD lines low (R252). -/
def Head.keeperDrop (h : Head) : Head :=
  if h.pair.hold = 0 then h.modPair fun p => { p with keeperOk := false }
  else (h.modPair fun p => { p with hold := 0, confirmed := 0, keeperOk := false }).raise 624

/-- Step 1 of R253: the guard time begins. -/
def Head.startClaim (h : Head) (t : Troupe) : Head :=
  h.modTrp t fun p => { p with claiming := true, lostClaim := false, fallAt := h.now }

/-! ## Takeover (R257, R259) -/

/-- A Catcher, in step or stale, takes the troupe over when the line falls. -/
def Head.startTakeover (h : Head) (t : Troupe) (stale : Bool) : Head :=
  (h.setRole t (h.pair.trp t).role 4).startClaim t |>.modTrp t fun p => { p with replay := stale }

/-- Uncommitted stripes of a troupe in the journal entries this head holds. -/
def Head.awaited (h : Head) (t : Troupe) : List Jrn :=
  h.pty.journal.filter fun j => j.troupe == t && (j.kind == 1 || j.kind == 2) && !resolvedIn h.pty.journal j

/-- Steps 2 to 4 of R257: source 611; the last open beat closes with the orders executed so far, but for a stale copy, which the beat log
continues (R259); the masters' roles and the
journal entries pass; this head's own Flyer troupe goes to ALONE. -/
def Head.takeoverConfirmed (h : Head) (t : Troupe) : Head :=
  let h := (h.raise 611).modTrp t fun p => { p with confirmAt := h.now, waitingOrders := [] }
  let h := (h.closeMarked t (h.pair.trp t).marks.length).when (!(h.pair.trp t).replay) fun h => h.closeBeat t
  let h := h.modPair fun p => { p with
    fencing := p.fencing ++ ((h.awaited t).map fun j => (j.shelf, t)).dedup
    spareMaster := p.spareMaster || (p.peerRole.1 == 1) }
  let h := h.modPty fun p => { p with groups := p.groups.map fun g =>
    if g.troupe = t ∧ (h.awaited t).any (fun j => j.kind == 1 && j.group == g.id) then { g with fencing := true } else g }
  let o := otherTroupe t
  h.when ((h.pair.trp o).role == 1 && (h.pair.trp o).state == 1) fun h => h.alone o

/-- The mirror copies of a troupe become this head's own dirty staging; chunks whose stripe was never launched are placed again. -/
def Head.adopt (h : Head) (t : Troupe) : Head :=
  let h := h.modDp fun d => { d with
    staged := (d.staged.filter fun s => !(s.mirror && s.troupe == t && s.uid.isNone)).map fun s =>
      if s.mirror && s.troupe == t then { s with mirror := false, dirty := true } else s }
  let known := (h.awaited t).map (·.stripe)
  let lost := h.dp.staged.filter fun s => s.troupe == t && s.dirty &&
    ((s.uid.bind h.dp.chunk?).map fun c => !known.contains c.stripe && ((h.stripe? c.stripe).map (·.phase)) != some .committed) == some true
  h.forEach (lost.filterMap (·.uid)) Head.replaceChunk

/-- Step 5 of R257: Flyer, ALONE; source 612. -/
def Head.takeoverEnd (h : Head) (t : Troupe) : Head :=
  let h := h.modTrp t fun p => { p with
    claiming := false, replay := false, openBeat := h.whl.beat, openRecs := [], peerDigests := [], descriptors := [], handover := none }
  (((h.alone t).adopt t).raise 612).tellRoles

/-! ## Handover (R261, R262) -/

/-- The first edge a handover can take: at least 2 beats and 3 slots ahead. -/
def Head.handoverEdge (h : Head) : Nat := h.edgeAfter 35

/-- Fetched I/O commands of a troupe that have not completed. -/
def Head.troupeCtxs (h : Head) (t : Troupe) : List Ctx :=
  (h.hqe.ctxs ++ h.hqe.holdCtxs).filter fun c => !c.admin && c.inFlight && ((h.hqe.ns? c.cap.nsid).map (·.troupe)) == some t

/-- Start a handover of a troupe at beat T; refused unless the peer is an in-step Catcher (R261). -/
def Head.handOver (h : Head) (t : Troupe) (beat : Nat) (activation leaving : Bool) : Head :=
  let p := h.pair.trp t
  if p.role ≠ 1 ∨ p.state ≠ 1 ∨ p.handover.isSome ∨ !h.pair.icl then h
  else
    (h.modTrp t fun x => { x with handover := some { giving := true, beat := beat, activation := activation, leaving := leaving } }).emit
      (.control (.handover t beat (activation || leaving)))

/-- Hand a troupe to the peer at the first edge there is. -/
def Head.handAway (h : Head) (t : Troupe) (activation leaving : Bool) : Head := h.handOver t h.handoverEdge activation leaving

/-- The result of a handback: HB_RESULT and the completion of BATON HANDBACK. -/
def Head.handbackDone (h : Head) (x : Handover) (result : Nat) : Head :=
  let h := h.when x.viaReg fun h => h.modPair fun p => { p with hbBusy := false, hbResult := result }
  match x.ctx with
  | none => h
  | some n => h.withCtx n fun c => if c.inFlight then (if result = 1 then h.complete c stSuccess (x.beat % 2 ^ 32) else h.complete c stSequence 0) else h

/-- A handover is aborted (R261): the Flyer keeps the troupe, ALONE; source 625. -/
def Head.abortHandover (h : Head) (t : Troupe) : Head :=
  match (h.pair.trp t).handover with
  | none => h
  | some x =>
    let h := (h.modTrp t fun p => { p with handover := none }).handbackDone x 4
    let h := h.raise 625
    if x.giving then h.alone t else h

/-- Target beat from its low 32 bits (R229, R262). -/
def Head.targetBeat (h : Head) (low : Nat) : Nat := h.whl.beat + (low + 2 ^ 32 - h.whl.beat % 2 ^ 32) % 2 ^ 32

/-- Handback of a troupe to its home head (R262): 1 started, 2 sequence error, 3 target too near. -/
def Head.handback (h : Head) (t : Troupe) (target : Nat) (viaReg : Bool) (ctx : Option Nat) : Head × Nat :=
  let p := h.pair.trp t
  let mine := h.isHome t
  let homeFlies := if mine then p.role == 1 else (if t = .a then h.pair.peerRole.1 == 1 else h.pair.peerRole.2 == 1)
  let homeCatches := if mine then p.role == 2 else p.role == 1
  let ahead := (target + 2 ^ 32 - h.whl.beat % 2 ^ 32) % 2 ^ 32
  let beat := if target = 0 then h.handoverEdge else h.targetBeat target
  if homeFlies ∨ !homeCatches ∨ p.state ≠ 1 ∨ p.handover.isSome ∨ !h.pair.icl then (h, 2)
  else if target ≠ 0 ∧ (2 ^ 31 ≤ ahead ∨ beat < h.handoverEdge) then (h, 3)
  else
    ((h.modTrp t fun x => { x with handover := some { giving := p.role == 1, beat := beat, viaReg := viaReg, ctx := ctx } }).emit
      (.control (.handover t beat false)), 1)

/-! ## Resynchronisation (R263) -/

/-- A peer holds the troupe. -/
def Head.peerFlies (h : Head) (t : Troupe) : Bool := match t with | .a => h.pair.peerRole.1 == 1 | .b => h.pair.peerRole.2 == 1

/-- Bytes that a resync copies: dirty map pages of 4 KiB and dirty staging of the troupe. -/
def Head.resyncBytes (h : Head) (t : Troupe) : Nat :=
  (h.ldr.dirtyPages.filter (·.1 == t)).length * 4096 +
    ((h.dp.staged.filter fun s => s.troupe == t && s.dirty && !s.mirror).map (·.bytes.length)).sum

/-- Join as Catcher: this head's own copy of the map delta and staging is discarded; source 615. -/
def Head.joinTroupe (h : Head) (t : Troupe) : Head :=
  let h := h.modDp fun d => { d with staged := d.staged.filter (·.troupe != t) }
  let h := h.modLdr fun l => { l with dirtyPages := l.dirtyPages.filter (·.1 != t) }
  let h := h.modTrp t fun p => { p with
    openRecs := [], beats := [], peerDigests := [], waitingOrders := [], marks := [], pages := [], confirmedHandles := [], descriptors := [],
    joinAtEdge := false, claiming := false }
  ((h.setRole t 3 6).raise 615).tellRoles

/-- The Flyer starts the copy to a joining head. -/
def Head.startCopy (h : Head) (t : Troupe) : Head :=
  let n := h.resyncBytes t
  let h := h.modPair fun p => { p with resyncActive := true, resyncTroupe := t, resyncDone := 0, resyncTotal := n }
  let h := h.emit (.resyncCopy t n)
  let h := h.forEach (h.ldr.dirtyPages.filter (·.1 == t)) fun h (_, page) => h.emit (.control (.resyncPage t page))
  h.forEach (h.dp.staged.filter fun s => s.troupe == t && s.dirty && !s.mirror) fun h s => h.emit (.chunk t s.handle s.bytes s.guard)

/-- At the first beat edge after the copy the troupe is PAIRED; source 616. -/
def Head.joined (h : Head) (t : Troupe) : Head :=
  let p := h.pair.trp t
  if !p.joinAtEdge then h
  else
    let h := h.when (p.role == 1) fun h => h.emit (.digest t (p.openBeat - 1) p.prevDigest)
    let h := h.modTrp t fun x => { x with joinAtEdge := false, openBeat := h.whl.beat, blogUsed := if p.role = 1 then 0 else x.blogUsed }
    ((h.setRole t (if p.role = 1 then 1 else 2) 1).raise 616).tellRoles

/-! ## Pacing of the mirror (R5, R264) -/

/-- Payload rate of the Iclin link in bytes a beat: 803 GB/s at 64 lanes, in proportion to the good lanes. -/
def Head.iclBytes (h : Head) : Nat := 803000 * 256 * min 64 h.pair.lanes / 64

end Sys2Proof.Machine
end

