-- ==== Sys2Proof/Machine/StartOps.lean ====
section
/-!
DEFINITION. Stops and starts of the head: what survives, the choice and the verification of the boot image, what it loads, and the
claims at start (16_boot_trust_and_firmware.md R338 to R350; 13_power_states_and_wake.md R285; 11 R242; 10 R227, R229; 08 R180;
14 R313).
-/

namespace Sys2Proof.Machine

open Sys2Proof

def Head.modFwu (h : Head) (f : Fwu → Fwu) : Head := { h with fwu := f h.fwu }
def Head.modPwr (h : Head) (f : Pwr → Pwr) : Head := { h with pwr := f h.pwr }
def Head.modCel (h : Head) (f : Cel → Cel) : Head := { h with cel := f h.cel }
def Head.modCal (h : Head) (f : Cal → Cal) : Head := { h with cal := f h.cal }

/-- A record that has neither a source nor a code in R327: its CODE is not stated (log 7). -/
def Head.unlisted (h : Head) (sev : Nat) (payload : Bytes) : Head := h.enqueue sev 0xFFFF (Config.recordCode 0xFFFF sev) payload

/-! ## What survives a stop -/

/-- Slots with a key record are SEALED; their counters stand at the watermark (R129, R131). -/
def Stg.stopped (s : Stg) : Stg :=
  { owner := s.owner, lastSeq := s.lastSeq, alarmLatch := s.alarmLatch, ownerLock := s.ownerLock, sanPhase := s.sanPhase,
    sanGen := s.sanGen, sanStatus := s.sanStatus, salts := s.salts, map := s.map
    slots := s.slots.map fun x => if x.state = 0 then x else { x with state := 1, c := x.w } }

/-- Every block but the cellar loses its state. Kept are the cellar's records, what lies on flash, and the fuses; with `warm` (a
start from CAROUSEL) also DDR5 and the retained Larder banks (R285, R295, R348). -/
def Head.stopped (h : Head) (warm : Bool) : Head :=
  let keep (p : FaultPart) : Bool := p.cls == 9 || p.cls == 0xC
  { now := h.now, fuse := h.fuse,
    regs := h.regs.filter fun r => r.1 % 2 ^ 32 / 0x10000 == 1,
    atc := { h.atc with queue := [], readData := [], lastDropRaise := none },
    flt := { parts := h.flt.parts.filter keep
             spares := h.flt.spares.map fun s => if s.kind = 2 ∨ s.kind = 3 ∨ s.kind = 5 then { s with mode := 0, inUse := 0 } else s
             reduced := h.flt.reduced &&& 0b101001#6 },
    tsi := { retired := h.tsi.retired },
    hqe := { namespaces := h.hqe.namespaces, portsUp := h.hqe.portsUp, nextCtx := h.hqe.nextCtx },
    dp := { chunks := h.dp.chunks, extents := h.dp.extents, nextChunk := h.dp.nextChunk, nextUid := h.dp.nextUid,
            nextHandle := h.dp.nextHandle, nextTask := h.dp.nextTask, nextStream := h.dp.nextStream,
            staged := h.dp.staged.filter fun x => x.vaulted && !x.mirror },
    ldr := if warm then { larder := h.ldr.larder, curGen := h.ldr.curGen, far := h.ldr.far, stash := [] } else {},
    stg := h.stg.stopped,
    pty := { groups := h.pty.groups, nextGroup := h.pty.nextGroup, stripes := h.pty.stripes, nextStripe := h.pty.nextStripe,
             landing := h.pty.landing, journal := h.pty.journal, nextSeq := h.pty.nextSeq,
             copies := h.pty.copies.map fun c => (c.1, c.2.1, false) },
    mnd := { modules := h.mnd.modules, nextRebuild := h.mnd.nextRebuild, lastPatrol := h.mnd.lastPatrol, loss := h.mnd.loss,
             jrnEff := h.mnd.jrnEff, relocate := h.mnd.relocate, patrol := h.mnd.patrol, reduced := h.mnd.reduced,
             rebuilds := h.mnd.rebuilds.map fun r => { h.stopRebuild r with credit := 0, rate := 0 },
             reshape := { h.mnd.reshape with state := if h.mnd.reshape.state = 1 then 2 else h.mnd.reshape.state,
                                             inBatch := [], pauseAsked := false, abortAsked := false } },
    whl := { reserved := h.whl.reserved, cycle := h.whl.cycle, ptpBase := h.whl.ptpBase },
    cel := { h.cel with opSec := h.opNow, opAt := h.now },
    cal := { vault := h.cal.vault },
    fwu := { bctlA := h.fwu.bctlA, bctlB := h.fwu.bctlB, flash := h.fwu.flash, attMark := h.fwu.attMark, found := h.fwu.found },
    pins := { vin := h.pins.vin, vbak := h.pins.vbak, resetLow := h.pins.resetLow, tap := h.pins.tap, wakeAlert := h.pins.wakeAlert },
    pair := { see := h.pair.see },
    shf := { ports := h.shf.ports.map fun p => { p with retrain := 0, narrow := false } },
    out := h.out, free := h.free }

/-! ## The boot control block (R340) -/

/-- Write the older copy with the next SEQ. -/
def Head.putBctl (h : Head) (f : Bctl → Bctl) : Head :=
  let b := { f h.fwu.bctl with seq := h.fwu.bctl.seq + 1, ok := true }
  h.modFwu fun w =>
    if !w.bctlA.ok || (w.bctlB.ok && decide (w.bctlA.seq < w.bctlB.seq)) then { w with bctlA := b } else { w with bctlB := b }

def Bctl.isValid (b : Bctl) (slot : Nat) : Bool := b.valid.getLsbD slot
def Bctl.setValid (b : Bctl) (slot : Nat) (on : Bool) : Bctl :=
  let m := BitVec.ofNat 16 (2 ^ slot)
  { b with valid := if on then b.valid ||| m else b.valid &&& ~~~m }
def Bctl.setDigest (b : Bctl) (slot : Nat) (d : Bytes) : Bctl := if slot = 1 then { b with digest1 := d } else { b with digest2 := d }

/-! ## The boot image (R343, R346) -/

/-- The bytes programmed from the start of a slot without a gap, in 64 KiB sectors. -/
def slotBytes (f : Fwu) (slot : Nat) : Nat → Nat → Bytes
  | 0, _ => []
  | n + 1, i =>
    match f.flash.find? fun x => x.1 == slot && x.2.1 == i with
    | none => []
    | some (_, _, bs) => bs ++ slotBytes f slot n (i + 1)

/-- The image that a slot holds: LENGTH bytes of it (0 is the recovery region). -/
def Head.imageBytes (h : Head) (slot : Nat) : Bytes :=
  let bs := slotBytes h.fwu slot 2048 0
  bs.take (leAt 0x14 4 bs)

/-- Parse a boot image; none when it is malformed (code 0x1). -/
def parseBoot (bs : Bytes) : Option BootImage :=
  let ents := (List.range 5).map fun i =>
    let o := 0x40 + 48 * i
    (leAt o 1 bs, leAt (o + 4) 4 bs, leAt (o + 8) 4 bs, leAt (o + 12) 4 bs, slice (o + 16) 32 bs)
  let limit (ty : Nat) : Nat := match ty with | 1 => 0x4000000 | 2 => 0x100000 | 3 => 2048 | 4 => 0x800000 | _ => 0x1000000
  let good := leAt 0 4 bs == 0x544F4F42 && leAt 4 2 bs == 1 && leAt 0x29 1 bs == 5 && leAt 0x14 4 bs == bs.length &&
    ents.map (·.1) == [1, 2, 3, 4, 5] &&
    ents.all fun (ty, off, size, _, _) => off % 4096 == 0 && decide (size ≤ limit ty ∧ off + size ≤ bs.length) &&
      (ty != 3 || size == 2048)
  if !good then none
  else some
    { keyIndex := leAt 6 1 bs, svn := leAt 7 1 bs, part := leAt 8 2 bs, grades := leAt 0xA 1 bs, phases := leAt 0xB 1 bs,
      serial := BitVec.ofNat 64 (leAt 0xC 8 bs), length := leAt 0x14 4 bs, fwRev := slice 0x18 8 bs, pairIf := leAt 0x20 2 bs,
      pairIfMin := leAt 0x22 2 bs, bridgeIfMin := leAt 0x24 2 bs, bridgeIfMax := leAt 0x26 2 bs, revokeBelow := bitAt 0 (leAt 0x28 1 bs),
      dir := ents }

/-- A component's bytes. -/
def component (bs : Bytes) (i : BootImage) (ty : Nat) : Bytes :=
  match i.dir.find? (·.1 == ty) with
  | none => []
  | some (_, off, size, _, _) => slice off size bs

/-- The root of a key index, none when it is not blown. -/
def Fuse.root (f : Fuse) (k : Nat) : Option Bytes := (f.roots[k]?).map fun r => r.2.take 32

/-- The binding that a phase requires (R347). -/
def Head.bound (h : Head) (i : BootImage) (phase : Nat) : Bool :=
  let bit := match phase with | 0 => 0 | 1 => 1 | 2 => 2 | _ => 3
  i.part == 0x640 && bitAt (h.fuse.grade - 1) i.grades && bitAt bit i.phases &&
    (i.serial == h.fuse.serial || (phase == 0 && i.serial == 0))

/-- Verification of an image (R346): the code of the first check that fails, with the parsed image. -/
def Head.verifyBoot (h : Head) (bs root : Bytes) (phase : Nat) : Nat × Option BootImage :=
  match parseBoot bs with
  | none => (1, none)
  | some i =>
    if h.fuse.revoked.getLsbD i.keyIndex || (h.fuse.root i.keyIndex).isNone then (2, some i)
    else if i.svn < h.fuse.svnFloor then (3, some i)
    else if !h.bound i phase then (4, some i)
    else if h.fuse.root i.keyIndex ≠ some (root.take 32) then (5, some i)
    else if i.dir.any fun (ty, _, _, _, d) => sha3_256 (component bs i ty) != d then (6, some i)
    else (0, some i)

/-! ## Choosing the slot (R342) -/

/-- A choice of slot: slot, phase, whether it is the trial, whether it is a fallback. -/
structure BootChoice where
  slot : Nat
  phase : Nat
  trial : Bool := false
  fallback : Bool := false

/-- The choices in order. -/
def Head.bootChoices (h : Head) : List BootChoice :=
  let b := h.fwu.bctl
  let base := if h.fuse.mfgOpen then 2 else 0
  if !h.fwu.bctlA.ok ∧ !h.fwu.bctlB.ok then
    [{ slot := 1, phase := base }, { slot := 2, phase := base }, { slot := 0, phase := if h.fuse.mfgOpen then 2 else 1 }]
  else
    (if b.field ≠ 0 then [{ slot := b.field, phase := if h.fuse.mfgOpen then 2 else 3 }] else []) ++
    (if b.trial ≠ 0 ∧ b.attempts < 3 then [{ slot := b.trial, phase := base, trial := true }] else []) ++
    (if b.active ≠ 0 then [{ slot := b.active, phase := base }] else []) ++
    (([1, 2].filter fun s => b.isValid s && s != b.active && s != b.trial).map fun s => { slot := s, phase := base, fallback := true }) ++
    [{ slot := 0, phase := if h.fuse.mfgOpen then 2 else 1 }]

/-- Roll the trial back (R362): TRIAL is cleared, a CRITICAL record with the slot, FW_REV and the attempts, source 946. -/
def Head.rollBack (h : Head) : Head :=
  let b := h.fwu.bctl
  let rev := slice 0x18 8 (h.imageBytes b.trial)
  (h.putBctl fun x => { x with trial := 0, attempts := 0 }).report 946 sevCritical (leBytes 1 b.trial ++ fit 8 rev ++ leBytes 1 b.attempts)

/-- The booth microcode goes into every live site of the image's SITE section (R349). -/
def Head.loadMicrocode (h : Head) (s : Sections) : Head :=
  h.modTsi fun t => { t with microcode := (List.range h.sitesPresent).filter s.live }

/-- CRC of a coefficient bank holds (R307). -/
def bankOk (ws : List Word) : Bool := (crc32c (wordBytes (ws.take 511))) == ws.getD 511 0

/-- Load the components of a verified image (R349): microcode, coefficients with the first SWAP, and the Thiez image by LOAD,
CHECK and ARM. False when a check fails. -/
def Head.loadComponents (h : Head) (bs : Bytes) (i : BootImage) (thiezRoot : Bytes) : Head × Bool :=
  let image := parseImage (component bs i 4)
  let coef := leWords 512 (component bs i 3)
  let code := h.checkImage image thiezRoot
  if code.1 ≠ 0 ∨ !bankOk coef then (h.modTsi fun t => { t with check := code }, false)
  else
    let raw := h.merged image
    let h := h.loadMicrocode (parseSections raw)
    let h := (h.modCal fun c => { c with bankA := coef, bank := some 0 }).raise 816
    (h.modTsi fun t => { t with
       staging := some image, check := code, checked := some raw, state := 6
       armed := some { imageId := image.imageId, raw := raw, beat := h.firstEdge, pairScoped := true, derived := false,
                       affected := [] } }, true)

/-- Try one choice: TRIAL's attempts are counted before the copy and FIELD is cleared as it is read; a verification failure goes
to the next choice. -/
def Head.tryBoot (h : Head) (info : StartInfo) (c : BootChoice) : Head × Bool :=
  let h := if c.trial then h.putBctl fun b => { b with attempts := b.attempts + 1 } else h
  let bs := h.imageBytes c.slot
  let root := ((info.roots.find? (·.1 == c.slot)).map (·.2)).getD []
  let (code, img) := h.verifyBoot bs root c.phase
  let h := (h.modFwu fun f => { f with verifyCode := code }).when (code != 0) fun h => h.unlisted sevNotice (leBytes 1 c.slot ++ leBytes 1 code)
  match img with
  | none => (h, false)
  | some i =>
    if code ≠ 0 then (h, false)
    else
      match h.loadComponents bs i info.thiezRoot with
      | (h, false) => (h, false)
      | (h, true) =>
        let h := h.modFwu fun f => { f with
          phase := c.phase, booted := c.slot, fallback := c.fallback, trial := c.trial, image := some i, imageDigest := sha3_256 bs,
          running := true, startS := h.now, noImage := false, attIndex := f.attMark }
        (h.when c.fallback fun h => h.report 939 sevFault (leBytes 1 c.slot), true)

/-- Try the choices in order. -/
def Head.bootFrom (h : Head) (info : StartInfo) : List BootChoice → Head × Bool
  | [] => (h, false)
  | c :: cs =>
    match h.tryBoot info c with
    | (h, true) => (h, true)
    | (h, false) => h.bootFrom info cs

/-! ## Bridges, shelves and troupes at a start (R227, R242, R350) -/

/-- No head holds a troupe, as far as this head can tell. -/
def nobodyHolds (i : StartInfo) : Bool := i.peerHolds == []

/-- Bridge firmware against the image (R350): loads before any claim, pending bridges, or OUT. -/
def Head.checkBridges (h : Head) (info : StartInfo) : Head :=
  match h.fwu.image with
  | none => h
  | some img =>
    let want := ((img.dir.find? (·.1 == 5)).map (·.2.2.2.2)).getD []
    h.forEach info.bridges fun h (shelf, d, iface) =>
      let put (h : Head) (d : Bytes) (k : Nat) := h.modFwu fun f => { f with
        bridges := (shelf, d, iface, k) :: f.bridges.filter (·.1 != shelf) }
      if d = want then put h d 0
      else if nobodyHolds info then ((put h want 0).emit (.bridgeLoad shelf)).raise 947
      else if img.bridgeIfMin ≤ iface ∧ iface ≤ img.bridgeIfMax then put h d 1
      else (put h d 2).report 948 sevFault (leBytes 1 shelf ++ d)

/-- A bridge outside the range keeps the head out of both troupes. -/
def Head.bridgesOut (h : Head) : Bool := h.fwu.bridges.any (·.2.2.2 == 2)

/-- Shelves as the start finds them: those with rails on are OPEN, the others DARK; landing shelves wake first when no head
holds a troupe. -/
def Head.findShelves (h : Head) (info : StartInfo) : Head :=
  h.forEach h.shelvesOn fun h s =>
    if info.railsOn.contains s then h.modShelf s fun x => { x with state := 3, since := h.now, linked := true }
    else
      let h := h.modShelf s fun x => { x with state := 1, since := h.now }
      if h.landing s ∧ nobodyHolds info then
        match h.nextPower with
        | none => h
        | some n => h.armShelf s n 1
      else h

/-- Settle one journal entry without a commit record (steps 3 and 4 of R180): an append commits when every member zone has passed the
unit with good tags, else it is voided; an in-place write is written again from its payload. -/
def Head.settleEntry (h : Head) (t : Troupe) (programmed : List Nat) (j : Jrn) : Head :=
  if j.kind = 2 then
    let h := h.emits (j.payload.zipIdx.map fun (b, i) =>
      let role := if i = 0 then j.role else j.members - 3 + i
      .rowBlock j.shelf (j.modules.getD role 0) j.stripe j.row role b)
    h.writeJournal { j with kind := 3, payload := [], modules := [] }
  else
    let s : Stripe := (h.stripe? j.stripe).getD
      { number := j.stripe, troupe := t, geom := j.geom, k := j.members - 2, shelf := j.shelf, group := j.group, unit := j.unit,
        ring := j.ring, fill := j.fill }
    let h := h.when (h.stripe? j.stripe).isNone fun h => h.modPty fun p => { p with stripes := p.stripes ++ [s] }
    let s := { s with cycle := j.cycle, slot := j.slot }
    if programmed.contains j.stripe then h.commitStripe s else h.voidStripe s []

/-- Journal recovery of a troupe (R180). -/
def Head.recoverJournal (h : Head) (t : Troupe) (programmed : List Nat) : Head :=
  h.forEach (h.awaited t) fun h j => h.settleEntry t programmed j

/-- Stripes opened or closed but never launched held their chunks in staging only. -/
def Head.dropUnlaunched (h : Head) (t : Troupe) : Head :=
  let gone := (h.pty.stripes.filter fun s => s.troupe == t && s.phase != .committed && s.phase != .voided).map (·.number)
  h.modPty fun p => { p with stripes := p.stripes.filter fun s => !gone.contains s.number }

/-- Chunks of a troupe that lie neither in a committed stripe nor in staging are poisoned (R259). -/
def Head.poisonMissing (h : Head) (t : Troupe) : Head :=
  let missing := h.dp.chunks.filter fun c => c.troupe == t && !c.released && !c.poisoned && (h.dp.stagedCopy c.uid).isNone &&
    ((h.stripe? c.stripe).map (·.phase)) != some .committed
  h.forEach missing fun h c => h.poison c.uid

/-- Apply the vault of a troupe (R313): its chunks, kept since, are dirty staging, and its orders are replayed; source 813. A vault
without a header is discarded; source 820. -/
def Head.applyVault (h : Head) (t : Troupe) : Head :=
  match h.cal.vault with
  | none => h
  | some ([], _, _) => (h.modCal fun c => { c with vault := none }).raise 820
  | some (beats, handles, orders) =>
    if !beats.any (·.1 == troupeBit t) then h
    else
      let h := h.modTrp t fun p => { p with order := (orders.map (·.order)).foldl max p.order }
      let rest := beats.filter (·.1 != troupeBit t)
      (h.modCal fun c => { c with vault := if rest = [] then none else some (rest, handles, orders) }).raise 813

/-- The claim of a troupe at start has been confirmed: journal recovery, vault, then Flyer, ALONE (R242). -/
def Head.holdTroupe (h : Head) (t : Troupe) (programmed : List Nat) : Head :=
  let h := (h.recoverJournal t programmed).dropUnlaunched t
  let h := (h.applyVault t).poisonMissing t
  let h := h.modTrp t fun p => { p with claiming := false, openBeat := h.whl.beat, openRecs := [] }
  (h.alone t).tellRoles

/-- Claim the home troupe at start, once every landing shelf is awake, when the link is up or reported absent and the peer does not
hold it (R227, R242, R254). -/
def Head.claimHome (h : Head) : Head :=
  let t := ofBit h.headId
  let p := h.pair.trp t
  let waking := h.shelvesOn.any fun s => h.landing s && ((h.shf.shelf s).state == 1 || (h.shf.shelf s).state == 2)
  if waking ∨ h.fwu.phase ≠ 0 ∨ !h.fwu.running ∨ p.role ≠ 0 ∨ p.state ≠ 0 ∨ p.claiming ∨ !(h.pair.icl || h.pair.absent) ∨
     (h.pair.icl && (h.peerFlies t || (if t = .a then h.pair.peerState.1 == 4 else h.pair.peerState.2 == 4))) then h
  else h.startClaim t

/-- What a start raises of the time before it: an invalid calendar, retries and a failure of the wake, the sampler's crossing with its
readings, and of a shelf's, a stopped crystal, a thermal trip (R220, R294, R296, R297, R373, R378). -/
def Head.startReports (h : Head) : Head :=
  let h := h.when (!h.cel.calValid) fun h => h.raise 807
  let h := h.forEach (List.range h.cel.attempts) fun h _ => h.raise 803
  let h := h.when h.cel.failed fun h => (h.modCel fun c => { c with failed := false }).raise 804
  let h := h.when (h.cel.cause == 3) fun h =>
    let h := h.report 806 sevNotice (leBytes 2 h.cel.lastVin ++ leBytes 1 h.cel.lastDie ++ leBytes 1 h.cel.crossed.toNat)
    h.when (h.cel.crossed.getLsbD 3) fun h => h.raise 437
  let h := h.when h.cel.crystalStopped fun h => h.raise 824
  h.when (h.cel.tripped && !h.cel.tripRaised) fun h => (h.modCel fun c => { c with tripRaised := true }).raise 823

/-- Steps 1 to 8 of a start (R338): the Strongroom's keys of the start, the Wheel's counts, the boot image, its components, links,
bridges, shelves and claims; source 936 and the INFO record. -/
def Head.start (h : Head) (cause : Nat) (info : StartInfo) : Head :=
  let h := h.modFwu fun f => { f with found := some info }
  let h := h.modCel fun c => { c with cycles := c.cycles + 1, opAt := h.now, cause := if cause = 0 then c.cause else cause, vinLoss := false }
  let h := (h.modStg fun s => { s with ctxKey := h.freeBytes 32, erasing := decide (s.sanPhase ≠ 0) }).spend
  let h := { h with
    whl := { h.whl with cycle := h.whl.reserved, slot := 0, reserved := h.whl.reserved + 65536, slotAt := h.now, running := true }
    memc := { h.memc with dpc := info.dpc, dimmGib := info.dimmGib, chOk := if info.populationOk then info.channelsOk else 0 }
    pair := { h.pair with startAt := h.now, keeperOk := true,
                          see := info.peerHolds.foldl (fun v t => setLine v t true) h.pair.see
                          peerRole := (if info.peerHolds.contains .a then 1 else 0, if info.peerHolds.contains .b then 1 else 0)
                          lasting := decide (2 ≤ (h.flt.part 0xC 0).state) }
    pwr := { h.pwr with state := 0, pllLock := 0xF, onPll := !h.bit Adr.CEL_WAKE_CFG 0 } }
  let h := h.startReports
  let h := h.when (!h.fwu.bctlA.ok && !h.fwu.bctlB.ok) fun h => h.raise 938
  let b := h.fwu.bctl
  let h := h.when (decide (b.trial ≠ 0 ∧ 3 ≤ b.attempts)) Head.rollBack
  let choices := h.bootChoices
  let h := if b.field ≠ 0 then h.putBctl fun x => { x with field := 0 } else h
  match h.bootFrom info (if info.flashOk then choices else []) with
  | (h, false) =>
    let h := h.unlisted sevCritical []
    { h with
      fwu := { h.fwu with running := false, noImage := true }
      pwr := { h.pwr with state := 4 }
      pins := { h.pins with wakeAlert := true } }
  | (h, true) =>
    let h := h.when (!h.fwu.bctlA.ok && !h.fwu.bctlB.ok) fun h =>
      h.putBctl fun x => { (x.setValid h.fwu.booted true) with active := h.fwu.booted }
    let h := { h with pins := { h.pins with wakeAlert := false } }
    let h := (h.checkBridges info).findShelves info
    let h := if h.bridgesOut || h.pair.lasting then (h.setRole .a 0 7).setRole .b 0 7 else h.claimHome
    h.report 936 sevInfo (leBytes 1 h.fwu.booted ++ leBytes 1 h.fwu.phase ++ leBytes 1 cause)

/-- A firmware restart (R338): every domain but the cellar is held in reset, and the head finds outside what its last start
found (log 41). -/
def Head.restart (h : Head) (cause : Nat) : Head :=
  let info := h.fwu.found
  let h := (h.forEach (h.hqe.ctrls.map (·.cntlid)) Head.endController).stopped false
  match info with
  | none => h
  | some i => h.start cause i

end Sys2Proof.Machine
end

