-- ==== Sys2Proof/Machine/Faults.lean ====
section
/-!
DEFINITION. Fault windows and what a lasting fault leads to (15_faults_barker_attic.md R316 to R321; 02 R41 to R43; 10 R216, R217;
11 R251, R264; 12 R277, R279).
-/

namespace Sys2Proof.Machine

open Sys2Proof

/-! ## Fault windows -/

def Head.putPart (h : Head) (p : FaultPart) : Head :=
  h.modFlt fun f => { f with parts := p :: f.parts.filter fun x => !(x.cls == p.cls && x.part == p.part) }

/-- Change the STATE of an open fault (R336). -/
def Head.partState (h : Head) (cls part st : Nat) : Head := h.putPart { h.flt.part cls part with state := st }

/-- STAMP of now (R326): the operating-hours counter with the power-cycle count above it. -/
def Head.stamp (h : Head) : Nat := h.opNow % 2 ^ 40 + h.cel.cycles % 2 ^ 24 * 2 ^ 40

/-- A part that is fenced, off, spare or retired counts no more (R317). -/
def Head.partOut (h : Head) (cls part : Nat) : Bool :=
  match cls with
  | 1 => !h.live part
  | 2 => decide (8 < rawByte h.tsi.raw 3 part)
  | 3 => decide (3 ≤ ((h.tsi.sections.bank.map (·.1)).getD []).getD part 3)
  | 4 => h.memc.hbm.any fun s => s.stack == part / 32 && (s.mappedOut.contains (part % 32) || s.spareFor == part % 32 ||
      (part % 32 == 31 && !s.spareUsed))
  | 5 =>
    if part < 128 then h.shf.spareLanes.any (·.1 == some part)
    else match h.shf.spareLanes[part - 128]? with | some (some _, false) => false | _ => true
  | 6 =>
    if part < 64 then h.pair.spares.any (·.1 == part)
    else match h.pair.spares[part - 64]? with | some (l, failed) => l == 0x3F || failed | none => true
  | _ => false

/-! ## Booth sites (R41) -/

/-- Step 2 of R41: a decode in hand at a fenced site starts again on another live site of its ring; without one its command ends. -/
def Head.moveTask (h : Head) (t : Task) : Head :=
  let c := h.dp.chunk? t.uid
  let prog := match t.purpose with | .verify => 3 | _ => 2
  let h := h.dropStream 3 t.id
  match h.acceptStream 3 t.id (h.decodeSites ((c.map (·.domain)).getD 0) prog (some (t.site / 9)) [t.site]) with
  | (h, some s) =>
    let h := h.modTask t.id fun x => { x with site := s }
    if t.waiting.isSome then h else h.feedTask { t with site := s }
  | (h, none) =>
    let h := h.dropTask t.id
    match t.purpose with
    | .read n | .history n => h.withCtx n fun c => (h.complete c stInternal 0).dropTasks n
    | .compare k => match h.dp.pchunk? k with | none => h | some p => h.refute p true
    | .verify => h

/-- Step 3 of R41 for a Write whose data was lost: Internal Error, DNR clear. -/
def Head.loseWrite (h : Head) (n : Nat) : Head :=
  h.withCtx n fun c => if c.inFlight && !c.issued then (h.complete c stInternal 0).dropWrite n else h

/-- Fence a booth site: its decodes move, its Writes fail, its streams, leases and job end (R41, R117). -/
def Head.fenceSite (h : Head) (s : Nat) : Head :=
  let h := h.modTsi fun t => { t with fenced := t.fenced ++ [s], microcode := t.microcode.filter (· != s) }
  let h := h.forEach (h.dp.tasks.filter (·.site == s)) Head.moveTask
  let writes := h.hqe.ctxs.filter fun c => c.cap.opcode == opWrite && !c.admin && c.site == s && c.phase == .running
  let h := h.forEach writes fun h c => h.loseWrite c.id
  let h := h.forEach (h.cmp.segs.filter (·.site == s)) Head.endSeg
  let h := h.modStg fun g => { g with leases := g.leases.filter (·.site != s) }
  let h := h.when (h.cmp.job.state == 1 && h.cmp.job.site == s) fun h =>
    (h.modCmp fun c => { c with job := { c.job with state := 4, code := 0xB }, decErr := c.decErr.modify 0xA fun n => sat32 (n + 1) }).setFld
      Adr.CMP_JOB_STATUS 16 16 1
  h.modBooth s fun b => { b with streams := [], holder := none, stalled := false, outUsed := 0 }

/-- A lasting fault of a booth site: fence and substitute (R41), or RING SHORT (R43). -/
def Head.siteLasting (h : Head) (s : Nat) : Head :=
  let spare := freeSite h.tsi.baseRaw (s / 9)
  let h := (h.fenceSite s).substitute 1 s
  if spare.isSome then h else (h.partState 1 s 4).enterReduced 0 none (leBytes 1 s)

/-- A lasting fault of a ring lane (R42); a site left without four lanes is retired in turn (R43). -/
def Head.laneLasting (h : Head) (l : Nat) : Head :=
  let spare := freeLane h.tsi.baseRaw (l / 36)
  let h := h.substitute 2 l
  if spare.isSome then h else (h.partState 2 l 4).enterReduced 0 none (leBytes 1 (9 * (l / 36) + rawByte h.tsi.raw 3 l))

/-! ## SRAM banks (R42, R43, R92) -/

/-- The Larder bank, 0 to 23, that an SRAM bank serves (R90): the banks of function 1 in ascending order. -/
def Head.larderBankOf (h : Head) (b : Nat) : Option Nat :=
  let fs := (h.tsi.sections.bank.map (·.1)).getD []
  if fs.getD b 4 ≠ 1 then none else some ((List.range b).filter fun i => fs.getD i 4 == 1).length

/-- A Larder bank is lost (R92): its tags go, source 785. -/
def Head.loseLarderBank (h : Head) (i : Nat) : Head :=
  (h.modLdr fun l => { l with larder := l.larder.filter fun x => x.1 / 524288 != i, banksLost := min 0xFF (l.banksLost + 1) }).raise 785

/-- A lasting fault of an SRAM bank: a spare bank, the highest Pantry bank, a smaller Pantry, or nothing below its floor. -/
def Head.bankLasting (h : Head) (b : Nat) : Head :=
  let base := h.tsi.baseRaw
  let spare := (List.range 64).any fun i => rawByte base 7 (4 * i) == 3
  let pantry := ((List.range 64).filter fun i => rawByte base 7 (4 * i) == 0).length
  let h := match h.larderBankOf b with | some i => h.loseLarderBank i | none => h
  let h := if spare || decide (16 < pantry) then h.substitute 3 b else h
  if spare then h else (h.partState 3 b 4).enterReduced 3 none (leBytes 1 b)

/-! ## HBM pseudo-channels (R277, R279) -/

def Head.modMemc (h : Head) (f : Memc → Memc) : Head := { h with memc := f h.memc }
def Head.modStack (h : Head) (n : Nat) (f : Stack → Stack) : Head :=
  h.modMemc fun m => { m with hbm := m.hbm.map fun s => if s.stack = n then f s else s }

/-- Staging region in MiB that is left: each mapped-out pseudo-channel takes its share of the region on its stack (R267, R279). -/
def Head.stagingMib (h : Head) : Nat :=
  let rs := ((h.tsi.sections.bank.map (·.2)).getD []).filter (·.function == 0)
  (rs.map fun r =>
    let ss := (List.range 4).filter fun s => bitAt s r.stackMask
    let per := r.sizeMib / max 1 ss.length
    let out := (h.memc.hbm.filter fun s => ss.contains s.stack).map fun s => min per (per * s.mappedOut.length / 31)
    r.sizeMib - out.sum).sum

/-- The copy to a stack's spare pseudo-channel is done, or not needed: the spare takes the addresses, with source 743 (R277). -/
def Head.hbmSwapped (h : Head) (n : Nat) : Head :=
  match (h.memc.hbm.find? (·.stack == n)).bind (·.copying) with
  | none => h
  | some pc =>
    let h := h.modStack n fun s => { s with spareUsed := true, spareFor := pc, copying := none }
    ((h.raise 743).spareUsed 5).partState 4 (32 * n + pc) 3

/-- A lasting fault of a pseudo-channel: its copy to the stack's spare begins, or STAGING THIN with source 744. -/
def Head.hbmLasting (h : Head) (part : Nat) : Head :=
  let n := part / 32
  let pc := part % 32
  match h.memc.hbm.find? (·.stack == n) with
  | none => h
  | some s =>
    if !s.spareUsed ∧ s.copying.isNone then h.modStack n fun s => { s with copying := some pc }
    else
      let h := h.modStack n fun s => { s with mappedOut := s.mappedOut ++ [pc], copying := if s.copying = some pc then none else s.copying }
      let h := h.modMemc fun m => { m with dirtyLimitMib := min 16384 (h.stagingMib / 2) }
      (h.partState 4 part 4).enterReduced 4 (some 744) (leBytes 1 n ++ leBytes 1 pc)

/-! ## Back-end and Iclin lanes (R216, R217, R264) -/

/-- PORTS of `SHF_LANE_MAP_j`: the board wires spare lane `j` to a port. -/
def Head.laneWired (h : Head) (j port : Nat) : Bool := bitAt port (h.fld (0x1B0140 + 4 * j) 15 0)

def Head.modPort (h : Head) (n : Nat) (f : Port → Port) : Head :=
  h.modShf fun s => if s.ports.any (·.port == n) then { s with ports := s.ports.map fun p => if p.port = n then f p else p }
    else { s with ports := s.ports ++ [f { port := n }] }

/-- Replace a back-end lane by the lowest free spare wired to its port, or narrow the port. -/
def Head.swapLane (h : Head) (lane : Nat) : Head :=
  let port := lane / 8
  match (List.range 8).find? fun j => h.laneWired j port && h.shf.spareLanes[j]? == some (none, false) with
  | some j =>
    let h := h.modShf fun s => { s with spareLanes := s.spareLanes.set j (some lane, false) }
    let h := h.modPort port fun p => { p with spares := p.spares + 1, retrain := h.now + 30000 }
    ((h.partState 5 lane 3).report 432 sevNotice (leBytes 1 lane ++ leBytes 1 j)).spareUsed 2
  | none =>
    ((h.modPort port fun p => { p with narrow := true, retrain := h.now + 30000 }).partState 5 lane 4).enterReduced 1 (some 433)
      (leBytes 1 lane ++ leBytes 1 port)

/-- A lasting fault of a back-end lane; a spare in service that fails gives its lane back to the next one. -/
def Head.backLasting (h : Head) (lane : Nat) : Head :=
  if lane < 128 then h.swapLane lane
  else
    let j := lane - 128
    let old := (h.shf.spareLanes.getD j (none, false)).1
    let h := h.modShf fun s => { s with spareLanes := s.spareLanes.set j (none, true) }
    match old with
    | none => h
    | some l => (h.modPort (l / 8) fun p => { p with spares := p.spares - 1 }).swapLane l

/-- Replace an Iclin lane by the lowest free spare (source 622), or run on the good lanes (LINK NARROW, source 623). -/
def Head.swapIcl (h : Head) (lane : Nat) : Head :=
  match (List.range 4).find? fun j => h.pair.spares[j]? == some (0x3F, false) with
  | some j =>
    ((((h.modPair fun p => { p with spares := p.spares.set j (lane, false) }).partState 6 lane 3).raise 622).spareUsed 3)
  | none =>
    ((h.modPair fun p => { p with lanes := p.lanes - 1 }).partState 6 lane 4).enterReduced 2 (some 623) (leBytes 1 lane)

def Head.iclLasting (h : Head) (lane : Nat) : Head :=
  if lane < 64 then h.swapIcl lane
  else
    let j := lane - 64
    let old := (h.pair.spares.getD j (0x3F, false)).1
    let h := h.modPair fun p => { p with spares := p.spares.set j (0x3F, true) }
    if old = 0x3F then h else h.swapIcl old

/-! ## Zones, rails and domains (R319, R320) -/

/-- A lasting fault of a zone, which is position `part` mod 64 of zone group `part` / 64: a spare zone replaces it alone. -/
def Head.zoneLasting (h : Head) (part : Nat) : Head :=
  match h.pty.groups.find? (·.id == part / 64) with
  | none => h
  | some g =>
    let (mdl, zone) := g.members.getD (part % 64) (0, 0)
    match h.spareModule g.shelf [(g.id, part % 64)] with
    | some m =>
      (h.takeZones g.shelf [(g.id, part % 64, m.mdl, m.zones.headD 0)]).addRebuild g.shelf mdl false 1 [(g.id, part % 64, m.mdl, m.zones.headD 0)]
    | none =>
      match h.spareZone g [] with
      | some (m, z) =>
        ((h.takeZones g.shelf [(g.id, part % 64, m, z)]).addRebuild g.shelf mdl false 2 [(g.id, part % 64, m, z)]).zoneUsed
      | none => (h.modKind 7 fun x => { x with mode := 2 }).enterReduced 5 (some 569) (leBytes 1 g.shelf ++ leBytes 1 mdl ++ leBytes 2 zone)

/-- A lasting fault of a rail: a CRITICAL record, and every Flyer troupe goes to the peer. -/
def Head.railLasting (h : Head) (rail : Nat) : Head :=
  let h := h.unlisted sevCritical (leBytes 1 rail)
  h.forEach [Troupe.a, .b] fun h t => h.handAway t false false

/-- What a lasting fault of a class leads to, power domains apart. -/
def Head.lastingEffect (h : Head) (cls part : Nat) : Head :=
  match cls with
  | 1 => h.siteLasting part
  | 2 => h.laneLasting part
  | 3 => h.bankLasting part
  | 4 => h.hbmLasting part
  | 5 => h.backLasting part
  | 6 => h.iclLasting part
  | 8 => h.zoneLasting part
  | 9 => h.railLasting part
  | 0xC => h.modPair fun p => { p with lasting := true }
  | _ => h

/-- A fault has become lasting (R317): source 992 and the FAULT record, then its effect. -/
def Head.becomeLasting (h : Head) (cls part n : Nat) : Head :=
  ((h.partState cls part 2).report 992 sevFault
    (leBytes 1 cls ++ leBytes 2 part ++ leBytes 2 n ++ leBytes 2 (h.windowH cls))).lastingEffect cls part

/-- A part of another class that a power domain serves (R320): its class and parts. -/
def domainParts (d : Nat) : Option (Nat × List Nat) :=
  if d < 36 then some (1, [d])
  else if 40 ≤ d ∧ d < 104 then some (3, [d - 40])
  else if 112 ≤ d ∧ d < 128 then some (5, (List.range 8).map (8 * (d - 112) + ·))
  else if d = 140 then some (6, List.range 64)
  else none

/-- A lasting fault of a power domain: that of the part it serves, at once, or a CRITICAL record. -/
def Head.domainLasting (h : Head) (d : Nat) : Head :=
  match domainParts d with
  | some (cls, ps) => h.forEach ps fun h p =>
      if h.partOut cls p || decide (2 ≤ (h.flt.part cls p).state) then h else h.becomeLasting cls p 1
  | none => h.unlisted sevCritical (leBytes 1 d)

/-- Classes that keep 256 counts of a part (R316). -/
def deepClass (cls : Nat) : Bool := cls == 2 || cls == 4 || cls == 0xB

/-- Count a fault of a part (R316): source 1001 (and 8n for booth site n, R322), and the lasting fault when the window is full or the count is at once. -/
def Head.countFault (h : Head) (cls part : Nat) (atOnce : Bool) : Head :=
  if h.partOut cls part || decide (2 ≤ (h.flt.part cls part).state) then h
  else
    let p := h.flt.part cls part
    let times := (h.opNow :: p.times).take (if deepClass cls then 256 else 15)
    let n := (h.inWindow (h.windowH cls) times).length
    let h := (h.putPart { p with times := times, state := 1, last := h.stamp }).raise 1001
    let h := h.when (cls == 1) (·.raise (8 * part))
    if atOnce || decide (h.thresh cls ≤ n) then
      let h := h.becomeLasting cls part n
      if cls = 0xA then h.domainLasting part else h
    else h

/-- A count of any class, of modules too (R188): a module's count is one of media errors, and at once it is declared
FAILED. A pseudo-channel that has stopped answering is replaced at once (R277). -/
def Head.countAny (h : Head) (cls part : Nat) (atOnce : Bool) : Head :=
  if cls = 7 then
    if atOnce then h.declareModule (part / 64) (part % 64) false 4 0 else h.countModule (part / 64) (part % 64) 1
  else
    let h := h.countFault cls part atOnce
    if cls = 4 ∧ atOnce ∧ (h.memc.hbm.find? (·.stack == part / 32)).bind (·.copying) = some (part % 32) then h.hbmSwapped (part / 32) else h

/-! ## A head declared faulty (R251) -/

/-- Troupes for which this head is Flyer. -/
def Head.flown (h : Head) : List Troupe := [Troupe.a, .b].filter fun t => h.flies t

/-- Handovers that this head gives and that have not ended. -/
def Head.giving (h : Head) : Bool :=
  [Troupe.a, .b].any fun t => ((h.pair.trp t).handover.map (·.giving)).getD false

/-- Restart now, or when the handovers end. -/
def Head.restartSoon (h : Head) : Head :=
  if h.giving then h.modFwu fun f => { f with restartDue := true } else h.restart 0

/-- Leave both troupes: source 609 with a CRITICAL record of CODE 0x0001; unfrozen troupes are handed over; the head restarts. -/
def Head.leavePair (h : Head) : Head :=
  let h := (h.raise 609).enqueue sevCritical 609 1 (leBytes 1 (h.flown.map fun t => 2 ^ troupeBit t).sum)
  let h := h.forEach h.flown fun h t => h.handAway t false true
  h.restartSoon

/-- A LASTING head that still holds troupes (codes 0x5 and 0x6): it leaves when the peer is an in-step Catcher of each, else it keeps
them, with source 609 and a CRITICAL record of CODE 0x0002. -/
def Head.lastingHolder (h : Head) : Head :=
  if !h.pair.lasting ∨ h.flown = [] then h
  else if h.pair.icl && h.flown.all fun t => (h.pair.trp t).state == 1 then h.leavePair
  else (h.raise 609).enqueue sevCritical 609 2 (leBytes 1 (h.flown.map fun t => 2 ^ troupeBit t).sum)

end Sys2Proof.Machine
end

