-- ==== Sys2Proof/Machine/HostQueue.lean ====
section
/-!
DEFINITION. Commands of the host queue engine: acceptance, fetch, the fence, connections and controller properties
(03_host_queues_and_ordering.md R50 to R54, R58, R64 to R66, R72, R78 to R80, R380).
-/

namespace Sys2Proof.Machine

open Sys2Proof

/-! ## Acceptance and in-capsule slots (R51, R65) -/

/-- Take an entry into a submission queue buffer with the next arrival number. -/
def Head.takeEntry (h : Head) (c s : Nat) (cap : Capsule) : Head :=
  let n := h.hqe.nextArrival
  let h := h.modQpair c s fun q => { q with entries := q.entries ++ [⟨cap, n⟩] }
  h.modHqe fun q => { q with nextArrival := n + 1 }

/-- Take an in-capsule slot of the port; the port's last slot raises source 304. -/
def Head.takeSlot (h : Head) (port c s : Nat) : Head :=
  let used := assocGet port 0 h.hqe.portSlots + 1
  let h := h.modHqe fun q => { q with portSlots := assocSet port used q.portSlots }
  let h := h.modQpair c s fun q => { q with slots := q.slots + 1 }
  h.when (used == 1024) fun h => h.raise 304

/-- A queue pair may take an in-capsule slot: at most 8 of its own and 1,024 of the port. -/
def Head.slotFree (h : Head) (q : QPair) : Bool := decide (q.slots < 8 ∧ assocGet q.port 0 h.hqe.portSlots < 1024)

/-- Ports accept no capsule once a power-state entry has begun its ports step (R78). -/
def Head.portsOpen (h : Head) : Bool := h.cal.flush != 1 && !((h.pwr.entry.map (·.portsDown)).getD false)

/-- Accept a capsule, or hold it back for a slot or a full buffer. -/
def Head.acceptCapsule (h : Head) (c s : Nat) (cap : Capsule) : Head :=
  match h.hqe.qpair? c s with
  | none => h
  | some q =>
    if !h.portsOpen then h
    else if q.size ≤ q.entries.length then h.emit (.heldBack c s)
    else match cap.inCapsule with
      | none => h.takeEntry c s cap
      | some _ =>
        if h.slotFree q ∧ q.heldBack = [] then (h.takeSlot q.port c s).takeEntry c s cap
        else (h.modQpair c s fun q => { q with heldBack := q.heldBack ++ [cap] }).emit (.heldBack c s)

/-- CAPSULE_ACCEPT (R65, R51). -/
def execCapsuleAccept (cntlid qid : Nat) (c : Capsule) (s : State) : Host.Outcome State Fault Refusal :=
  .next { s with head := s.head.acceptCapsule cntlid qid c }

/-- The first queue pair of a port that holds a capsule back and may take a slot now. -/
def Head.heldQueue (h : Head) (port : Nat) : Option QPair :=
  h.hqe.qpairs.find? fun q => q.port == port && decide (q.heldBack ≠ []) && h.slotFree q && decide (q.entries.length < q.size)

/-- A port accepts a capsule that it had held back (R51). -/
def Head.acceptHeld (h : Head) (port : Nat) : Head :=
  match if h.portsOpen then h.heldQueue port else none with
  | none => h
  | some q =>
    match q.heldBack with
    | [] => h
    | cap :: rest =>
      let h := h.modQpair q.cntlid q.qid fun q => { q with heldBack := rest }
      (h.takeSlot port q.cntlid q.qid).takeEntry q.cntlid q.qid cap

/-- IN_CAPSULE_SLOT_FREED (R51). -/
def execInCapsuleSlotFreed (port : Nat) (s : State) : Host.Outcome State Fault Refusal :=
  .next { s with head := s.head.acceptHeld port }

/-! ## Fetch (R54, R66) -/

/-- A controller that may have its I/O queues fetched: CC.EN 1 and no reset or shutdown in progress. -/
def Ctrl.enabled (c : Ctrl) : Bool := c.cc.getLsbD 0 && c.resetting.isNone

/-- An entry of an I/O queue that may be fetched now: Writes wait under pacing, and an activation stops the fetch for a troupe that it
closes (16 R358). -/
def Head.fetchable (h : Head) (e : Entry) : Bool :=
  !(e.cap.opcode == opWrite && h.paced) &&
    !(h.fwu.activating && (((h.hqe.ns? e.cap.nsid).map fun n => (h.pair.trp n.troupe).closing)).getD false)

/-- Candidates of a fetch: queue and entry. -/
abbrev Pick := QPair × Entry

/-- The oldest entry of the admin queues. -/
def Head.pickAdmin (h : Head) : Option Pick :=
  (h.hqe.qpairs.filter (·.qid == 0)).foldl (fun best q => match q.entries with
    | [] => best
    | e :: _ => match best with
      | none => some (q, e)
      | some (b, f) => if e.arrival < f.arrival then some (q, e) else some (b, f)) none

/-- I/O queues that R54 serves; none in HOLD (14 R303). -/
def Head.servable (h : Head) (q : QPair) : Bool :=
  q.qid != 0 && q.frozen.isNone && decide (h.pwr.level < 3) && ((h.hqe.ctrl? q.cntlid).map (·.enabled)).getD false

/-- R66: an older unfetched command that a fetched one at the fence waits for. -/
def Head.pickFence (h : Head) : Option Pick :=
  let waiting := h.hqe.ctxs.filter (·.phase == .fence)
  (h.hqe.qpairs.filter h.servable).findSome? fun q =>
    (q.entries.find? fun e => waiting.any fun c => fenceHeldUnfetched c e).map fun e => (q, e)

/-- Order of queues for the round robin: by controller, then queue. -/
def queueBefore (a b : Nat × Nat) : Bool := decide (a.1 < b.1 ∨ (a.1 = b.1 ∧ a.2 < b.2))

/-- The first queue in order of a list. -/
def firstQueue (l : List QPair) : Option QPair :=
  l.foldl (fun best q => match best with
    | none => some q
    | some b => if queueBefore (q.cntlid, q.qid) (b.cntlid, b.qid) then some q else some b) none

/-- Round robin: the queue after the last one served, else the first; one command per turn. -/
def Head.pickRound (h : Head) : Option Pick :=
  let l := h.hqe.qpairs.filter fun q => h.servable q && (q.entries.head?.map h.fetchable).getD false
  let after := l.filter fun q => queueBefore h.hqe.lastServed (q.cntlid, q.qid)
  (match firstQueue after with | some q => some q | none => firstQueue l).bind fun q => q.entries.head?.map fun e => (q, e)

/-- What COMMAND_FETCH takes: admin queues first, then R66, then the round robin. -/
def Head.pick (h : Head) : Option Pick := h.pickAdmin <|> h.pickFence <|> h.pickRound

/-- A context is free for a command: ADMIN_RESERVE × 16 contexts serve admin commands alone. -/
def Head.ctxFree (h : Head) (admin : Bool) : Bool :=
  let n := h.hqe.ctxs.length
  if admin then decide (n < 16384) else decide (n + h.fld Adr.HQE_CFG 7 0 * 16 < 16384)

/-- Ranges checked at fetch: those of a Dataset Management command that are known (R63). -/
def checkRanges (c : Capsule) : List (Nat × Nat) :=
  if c.opcode = opDsm ∧ (c.inCapsule = none ∨ !c.isWriter) then [] else capsuleRanges c

/-- The Fabrics command type of a capsule: byte 4. -/
def fctype (c : Capsule) : Nat := c.nsid % 256

/-- Fabrics commands that the head supports (R55): Property Set, Connect, Property Get, Authentication Send and Receive, Disconnect. -/
def fabricsType (t : Nat) : Bool := t == 0x00 || t == 0x01 || t == 0x04 || t == 0x05 || t == 0x06 || t == 0x08

/-- Run the checks of R380 on a fetched I/O command and let it proceed, wait at the fence, or complete it. -/
def Head.admitCmd (h : Head) (n : Nat) : Head :=
  h.withCtx n fun c =>
    if c.admin then
      (if !adminOpcode c.cap.opcode || (c.cap.opcode == 0x7F && !fabricsType (fctype c.cap)) then h.complete c stInvalidOpcode 0
       else h.modCtx n fun x => { x with phase := .ready })
    else match h.ioRefusal c.cap (checkRanges c.cap) with
      | some (st, dw0) => h.complete c st dw0
      | none =>
        if h.mustWait c && !(c.cap.opcode == opDsm && c.cap.inCapsule.isNone) then h.modCtx n fun x => { x with phase := .fence }
        else h.modCtx n fun x => { x with phase := .ready }

/-- Put a fetched command into a context. A command that reaches the head during a power-state entry is held (R79), and a
second ENTER POWER STATE is refused (R78). -/
def Head.placeCtx (h : Head) (q : QPair) (e : Entry) (admin stage : Bool) : Head :=
  let n := h.hqe.nextCtx
  let held := ((h.pwr.entry.bind (·.ctx))).isSome && !(admin && (e.cap.opcode == 0x18 || e.cap.opcode == 0x0C))
  let c : Ctx := { id := n, cntlid := q.cntlid, qid := q.qid, cap := e.cap, arrival := e.arrival, admin := admin,
                   phase := .ready, at_ := h.now, ranges := if admin then [] else capsuleRanges e.cap }
  let h := h.modHqe fun t =>
    let t := { t with nextCtx := n + 1, lastIo := if admin then t.lastIo else h.now }
    if stage then { t with holdCtxs := t.holdCtxs ++ [c] }
    else { t with ctxs := t.ctxs ++ [c], peakCtxs := max t.peakCtxs (t.ctxs.length + 1) }
  let h := h.when (!stage && h.hqe.ctxs.length == 16384) fun h =>
    (h.modHqe fun t => { t with poolFull := true }).raise 298
  if held then
    (if admin ∧ e.cap.opcode = 0xC7 then h.complete c stSequence 0
     else h.modCtx n fun x => { x with phase := .held, powerHeld := true })
  else h.admitCmd n

/-- Take a picked entry out of its buffer. -/
def Head.unqueue (h : Head) (q : QPair) (e : Entry) (round : Bool) : Head :=
  let h := h.modQpair q.cntlid q.qid fun q =>
    { q with entries := q.entries.filter (·.arrival != e.arrival), sqhd := (q.sqhd + 1) % q.size }
  h.when round fun h => h.modHqe fun t => { t with lastServed := (q.cntlid, q.qid) }

/-- COMMAND_FETCH: fetch the next command into a free context; STAGE-IN takes a hold context, and completes with Command
Interrupted when none is free (R50, R54, R68). -/
def Head.fetch (h : Head) : Head :=
  match h.pick with
  | none => h
  | some (q, e) =>
    let admin := q.qid == 0
    let stage := !admin && e.cap.opcode == opStageIn
    if stage then
      let h := h.unqueue q e true
      if h.hqe.holdCtxs.length < 1024 then h.placeCtx q e false true
      else h.emit (.completion q.cntlid q.qid e.cap.cid stInterrupted 0 false ((q.sqhd + 1) % q.size))
    else if h.ctxFree admin then (h.unqueue q e (!admin)).placeCtx q e admin false
    else h

/-- COMMAND_FETCH (R54). -/
def execCommandFetch (s : State) : Host.Outcome State Fault Refusal := .next { s with head := s.head.fetch }

/-- An ended command's context returns to its pool (R54). -/
def Head.freeCtx (h : Head) (n : Nat) : Head :=
  h.withCtx n fun c =>
    if c.inFlight then h
    else h.modHqe fun q => { q with
      ctxs := q.ctxs.filter (·.id != n), holdCtxs := q.holdCtxs.filter (·.id != n), poolFull := false }

/-- COMMAND_CONTEXT_FREED (R54). -/
def execCommandContextFreed (ctx : Nat) (s : State) : Host.Outcome State Fault Refusal :=
  .next { s with head := s.head.freeCtx ctx }

/-- A command at the fence proceeds once no older overlapping command holds it; the checks of R380 run again (R72). -/
def Head.release (h : Head) (n : Nat) : Head :=
  h.withCtx n fun c => if c.phase = .fence ∧ !h.mustWait c then h.admitCmd n else h

/-- FENCE_RELEASE (R65). -/
def execFenceRelease (ctx : Nat) (s : State) : Host.Outcome State Fault Refusal :=
  .next { s with head := s.head.release ctx }

/-! ## Transfer errors and loss of connections (R53, R64) -/

/-- A connection ends: the controller when it is the admin connection, else the queue pair. -/
def Head.loseConnection (h : Head) (c s : Nat) : Head :=
  if s = 0 then h.endController c else h.endQueue c s

/-- Source 299 with the port, the CNTLID and the queue identifier. -/
def Head.transferError (h : Head) (c s : Nat) : Head :=
  let port := ((h.hqe.qpair? c s).map (·.port)).getD 0
  h.report 299 sevNotice (leBytes 1 port ++ leBytes 2 c ++ leBytes 2 s)

/-- RDMA_TRANSFER_ERROR (R64). -/
def execRdmaTransferError (cntlid qid : Nat) (s : State) : Host.Outcome State Fault Refusal :=
  .next { s with head :=
    let h := s.head
    if (h.hqe.qpair? cntlid qid).isSome then
      ((h.transferError cntlid qid).emit (.closed cntlid qid)).loseConnection cntlid qid
    else h }

/-- TRANSPORT_LOSS (R53). -/
def execTransportLoss (cntlid qid : Nat) (s : State) : Host.Outcome State Fault Refusal :=
  .next { s with head := s.head.loseConnection cntlid qid }

/-- The keep-alive timer in ms: KATO rounded up to a multiple of 100 ms, plus 100 ms (R53). -/
def kaLimit (kato : Nat) : Nat := ceilDiv kato 100 * 100 + 100

/-- KEEP_ALIVE_EXPIRY (R53): the timer has run its time. -/
def execKeepAliveExpiry (cntlid : Nat) (s : State) : Host.Outcome State Fault Refusal :=
  .next { s with head :=
    let h := s.head
    match h.hqe.ctrl? cntlid with
    | none => h
    | some c => if c.kato ≠ 0 ∧ c.kaStart + kaLimit c.kato * 1000 ≤ h.now then h.endController cntlid else h }

/-! ## Connect and Disconnect (R50, R52, R53) -/

/-- CNTLIDs not in use; which one a Connect takes is not stated (log 7). -/
def Head.freeCntlids (h : Head) : List Nat :=
  ((List.range 1024).map (· + 1)).filter fun n => !(h.hqe.ctrls.any (·.cntlid == n))

def Head.connectReply (h : Head) (c : ConnectCmd) (st : Status) (n : Nat) : Head := h.emit (.connectReply c.port c.cid st n)

/-- Add a queue pair; traffic on its port shows the port's link (DEDUCED). -/
def Head.addQpair (h : Head) (c : ConnectCmd) (n : Nat) : Head :=
  h.modHqe fun q => { q with portsUp := q.portsUp ||| BitVec.ofNat 8 (2 ^ c.port), qpairs := q.qpairs ++
    [{ cntlid := n, qid := c.qid, port := c.port, transport := c.transport, size := c.sqsize + 1 }] }

/-- A Connect to the admin queue creates a controller. -/
def Head.connectAdmin (h : Head) (c : ConnectCmd) : Head :=
  if 31 < c.sqsize ∨ (!c.discovery ∧ c.kato = 0) then h.connectReply c stConnectInvalid 0
  else
    let free := h.freeCntlids
    if free = [] ∨ 4096 ≤ h.hqe.qpairs.length then (h.connectReply c stConnectBusy 0).raise 302
    else
      let n := free.getD (h.freeNat % free.length) 0
      let h := h.spend
      let k : Ctrl := { cntlid := n, discovery := c.discovery, port := c.port, transport := c.transport,
                        hostNqn := c.hostNqn, kato := c.kato, kaStart := h.now }
      let h := h.modHqe fun q => { q with ctrls := q.ctrls ++ [k], peakCtrls := max q.peakCtrls (q.ctrls.length + 1) }
      (h.addQpair c n).connectReply c stSuccess n

/-- MAX_IOQ, 1 to 255. -/
def Head.maxIoq (h : Head) : Nat := orIfZero 1 (h.fld Adr.HQE_CFG 23 16)

/-- I/O queues granted to a controller, an upper bound (R52); MAX_IOQ bounds them until Number of Queues is set. -/
def Head.ioqs (h : Head) (k : Ctrl) : Nat := if k.queues = 0 then h.maxIoq else min k.queues h.maxIoq

/-- A Connect to an I/O queue of a controller. -/
def Head.connectIo (h : Head) (c : ConnectCmd) : Head :=
  match h.hqe.ctrl? c.cntlid with
  | none => h.connectReply c stConnectInvalid 0
  | some k =>
    if k.discovery ∨ 1023 < c.sqsize ∨ h.ioqs k < c.qid ∨ (h.hqe.qpair? c.cntlid c.qid).isSome then
      h.connectReply c stConnectInvalid 0
    else if 4096 ≤ h.hqe.qpairs.length then (h.connectReply c stConnectBusy 0).raise 302
    else (h.addQpair c c.cntlid).connectReply c stSuccess c.cntlid

/-- CONNECT (R52). -/
def execConnect (c : ConnectCmd) (s : State) : Host.Outcome State Fault Refusal :=
  .next { s with head :=
    let h := s.head
    if !h.portsOpen then h else if c.qid = 0 then h.connectAdmin c else h.connectIo c }

/-- DISCONNECT (R53). -/
def execDisconnect (cntlid qid cid : Nat) (s : State) : Host.Outcome State Fault Refusal :=
  .next { s with head :=
    let h := s.head
    match h.hqe.qpair? cntlid qid with
    | none => h
    | some q => (h.emit (.completion cntlid qid cid stSuccess 0 false q.sqhd)).loseConnection cntlid qid }

/-! ## Properties (R58, R80) -/

/-- A Fabrics command whose context is ready. -/
def Head.fabrics (h : Head) (n ty : Nat) (f : Ctx → Head) : Head :=
  h.ready n true 0x7F fun c => if fctype c.cap = ty then f c else h

/-- Start a controller reset or a shutdown: unfetched commands are discarded, fetched ones take their fates, and an ENTER POWER
STATE entry of the controller is reversed without a reply. -/
def Head.startReset (h : Head) (n : Nat) (shutdown : Bool) : Head :=
  let entryCtx := (h.pwr.entry.bind (·.ctx)).bind h.hqe.ctx?
  let h := h.forEach (h.hqe.qpairs.filter fun q => q.cntlid == n) fun h q =>
    (h.freeSlots n q.qid q.slots).modQpair n q.qid fun q => { q with entries := [], heldBack := [] }
  let h := h.forEach ((h.hqe.ctxs ++ h.hqe.holdCtxs).filter (·.cntlid == n)) Head.endCommand
  let h := h.modCtrl n fun c => { c with
    resetting := some shutdown, aers := []
    csts := if shutdown then (c.csts &&& ~~~0xC#32) ||| 0x4#32 else c.csts }
  let h := h.closeDownload n
  h.when ((entryCtx.map (·.cntlid)) == some n) Head.reverseEntry

/-- A write of CC. -/
def Head.writeCc (h : Head) (n : Nat) (v : Word) : Head :=
  match h.hqe.ctrl? n with
  | none => h
  | some k =>
    let was := k.cc
    let h := h.modCtrl n fun c => { c with cc := v }
    if was.getLsbD 0 ∧ !v.getLsbD 0 then h.startReset n false
    else if bits 15 14 v.toNat ≠ 0 ∧ bits 15 14 was.toNat = 0 then h.startReset n true
    else if !was.getLsbD 0 ∧ v.getLsbD 0 then
      h.modCtrl n fun c => { c with csts := (c.csts &&& ~~~0xC#32) ||| 1#32, resetting := none }
    else h

/-- PROPERTY_SET (R80): CC is at offset 0x14; no other property takes a write. -/
def execPropertySet (ctx : Nat) (s : State) : Host.Outcome State Fault Refusal :=
  .next { s with head := s.head.fabrics ctx 0x00 fun c =>
    let h := s.head
    if c.cap.dw11.toNat = 0x14 then (h.complete c stSuccess 0).writeCc c.cntlid c.cap.dw12
    else h.complete c stInvalidField 0 }

/-- CAP of R58: MQES, TO and NSSRS as stated; the rest is not stated (log 7). -/
def capValue : Nat :=
  let rest := Config.capRest
  1023 + bits 23 16 rest * 2 ^ 16 + 2 * 2 ^ 24 + bits 35 32 rest * 2 ^ 32 + bits 63 37 rest * 2 ^ 37

/-- A controller property by offset. -/
def Ctrl.property (k : Ctrl) (ofs : Nat) : Option Nat :=
  if ofs = 0x00 then some capValue
  else if ofs = 0x08 then some 0x00020000
  else if ofs = 0x14 then some k.cc.toNat
  else if ofs = 0x1C then some k.csts.toNat
  else none

/-- PROPERTY_GET (R58). -/
def execPropertyGet (ctx : Nat) (s : State) : Host.Outcome State Fault Refusal :=
  .next { s with head := s.head.fabrics ctx 0x04 fun c =>
    let h := s.head
    match (h.hqe.ctrl? c.cntlid).bind fun k => k.property c.cap.dw11.toNat with
    | some v => h.complete c stSuccess v
    | none => h.complete c stInvalidField 0 }

/-- CONTROLLER_RESET_DONE (R80): every fetched command of the controller has ended. -/
def Head.resetDone (h : Head) (n : Nat) : Head :=
  match h.hqe.ctrl? n with
  | none => h
  | some k =>
    match k.resetting with
    | none => h
    | some shutdown =>
      if (h.hqe.ctxs ++ h.hqe.holdCtxs).any fun c => c.cntlid == n && c.inFlight then h
      else h.modCtrl n fun c => { c with
        resetting := none
        csts := if shutdown then (c.csts &&& ~~~0xC#32) ||| 0x8#32 else c.csts &&& ~~~1#32 }

/-- CONTROLLER_RESET_DONE (R80). -/
def execControllerResetDone (cntlid : Nat) (s : State) : Host.Outcome State Fault Refusal :=
  .next { s with head := s.head.resetDone cntlid }

end Sys2Proof.Machine
end

