-- ==== Sys2Proof/Machine/DecodeOps.lean ====
section
/-!
DEFINITION. What a finished decode of a stored chunk leads to: its checks, the next source when one fails, and the repair
(05_compression_engine.md R119, R120; 06_cipher_and_strongroom.md R134 to R137; 08 R163, R165, R166; 01 R20; 09 R203).
-/

namespace Sys2Proof.Machine

open Sys2Proof

def Head.modCph (h : Head) (f : Cph → Cph) : Head := { h with cph := f h.cph }
/-- Count a cipher event (CPH_STAT). -/
def Head.cphCount (h : Head) (i : Nat) : Head := h.modCph fun c => { c with stat := c.stat.modify i fun x => sat32 (x + 1) }

/-- Note a cipher failure in `CPH_LAST_FAIL`: 1 tag, 2 header, 3 key absent. -/
def Head.cphFailed (h : Head) (site kind : Nat) (c : Chunk) : Head :=
  (h.modCph fun x => { x with lastFail := (site, kind, c.domain, c.keyId % 256) }).orReg Adr.CPH_LAST_FAIL 0x80000000

/-- How a decode ended. -/
inductive DecodeEnd where
  | good
  /-- tag or header failure (R136) -/
  | tag
  /-- decoder error (R120) -/
  | decoder (code : Nat)
  /-- CHUNK_GUARD does not match (R163 point 0x2) -/
  | guard
  deriving DecidableEq, Repr

/-- The checks of R134, R135 and R163, in order. -/
def decodeEnd (c : Chunk) (r : DecodeResult) : DecodeEnd :=
  if !r.headerOk || !r.tagOk then .tag
  else if r.code ≠ 0 then .decoder r.code
  else if r.plain.length ≠ c.logicalLen then .decoder 5
  else if crc64 r.plain ≠ c.guard then .guard
  else .good

/-- Count a failed decode at its site. -/
def Head.noteFailure (h : Head) (t : Task) (c : Chunk) (r : DecodeResult) : Head :=
  match decodeEnd c r with
  | .good => h
  | .tag =>
    let h := (h.modBooth t.site fun b => { b with tagFail := sat32 (b.tagFail + 1) }).raise (8 * t.site + 5)
    let kind := if r.headerOk then 1 else 2
    ((h.cphCount (kind + 1)).cphFailed t.site kind c).ptyCount 0x4 1
  | .decoder code =>
    let h := h.modBooth t.site fun b => { b with lastErr := code, lastErrDomain := c.domain }
    let h := (h.modCmp fun x => { x with decErr := x.decErr.modify (code - 1) fun n => sat32 (n + 1) }).orReg
      (0x100104 + t.site * 0x1000) 0x80000000
    h.raise (8 * t.site + 4)
  | .guard => h.pointFailed 0x2 t.site 0 0

/-- The first block that a command still needs of a chunk. -/
def Ctx.blockOf (c : Ctx) (u : Nat) : Nat :=
  (c.remaining.find? fun lba => (extentsIn c.view c.cap.nsid (lba * 4096) 4096).any (·.chunk == some u)).getD (c.remaining.headD c.cap.slba)

/-- End the user of a decode that cannot be had. -/
def Head.failTask (h : Head) (t : Task) (point sc : Nat) : Head :=
  let h := h.dropTask t.id
  match t.purpose with
  | .read n | .history n => h.withCtx n fun c =>
      let lba := c.blockOf t.uid
      if c.phase = .running then h.failRead c { point := point, sc := sc, lba := lba, refExp := lba % 2 ^ 48 } else h
  | .compare k => match h.dp.pchunk? k with | none => h | some p => h.refute p true
  | .verify => h

/-- Every source has failed: the status and CHECK_POINT of the failure, the FAULT record, and a chunk whose only copies were in
staging is poisoned (R20, R120, R136, R163). -/
def Head.exhausted (h : Head) (t : Task) (c : Chunk) (e : DecodeEnd) : Head :=
  let code := match e with | .decoder n => n | _ => 0
  let what := match e with | .tag => leBytes 4 c.keyId | _ => leBytes 1 code
  let h := h.unlisted sevFault (leBytes 2 c.domain ++ what ++ leBytes 8 c.stripe ++ leBytes 8 c.off64)
  let dirty := ((h.dp.stagedCopy c.uid).map (·.dirty)).getD false
  let (point, sc) := if dirty then (0x3, 0x81) else match e with | .tag => (0x4, 0x81) | .guard => (0x2, 0x82) | _ => (0x2, 0x81)
  let h := h.failTask t point sc
  if dirty then h.poison c.uid else h

/-- Try a decode again on a site: its stream moves there. -/
def Head.retask (h : Head) (t : Task) (source site : Nat) : Head × Bool :=
  match (h.dropStream 3 t.id).acceptStream 3 t.id [site] with
  | (h', none) => (h', false)
  | (h', some s) => (h'.modTask t.id fun x => { x with source := source, site := s }, true)

/-- Reconstruct a chunk from the stripe's parity, for a decode on another live booth. -/
def Head.fromParity (h : Head) (t : Task) (c : Chunk) (e : DecodeEnd) : Head :=
  let shelf := h.stripeShelf c.stripe
  if t.source = 3 ∨ (h.stripe? c.stripe).isNone ∨ !h.reachable shelf then h.exhausted t c e
  else
    let site := ((h.decodeSites c.domain 2 (some (t.site / 9)) [(t.failed.map (·.1)).getD t.site]).headD t.site)
    match h.retask t 3 site with
    | (h, true) => match h.dp.task? t.id with | none => h | some t => h.readMembers t true
    | (h, false) => h.exhausted t c e

/-- The last source: reconstruction, or the Catcher's mirror copy for a chunk whose stripe has not committed. -/
def Head.lastSource (h : Head) (t : Task) (c : Chunk) (e : DecodeEnd) : Head :=
  match h.dp.stagedCopy c.uid with
  | some s =>
    if s.dirty then
      if t.source = 4 ∨ !h.paired c.troupe then h.exhausted t c e
      else ((h.dropStream 3 t.id).modTask t.id fun x => { x with source := 4 }).emit (.fetchMirror c.troupe s.handle)
    else h.fromParity t c e
  | none => h.fromParity t c e

/-- A decode failure as a number, which a task keeps over its other sources: 0 tag, a decoder code, 0x10 guard. -/
def DecodeEnd.toCode : DecodeEnd → Nat
  | .good => 0
  | .tag => 0
  | .decoder n => n
  | .guard => 0x10
def endOfCode (n : Nat) : DecodeEnd := if n = 0 then .tag else if n = 0x10 then .guard else .decoder n

/-- The next source of a chunk that failed: another live booth of the ring, then the last source (R120, R136). -/
def Head.nextSource (h : Head) (t : Task) (c : Chunk) (e : DecodeEnd) : Head :=
  if t.source ≤ 1 then
    let h := h.modTask t.id fun x => { x with failed := some (t.site, e.toCode) }
    let t := { t with failed := some (t.site, e.toCode) }
    let prog := match t.purpose with | .verify => 3 | _ => 2
    match h.decodeSites c.domain prog (some (t.site / 9)) [t.site] with
    | [] => h.lastSource t c e
    | s :: _ =>
      match h.retask t 2 s with
      | (h, true) => h.feedTask { t with site := s }
      | (h, false) => h.lastSource t c e
  else h.lastSource t c e

/-- A reconstructed chunk is rewritten (R136, R203): its bytes go to staging and it is placed again. -/
def Head.rewriteChunk (h : Head) (c : Chunk) (bytes : Bytes) : Head :=
  if (h.stripe? c.stripe).isNone ∨ bytes = [] then h
  else
    let hd := h.dp.nextHandle
    let h := h.modDp fun d => { d with
      nextHandle := hd + 1
      staged := (d.staged.filter fun s => s.uid != some c.uid) ++
        [{ handle := hd, troupe := c.troupe, uid := some c.uid, bytes := bytes, guard := crc64 bytes, dirty := false }] }
    h.moveChunk c.uid false

/-- A decode that passed every check: its plaintext goes to its user; a repair is counted and carried out. -/
def Head.taskGood (h : Head) (t : Task) (c : Chunk) (plain : Bytes) : Head :=
  let h := h.cphCount 1
  let h := if t.source = 2 then match t.failed with | some (s, _) => h.countFault 1 s false | none => h
    else if t.source = 3 then h.rewriteChunk c t.rebuilt
    else if t.source = 4 then h.cphCount 7 else h
  let h := h.dropTask t.id
  match t.purpose with
  | .read n =>
    (h.modCtx n fun x => { x with decoded := x.decoded ++ [(t.uid, plain)] }).serveBlocks n
  | _ => h

/-- The key of a chunk cannot be used: SEALED (R134), or absent (R137). -/
def Head.keyFailure (h : Head) (c : Chunk) : Option Bool :=
  let s := h.stg.slot (c.keyId % 256)
  if s.state = 1 then some false
  else if s.state = 0 ∨ s.epoch ≠ c.keyId / 256 then some true
  else none

/-- End the user of a decode with a status of the key's. -/
def Head.endLocked (h : Head) (t : Task) : Head :=
  let h := h.dropTask t.id
  match t.purpose with
  | .read n | .history n => h.withCtx n fun c => if c.phase = .running then (h.complete c stLocked 0).dropTasks n else h
  | .compare k => match h.dp.pchunk? k with | none => h | some p => h.refute p true
  | .verify => h

/-- A chunk has finished decrypting and decoding (CHUNK_DECODE_DONE). -/
def Head.decodeDone (h : Head) (n : Nat) (r : DecodeResult) : Head :=
  match h.dp.task? n with
  | none => h
  | some t =>
    match h.dp.chunk? t.uid with
    | none => h.dropTask n
    | some c =>
      if t.waiting.isSome ∨ ((h.dp.booth t.site).streamOf 3 n).isNone then h
      else match h.keyFailure c with
      | some false => h.endLocked t
      | some true =>
        let h := ((h.cphCount 4).cphFailed t.site 3 c).plainRecord sevNotice 5 (leBytes 4 c.keyId ++ leBytes 2 c.domain)
        (h.ptyCount 0x4 1).failTask t 0x4 0x81
      | none =>
        match decodeEnd c r with
        | .good => h.taskGood t c r.plain
        | e => (h.noteFailure t c r).nextSource t c e

end Sys2Proof.Machine
end

