-- ==== Sys2Proof/Machine/LogOps.lean ====
section
/-!
DEFINITION. What the head reports: Attic records as bytes, the PARADE summary and the log pages (15 R326, R334 to R336; 03 R57, R58,
R70).
-/

namespace Sys2Proof.Machine

open Sys2Proof

/-! ## Attic records (R326) -/

/-- A record in its 128 bytes. -/
def AtticRec.encode (r : AtticRec) : Bytes :=
  let words := zeros (ceilDiv r.payload.length 4 * 4 - r.payload.length) ++ wordBytes r.snaps
  let body := leBytes 8 r.seq ++ leBytes 8 (r.opSec % 2 ^ 40 + r.cycles % 2 ^ 24 * 2 ^ 40) ++ leBytes 1 r.severity ++ leBytes 1 r.flags ++
    leBytes 2 r.source ++ leBytes 2 r.code ++ leBytes 1 r.payload.length ++ leBytes 1 r.snaps.length ++ leBytes 1 r.set ++
    leBytes 1 r.setGen ++ zeros 2 ++ leBytes 4 r.calendar ++ fit 92 (r.payload ++ words)
  body ++ crcBytes body

/-- A slot of the Attic as bytes; an empty slot is zeros, and the slot of a clear record in hand is all ones. -/
def Attic.slotBytes (a : Attic) (n : Nat) : Bytes :=
  match a.slots.find? (·.1 == n) with
  | some (_, r) => r.encode
  | none => zeros 128

/-- The lowest slot from `n` on that a list of slots in ascending order leaves empty. -/
def firstEmpty (n : Nat) : List (Nat × AtticRec) → Nat
  | [] => n
  | (k, _) :: rest => if k = n then firstEmpty (n + 1) rest else n

/-- The slot of a new record (R330): the lowest empty one, else the one with the lowest SEQ of the same or lower severity; a CRITICAL
record takes only those of lower severity. -/
def Attic.slotFor (a : Attic) (sev : Nat) : Option Nat :=
  let e := firstEmpty 0 a.slots
  if e < 12288 then some e
  else
    ((a.slots.filter fun x => decide (x.2.severity < sev) || (x.2.severity == sev && sev != 3)).foldl
      (fun (best : Option (Nat × AtticRec)) x => match best with
        | none => some x
        | some b => if x.2.seq < b.2.seq then some x else some b) none).map (·.1)

/-- Put a record into a slot; the list stays in ascending order. -/
def putSlot (n : Nat) (r : AtticRec) : List (Nat × AtticRec) → List (Nat × AtticRec)
  | [] => [(n, r)]
  | (k, x) :: rest => if k < n then (k, x) :: putSlot n r rest else if k = n then (n, r) :: rest else (n, r) :: (k, x) :: rest

/-- Write the next queued record to its slot (R329, R330); without an eligible slot it is dropped and counted. -/
def Head.atticWrite (h : Head) : Head :=
  match h.atc.queue with
  | [] => h
  | r :: rest =>
    let h := { h with atc := { h.atc with queue := rest } }
    match h.atc.slotFor r.severity with
    | none => h.dropRecord r.severity
    | some n => { h with atc := { h.atc with
        slots := putSlot n r h.atc.slots, head := max h.atc.head r.seq, headSlot := if h.atc.head ≤ r.seq then n else h.atc.headSlot,
        buffer := some (n, r) } }

/-- Write every queued record, before the power goes. -/
def Head.atticDrain (h : Head) : Head := h.forEach h.atc.queue fun h _ => h.atticWrite

/-- Clear the Attic under a token of sequence `n` (R332). -/
def Head.clearAttic (h : Head) (n : Nat) : Head :=
  let payload := leBytes 8 n ++ leBytes 4 (h.atc.slots.length + h.atc.queue.length) ++ h.atc.drops.flatMap (leBytes 4)
  let r := h.formRecord sevCritical 0xFFFF 1 payload
  { h with atc := { h.atc with
      slots := [(0, r)], queue := [], nextSeq := h.atc.nextSeq + 1, head := r.seq, headSlot := 0, drops := [0, 0, 0, 0],
      clearSeq := r.seq, buffer := some (0, r) } }.raise 997

/-! ## The PARADE summary (R335) -/

/-- A register's value at capture. -/
def Head.regBytes (h : Head) (a : Nat) : Bytes := leBytes 4 (h.readReg0 a).toNat
def Head.regsBytes (h : Head) (l : List Nat) : Bytes := l.flatMap h.regBytes

/-- FW_REV of a slot, as its image gives it. -/
def Head.slotRev (h : Head) (slot : Nat) : Bytes := fit 8 (slice 0x18 8 (h.imageBytes slot))

/-- PACING bits. -/
def Head.pacingBits (h : Head) : Nat :=
  flag h.dp.pacing + flag (h.pair.pacing && h.flies .a) * 2 + flag (h.pair.pacing && h.flies .b) * 4 +
    flag (decide (h.pwr.level ≠ 0)) * 8 + flag (h.pty.jrnWait.1 || h.pty.jrnWait.2) * 0x10 +
    flag ((h.flies .a && h.blogFull .a) || (h.flies .b && h.blogFull .b)) * 0x20 + flag (decide (h.memc.dirtyLimitMib < 0x4000)) * 0x40

/-- Rows of R24's table that have stopped a path: acknowledgement by a freeze, the Wheel, the Baton, the keys, the image, the record
queue. -/
def Head.stoppedBits (h : Head) : Nat :=
  flag ([Troupe.a, .b].any fun t => h.flies t && (h.pair.trp t).state == 3) + flag (!h.whl.running) * 2 +
    flag ([Troupe.a, .b].any fun t => h.flies t && !lineOf h.pair.hold t) * 8 + flag (!h.stg.unsealed) * 0x80 +
    flag h.tsi.active.isNone * 0x200 + flag (decide (256 ≤ h.atc.queue.length)) * 0x1000

/-- % of a troupe's stripes committed in a closing (R290). -/
def Head.closingPct (h : Head) (t : Troupe) : Nat :=
  if !(h.pair.trp t).closing then 0xFF
  else
    let l := h.pty.stripes.filter (·.troupe == t)
    let d := l.filter fun s => s.phase == .committed || s.phase == .voided
    if l = [] then 100 else d.length * 100 / l.length

/-- An open fault is listed from its first count in the window, or while its reduced mode lasts (R336). -/
def Head.openFaults (h : Head) : List FaultPart :=
  (h.flt.parts.filter fun p => p.state != 0 && (p.state == 4 || decide (h.inWindow (h.windowH p.cls) p.times ≠ []))).insertionSort
    fun a b => decide (a.cls < b.cls ∨ (a.cls = b.cls ∧ a.part ≤ b.part))

def Head.faultEntry (h : Head) (p : FaultPart) : Bytes :=
  leBytes 1 p.cls ++ leBytes 1 p.state ++ leBytes 2 p.part ++ leBytes 1 (min 255 (h.inWindow (h.windowH p.cls) p.times).length) ++
    leBytes 1 (min 255 (h.thresh p.cls)) ++ zeros 2 ++ leBytes 8 p.last

/-- A spare kind: MODE, TOTAL, IN_USE and REMAINING in fields of `n` bytes (R70, R335). -/
def SpareKind.encode (s : SpareKind) (n : Nat) : Bytes :=
  leBytes 1 s.kind ++ leBytes 1 s.mode ++ (if n = 4 then zeros 2 else []) ++ leBytes n s.total ++ leBytes n s.inUse ++
    leBytes n (s.total - s.inUse)

/-- Byte of a shelf in SHELVES. -/
def Head.shelfByte (h : Head) (s : Nat) : Nat :=
  let x := h.shf.shelf s
  let failed := h.mnd.modules.any fun m => m.shelf == s && m.state == 2
  if !h.shelfOn s then 0
  else x.state + flag (h.landing s) * 8 + flag (h.held s) * 0x10 + flag x.fill * 0x20 + flag failed * 0x40 +
    flag (h.mnd.overdue.any (·.1 == s)) * 0x80

/-- Queues that are frozen, lowest FREEZE_SEQ first. -/
def Head.frozenQueues (h : Head) : List (QPair × Freeze) :=
  (h.hqe.qpairs.filterMap fun q => q.frozen.map fun f => (q, f)).insertionSort fun a b => decide (a.2.seq ≤ b.2.seq)

/-- Fields 0x000 to 0x16F. -/
def Head.parade1 (h : Head) : Bytes :=
  let b := h.fwu.bctl
  leBytes 4 0x45445250 ++ leBytes 2 1 ++ leBytes 2 4096 ++ leBytes 4 h.paradeSeq ++ zeros 4 ++
    leBytes 8 (if h.whl.ptpLocked then h.ptpNs else 0) ++ leBytes 8 h.stamp ++ leBytes 4 h.whl.beat ++ zeros 28 ++
    h.regsBytes [Adr.GLB_IDENT, Adr.GLB_RESOURCES] ++ leBytes 8 h.fuse.serial.toNat ++ leBytes 1 h.headId ++ leBytes 1 b.active ++
    zeros 2 ++ h.slotRev 1 ++ h.slotRev 2 ++ h.regsBytes [Adr.TSI_ACTIVE_ID, Adr.TSI_APPLIED_BEAT] ++
    leBytes 4 ((h.tsi.active.map (·.generation)).getD 0) ++ h.regsBytes ((List.range 8).map Adr.TSI_ACTIVE_DIGEST) ++
    (if h.tsi.active.isSome then pairDigest h.tsi.raw else zeros 32) ++ h.regBytes Adr.TSI_RETIRE_COUNT ++
    leBytes 4 ((h.fwu.schedule.map (·.2)).getD 0) ++ zeros 8 ++
    h.regsBytes [Adr.TRP_ROLE, Adr.TRP_BATON, Adr.TRP_ICL_STATUS, Adr.TRP_MISMATCH, Adr.TRP_DIGEST 0, Adr.TRP_DIGEST 1, Adr.TRP_RESYNC] ++
    leBytes 1 (h.closingPct .a) ++ leBytes 1 (h.closingPct .b) ++ zeros 2 ++ h.regsBytes [Adr.STG_STATUS, Adr.STG_ALARM] ++ zeros 24 ++
    h.regsBytes [Adr.WHL_STATUS, Adr.WHL_CYCLE_LO, Adr.WHL_CYCLE_HI, Adr.WHL_PTP_OFS, Adr.WHL_PEER_OFS, Adr.WHL_OVERRUN, Adr.WHL_LATE] ++
    zeros 4 ++
    h.regsBytes [Adr.PWR_STATE, Adr.PWR_GOV, Adr.PWR_VIN, Adr.CAL_HUP_E, Adr.CAL_HUP_TRIG, Adr.CAL_FLUSH, Adr.CEL_WAKE_REC] ++ zeros 4 ++
    leBytes 4 h.freeNat ++ leBytes 4 h.pacingBits ++ leBytes 4 (h.dp.dirtyBytes / 2 ^ 20) ++ leBytes 4 h.memc.dirtyLimitMib ++
    leBytes 4 h.stoppedBits ++ zeros 12 ++
    (List.range 4).flatMap (fun r => leBytes 1 (((List.range 9).filter fun i => h.live (9 * r + i)).length)) ++
    leBytes 12 ((List.range 36).map fun n => ((h.siteEnt n).map (·.state)).getD 0 * 4 ^ n).sum

/-- Fields 0x170 to 0x4DF. -/
def Head.parade2 (h : Head) : Bytes :=
  h.flt.spares.flatMap (·.encode 2) ++ leBytes 4 h.flt.reduced.toNat ++ h.regsBytes [Adr.PAN_STATUS, Adr.LDR_STATUS] ++ zeros 4 ++
    h.regsBytes [Adr.MND_STATUS, Adr.MND_RSH_STATUS, Adr.MND_LOSS_COUNT, Adr.MND_PATROL_DUE] ++
    fit 48 (((h.mnd.rebuilds.filter (·.spareKind != 3)).take 8).zipIdx.flatMap fun (r, i) =>
      leBytes 4 ((h.setFld Adr.MND_REB_SEL 7 0 i).readReg0 Adr.MND_REB_INFO).toNat ++ leBytes 2 r.rate) ++
    (List.range 128).flatMap (fun s => leBytes 1 (h.shelfByte s)) ++ h.regsBytes [Adr.SHF_STATUS, Adr.SHF_DRAW] ++ leBytes 4 h.shf.rackW ++
    zeros 4 ++ (List.range 16).flatMap (fun p => leBytes 1 ((h.shf.port p).width + (h.shf.port p).speed * 0x10)) ++ zeros 32 ++
    h.regsBytes [Adr.HQE_USE, Adr.HQE_PEAK, Adr.HQE_FROZEN, Adr.HQE_EVT] ++ leBytes 2 h.hqe.ctrls.length ++ leBytes 2 h.hqe.holdCtxs.length ++
    leBytes 1 h.hqe.portsUp.toNat ++ zeros 11 ++
    fit 512 ((h.frozenQueues.take 64).flatMap fun (q, f) => leBytes 2 q.qid ++ leBytes 2 q.cntlid ++ leBytes 4 f.seq)

/-- Fields 0x4E0 to 0xFFB. -/
def Head.parade3 (h : Head) : Bytes :=
  let faults := h.openFaults
  let recs := h.atc.slots.map (·.2)
  let recent := ((recs.filter fun r => 2 ≤ r.severity).map (·.seq)).insertionSort (· ≥ ·)
  let top := h.topSource ((h.brk.filter (·.pending)).map (·.src))
  leBytes 2 faults.length ++ leBytes 2 (min 128 faults.length) ++ zeros 28 ++ fit 2048 ((faults.take 128).flatMap h.faultEntry) ++
    leBytes 8 h.atc.head ++ leBytes 4 h.atc.headSlot ++ leBytes 4 h.atc.slots.length ++ h.atc.drops.flatMap (leBytes 4) ++
    leBytes 8 h.atc.clearSeq ++ leBytes 4 (recs.filter (·.severity == 3)).length ++ zeros 4 ++ fit 32 ((recent.take 4).flatMap (leBytes 8)) ++
    leBytes 4 h.pendingCount ++
    (match top with | none => leBytes 4 0x80000000 | some s => leBytes 4 (s + h.srcPrioOf s * 0x1000)) ++ zeros 676

/-- The 4,096 bytes of a summary: fields, reserved zeros and the CRC-32C. -/
def Head.summary (h : Head) : Bytes :=
  let body := fit 0xFFC (h.parade1 ++ h.parade2 ++ h.parade3)
  body ++ crcBytes body

/-- Build a summary (R334): SUMMARY_SEQ increments. The throughput now sustained is not stated: a free value. -/
def Head.buildSummary (h : Head) : Head × Bytes :=
  let h := { h with paradeSeq := (h.paradeSeq + 1) % 2 ^ 32 }
  (h.spend, h.summary)

/-! ## Vendor log pages (R70) -/

/-- A freeze record in its 128 bytes. -/
def Freeze.encode (f : Freeze) (q : QPair) : Bytes :=
  leBytes 2 q.qid ++ leBytes 2 q.cntlid ++ leBytes 4 f.nsid ++ leBytes 4 f.seq ++ leBytes 2 f.cid ++ leBytes 1 f.opcode ++
    leBytes 1 f.checkPoint ++ leBytes 2 f.status ++ leBytes 2 f.failCount ++ leBytes 4 q.entries.length ++ leBytes 8 f.slba ++ leBytes 4 f.nlb ++
    zeros 4 ++ leBytes 8 f.failLba ++ beBytes 8 f.guardExp.toNat ++ beBytes 8 f.guardAct.toNat ++ beBytes 6 f.refExp ++ beBytes 6 f.refAct ++
    beBytes 2 f.appExp ++ beBytes 2 f.appAct ++ leBytes 2 f.appMask ++ leBytes 2 f.site ++ zeros 4 ++ leBytes 8 f.time ++
    ((List.range 16).flatMap fun i => leBytes 2 (f.later.getD i 0xFFFF))

/-- Log 0xC1 of a controller. -/
def Head.freezeLog (h : Head) (c : Ctrl) : Bytes :=
  let l := h.frozenQueues.filter fun x => x.1.cntlid == c.cntlid
  fit 128 (leBytes 4 l.length ++ leBytes 4 c.freezeGen) ++ l.flatMap fun (q, f) => f.encode q

/-- Log 0xC2: the shelves. The highest module temperature is a reading of the bridges: a free value. -/
def Head.shelfEntry (h : Head) (s : Nat) : Bytes :=
  let ms := h.mnd.modules.filter (·.shelf == s)
  let holds := h.shf.holds.filter (·.shelf == s)
  let left := (holds.map fun x => (x.expiry - h.now) / 1000000).foldl max 0
  let open3 := (h.shf.shelf s).state == 3
  fit 64 (leBytes 1 s ++ leBytes 1 (h.shf.shelf s).state ++ leBytes 1 (flag (h.landing s) + flag (h.held s) * 2) ++
    leBytes 1 (ms.filter (·.state != 5)).length ++ leBytes 1 (ms.filter (·.state == 2)).length ++ leBytes 1 (h.shelfPort s) ++
    leBytes 2 (h.shelfDraw s) ++ leBytes 4 (if open3 then 0 else h.estimate [s]) ++ leBytes 4 left ++ leBytes 8 (assocGet s 0 h.mnd.lastPatrol) ++
    leBytes 2 (Config.freeNat (h.free + s)))

def Head.shelfLog (h : Head) : Bytes :=
  let on := h.shelvesOn
  fit 64 (leBytes 2 on.length ++ leBytes 2 (on.filter fun s => (h.shf.shelf s).state == 3).length ++ leBytes 4 h.shf.rackW) ++
    (List.range 128).flatMap h.shelfEntry

/-- Log 0xC3: header and the slots that a read of `n` bytes at an offset touches. -/
def Head.atticLog (h : Head) (off n : Nat) : Bytes :=
  let next := if firstEmpty 0 h.atc.slots < 12288 then firstEmpty 0 h.atc.slots else 0xFFFFFFFF
  let header := fit 64 (leBytes 2 128 ++ zeros 2 ++ leBytes 4 12288 ++ leBytes 4 next ++ zeros 4 ++ h.atc.drops.flatMap (leBytes 4))
  if off < 64 then slice off n (header ++ (List.range (ceilDiv n 128 + 1)).flatMap h.atc.slotBytes)
  else
    let first := (off - 64) / 128
    slice ((off - 64) % 128) n ((List.range (ceilDiv n 128 + 1)).flatMap fun i => h.atc.slotBytes (first + i))

/-- Log 0xC4: the spares. -/
def Head.spareLog (h : Head) : Bytes := fit 16 (leBytes 1 8) ++ h.flt.spares.flatMap (·.encode 4)

/-! ## Standard log pages (R57) -/

/-- The Discovery log page (R47): an entry for each transport of each port, of this head and, unless it is absent, of the peer. Addresses
and service identifiers are what the firmware sets, so free; the places are NVMe's (PRESUMED, log 24). -/
def Head.discoveryLog (h : Head) (n : Nat) (base : Bytes) : Bytes :=
  let entries := if h.pair.absent then 16 else 32
  fit n (patch 8 (leBytes 8 entries ++ leBytes 2 0) (slice 0 1024 base) ++ (List.range entries).flatMap fun i =>
    patch 0 (leBytes 1 (if i % 2 = 0 then 1 else 3)) (patch 2 (leBytes 1 2) (patch 4 (leBytes 2 (i / 2) ++ leBytes 2 0xFFFF)
      (slice (1024 * (i + 1)) 1024 base))))

/-- A standard page: the fields that the spec states over the bytes that it leaves to NVMe (log 7). -/
def Head.stdLog (h : Head) (k : Ctrl) (lid n : Nat) : Bytes :=
  let base := fit n (Config.logRest lid)
  match lid with
  | 0x01 => fit n ((h.hqe.errors.filter (·.1 == k.cntlid)).zipIdx.flatMap fun ((_, q, cid, st), i) =>
      patch 8 (leBytes 2 q ++ leBytes 2 cid ++ leBytes 2 (st * 2)) (slice (64 * i) 64 base))
  | 0x02 => patch 32 (leBytes 16 (ceilDiv (h.hqe.blocksRead * 8) 1000) ++ leBytes 16 (ceilDiv (h.hqe.blocksWritten * 8) 1000)) base
  | 0x03 => patch 8 (h.slotRev 1 ++ h.slotRev 2) (patch 0 (leBytes 1 (h.fwu.bctl.active + h.fwu.bctl.trial * 0x10)) base)
  | 0x05 => fit n (((List.range 512).flatMap fun i =>
      leBytes 4 (leAt (4 * i) 4 base / 2 * 2 + flag (if i < 256 then adminOpcode i else ioOpcode (i - 256)))) ++ base.drop 2048)
  | 0x06 =>
    let (op, pct) := match h.hqe.selfTest with
      | none => (0, 0)
      | some t =>
        let ran := t.ran + (t.since.map fun a => h.now - a).getD 0
        (t.kind, min 99 (ran * 100 / (if t.kind = 1 then 120000000 else 1200000000)))
    fit n (leBytes 1 op ++ leBytes 1 pct ++ zeros 2 ++ ((h.hqe.testLog ++ List.replicate 20 (0, 15)).take 20).flatMap fun (k, r) => fit 28 (leBytes 1 (k * 16 + r)))
  | 0x0C =>
    fit n (patch 8 (leBytes 2 2) (slice 0 16 base) ++ [Troupe.a, .b].flatMap fun t =>
      let ids := (h.hqe.namespaces.filter (·.troupe == t)).map (·.nsid)
      fit 32 (leBytes 4 (troupeBit t + 1) ++ leBytes 4 ids.length ++ slice (16 + 8 * troupeBit t) 8 base ++ leBytes 1 (h.pair.trp t).ana) ++
        ids.flatMap (leBytes 4))
  | 0x70 => h.discoveryLog n base
  | 0x81 =>
    let at81 := leBytes 2 (match h.stg.sanStatus with | 0 => 0 | 1 => 2 | _ => 1)
    patch 0 ((if h.stg.sanStatus = 1 then slice 0 2 base else leBytes 2 0xFFFF) ++ at81) base
  | _ => base

/-- A log page from an offset; none for an identifier that the head does not serve. -/
def Head.logPage (h : Head) (c : Ctrl) (lid off n : Nat) : Option Bytes :=
  match lid with
  | 0xC1 => some (fit n ((h.freezeLog c).drop off))
  | 0xC2 => some (fit n (h.shelfLog.drop off))
  | 0xC3 => some (fit n (h.atticLog off n))
  | 0xC4 => some (fit n (h.spareLog.drop off))
  | _ =>
    if lid = 0x01 ∨ lid = 0x02 ∨ lid = 0x03 ∨ lid = 0x05 ∨ lid = 0x06 ∨ lid = 0x0C ∨ lid = 0x81 ∨ (lid = 0x70 ∧ c.discovery) then
      some ((h.stdLog c lid (off + n)).drop off)
    else none

end Sys2Proof.Machine
end

