-- ==== Sys2Proof/Machine/MemOps.lean ====
section
/-!
DEFINITION. Head memory (12 R266, R267): the populated ranges, and reading and writing the canonical list of cells. A byte that
nothing has written reads as 0 (log 6).
-/

namespace Sys2Proof.Machine

open Sys2Proof

/-- The head memory of a state: (address, byte), addresses strictly rising, no entry equal to 0. -/
abbrev Memory := List Host.Cell

/-- Addresses strictly rise from `lo` on, and no byte listed is 0. -/
def Memory.wfFrom : Nat → Memory → Bool
  | _, [] => true
  | lo, c :: m => decide (lo ≤ c.1) && c.2 != 0 && Memory.wfFrom (c.1 + 1) m

/-- The canonical form. -/
def Memory.wf (m : Memory) : Bool := Memory.wfFrom 0 m

/-- The byte at an address. -/
def Memory.byte (m : Memory) (a : Nat) : Byte :=
  match m with
  | [] => 0
  | c :: m => if c.1 = a then c.2 else Memory.byte m a

/-- Write one byte: 0 takes the entry out. -/
def Memory.put (m : Memory) (a : Nat) (b : Byte) : Memory :=
  match m with
  | [] => if b = 0 then [] else [(a, b)]
  | c :: m =>
    if a < c.1 then (if b = 0 then c :: m else (a, b) :: c :: m)
    else if a = c.1 then (if b = 0 then m else (a, b) :: m)
    else c :: Memory.put m a b

/-- Write bytes from an address on. -/
def Memory.write (m : Memory) (a : Nat) : Bytes → Memory
  | [] => m
  | b :: bs => Memory.write (Memory.put m a b) (a + 1) bs

/-- `n` bytes from an address on. -/
def Memory.read (m : Memory) (a : Nat) : Nat → Bytes
  | 0 => []
  | n + 1 => Memory.byte m a :: Memory.read m (a + 1) n

/-- Keep the cells at addresses that a range test admits. -/
def Memory.keep (m : Memory) (p : Nat → Bool) : Memory := m.filter fun c => p c.1

/-! ## The map of R266 -/

/-- Address of DDR5 byte 0. -/
def ddrBase : Nat := 0x40000000000

/-- HBM regions in force, in entry order, each with its first address in the HBM window. -/
def regionsAt : Nat → List RegionEnt → List (Nat × RegionEnt)
  | _, [] => []
  | a, r :: l => (a, r) :: regionsAt (a + r.sizeMib * 1048576) l

def Head.regions (h : Head) : List (Nat × RegionEnt) :=
  match h.tsi.sections.bank with
  | some b => regionsAt 0 b.2
  | none => []

/-- The HBM region that an address lies in. -/
def Head.regionOf (h : Head) (a : Nat) : Option (Nat × RegionEnt) :=
  h.regions.find? fun r => decide (r.1 ≤ a ∧ a < r.1 + r.2.sizeMib * 1048576)

/-- Installed DDR5 in bytes: channels A to H, each with the same DIMMs (R280). -/
def Head.ddrBytes (h : Head) : Nat := 8 * h.memc.dpc * h.memc.dimmGib * 1073741824

/-- Stack and pseudo-channel 0 to 30 at a place in a stack: each serves 1,152 MiB (R267). -/
def Head.pcOf (h : Head) (a : Nat) : Option (Nat × Nat) :=
  match h.regionOf a with
  | none => none
  | some (b, r) =>
    let l := (List.range 4).filter fun s => bitAt s r.stackMask
    let g := (a - b) / 4096
    let s := l.getD (g % max 1 l.length) 0
    let off := r.baseMib * 1048576 + g / max 1 l.length * 4096 + (a - b) % 4096
    some (s, off / (1152 * 1048576))

/-- A byte address that the map populates. -/
def Head.populated (h : Head) (a : Nat) : Bool :=
  (h.regionOf a).isSome || decide (ddrBase ≤ a ∧ a < ddrBase + h.ddrBytes)

/-- A range of populated bytes: its first and last lie in the window without a hole between them. -/
def Head.rangePopulated (h : Head) (a n : Nat) : Bool :=
  n == 0 || (h.populated a && h.populated (a + n - 1) && decide (ddrBase ≤ a ∨ a + n ≤ ddrBase))

/-- Count a memory error of `MEM_ERR_SEL` kind `i`. -/
def Head.memCount (h : Head) (i : Nat) : Head := { h with memc := { h.memc with errs := bump i 1 h.memc.errs } }

/-- An access outside the populated ranges: bus error and source 748. -/
def Head.unmapped (h : Head) (a : Nat) : Head := ((h.emit (.busError a)).memCount 6).raise 748

/-- Write dirty Pantry lines back. -/
def Memory.writeBack (m : Memory) : List Line → Memory
  | [] => m
  | l :: ls => Memory.writeBack (if l.dirty then Memory.write m (l.addr * 64) l.data else m) ls

/-- A line that is clean from now on. -/
def Line.cleaned (l : Line) : Line := { l with dirty := false }

end Sys2Proof.Machine
end

