-- ==== Sys2Proof/Machine/PowerOps.lean ====
section
/-!
DEFINITION. Power states: their entry and its reversal, rings and domains, wakes (13_power_states_and_wake.md R285 to R298; 03 R78, R79).
-/

namespace Sys2Proof.Machine

open Sys2Proof

/-- The control space is powered: RUN, TRIM or DOZE after a start. -/
def Head.awake (h : Head) : Bool := h.fwu.running && decide (h.pwr.state ≤ 2)

/-! ## Domains (R282, R292) -/

def Head.modDomain (h : Head) (d : Nat) (f : Domain → Domain) : Head :=
  h.modPwr fun p => { p with domains := f (Domain.get p.domains d) :: p.domains.filter (·.dom != d) }

/-- The PDOM entries in force, or of the image that waits for its first edge. -/
def Head.pdoms (h : Head) : List PdomEnt :=
  match h.tsi.sections.pdom with
  | some l => l
  | none => ((h.tsi.armed.bind fun a => (parseSections a.raw).pdom)).getD []

/-- A domain that the image enables; those that always wake are. -/
def Head.domainEnabled (h : Head) (d : Nat) : Bool :=
  d == 141 || d == 157 || d == 158 || d == 159 || ((h.pdoms[d]?).map fun e => bitAt 0 e.flags).getD false

/-- Begin to wake a domain. -/
def Head.wakeDomain (h : Head) (d : Nat) (stalls : Bool) : Head :=
  if !h.domainEnabled d then h
  else h.modDomain d fun x => if x.state = 0 then { x with state := 1, since := h.now, stalled := stalls } else { x with stalled := x.stalled || (stalls && x.state == 1) }

/-- Domains of a ring: its fabric and its booth sites. -/
def ringDomains (r : Nat) : List Nat := (36 + r) :: (List.range 9).map (9 * r + ·)

/-- Waking domains are ready within 200 µs unless DOMAIN_NOT_READY has come; a booth site waits for its microcode (R292). -/
def Head.domainsSettle (h : Head) : Head :=
  h.modPwr fun p => { p with domains := p.domains.map fun x =>
    if x.state = 1 ∧ x.since + 200 ≤ h.now ∧ (36 ≤ x.dom ∨ h.tsi.microcode.contains x.dom) then { x with state := 2, stalled := false } else x }

/-! ## Rings (R288) -/

def ringBit (r : Nat) : BitVec 4 := BitVec.ofNat 4 (2 ^ r)

/-- Power a ring: its domains wake and its booths' microcode is loaded. -/
def Head.ringUp (h : Head) (r : Nat) : Head :=
  let h := h.modPwr fun p => { p with ringsOn := p.ringsOn ||| ringBit r }
  h.forEach (ringDomains r) fun h d => if h.domainEnabled d then h.modDomain d fun x => { x with state := 2 } else h

/-- Gate a ring. -/
def Head.ringDown (h : Head) (r : Nat) : Head :=
  let h := h.modPwr fun p => { p with ringsOn := p.ringsOn &&& ~~~ringBit r, demandWoken := p.demandWoken.filter (·.1 != r) }
  h.forEach (ringDomains r) fun h d => h.modDomain d fun x => { x with state := 0 }

/-- A ring has work: a stream at one of its sites. -/
def Head.ringBusy (h : Head) (r : Nat) : Bool := h.dp.booths.any fun b => b.site / 9 == r && !b.streams.isEmpty

/-- RING_DEMAND_WAKE: work needs a gated ring of TRIM or DOZE. It waits while the governor holds the ring gated (R302). -/
def Head.demandRing (h : Head) (r : Nat) : Head :=
  if !bitAt r h.ringMask ∨ h.pwr.ringsOn.getLsbD r ∨ h.pwr.govGated.getLsbD r ∨ h.pwr.state = 0 ∨ 2 < h.pwr.state then h
  else ((h.ringUp r).modPwr fun p => { p with demandWoken := p.demandWoken ++ [(r, h.now)] }).raise 801

/-- RING_REGATE: REGATE_MS without work since the wake or the end of the work. -/
def Head.regateRing (h : Head) (r : Nat) : Head :=
  match h.pwr.demandWoken.find? (·.1 == r) with
  | none => h
  | some (_, t) =>
    if h.ringBusy r then h.modPwr fun p => { p with demandWoken := assocSet r h.now p.demandWoken }
    else if h.now < t + orIfZero 1 (h.fld Adr.PWR_CTRL 15 0) * 1000 then h
    else h.ringDown r

/-! ## Entry (R286 to R291) -/

/-- Close a troupe (R290): its open stripes close and launch. -/
def Head.closeTroupe (h : Head) (t : Troupe) : Head :=
  let h := h.modTrp t fun x => { x with closing := true }
  let h := h.modPwr fun p => { p with entry := p.entry.map fun e => { e with closing := e.closing ++ [t] } }
  h.forEach (h.pty.stripes.filter fun s => s.troupe == t && s.phase == .opened) fun h s => h.closeStripe s.number

/-- Step 2 of R289: each Flyer troupe is handed over or closed. -/
def Head.dispose (h : Head) : Head :=
  h.forEach h.flown fun h t =>
    if h.paired t && h.pair.peerPower == 0 && h.pair.icl then h.handAway t true false else h.closeTroupe t

/-- ENTER POWER STATE (R286). -/
def Head.enterState (h : Head) (c : Ctx) : Head :=
  let code := c.cap.dw10.toNat % 8
  let par := c.cap.dw11.toNat
  let mask := match code with | 0 => h.ringMask | 1 => par % 16 | 2 => 0 | _ => 15
  if 6 ≤ code ∨ (code = 1 ∧ (List.range 4).any fun r => bitAt r par && !bitAt r h.ringMask) ∨
     (code = 3 ∧ (par % 4096 = 0 ∨ 3600 < par % 4096)) then h.complete c stInvalidField 0
  else if h.stg.erasing ∨ h.pwr.entry.isSome ∨ [h.pair.a, h.pair.b].any fun p => p.state == 3 || p.state == 4 || p.state == 5 then
    h.complete c stSequence 0
  else if code = h.pwr.state then h.complete c stSuccess code
  else
    let h := (h.modPwr fun p => { p with entry := some { target := code, mask := BitVec.ofNat 4 mask, acceptedAt := h.now, ctx := some c.id } }).modCtx
      c.id fun x => { x with phase := .running }
    if code ≤ 2 then h
    else
      let h := h.when (code == 3) fun h => h.setFld Adr.CEL_SAMPLE_CFG 11 0 (par % 4096)
      (h.when h.pair.icl fun h => h.emit (.control (.powerEntry code))).dispose

/-- End the command of an entry. -/
def Head.endEntry (h : Head) (e : PowerEntry) (dw0 : Nat) : Head :=
  match e.ctx with
  | none => h
  | some n => h.withCtx n fun c => if c.inFlight then h.complete c stSuccess dw0 else h

/-- A host command waits for a reversal. -/
def Head.heldCmds (h : Head) : List Ctx := (h.hqe.ctxs ++ h.hqe.holdCtxs).filter (·.powerHeld)

/-- The rings of a state take effect. -/
def Head.setRings (h : Head) (mask : BitVec 4) : Head :=
  let h := h.forEach (List.range 4) fun h r =>
    if mask.getLsbD r && !h.pwr.ringsOn.getLsbD r then h.ringUp r
    else if !mask.getLsbD r && h.pwr.ringsOn.getLsbD r then h.ringDown r else h
  h.modPwr fun p => { p with ringsKept := mask }

/-- POWER_STATE_REACHED: TRIM or DOZE at the first beat edge at least 48 µs after acceptance, RUN when the rings are ready. -/
def Head.stateReached (h : Head) : Head :=
  match h.pwr.entry with
  | none => h
  | some e =>
    if 2 < e.target ∨ h.heldCmds ≠ [] then h
    else if e.target = 0 then
      let gated := (List.range 4).filter fun r => bitAt r h.ringMask && !h.pwr.ringsOn.getLsbD r
      let h := (h.forEach gated fun h _ => h.raise 801).setRings e.mask
      (h.modPwr fun p => { p with entry := none, state := 0, demandWoken := [] }).endEntry e 0
    else if h.whl.slot % 16 ≠ 0 ∨ h.now < e.acceptedAt + 48 then h
    else
      let h := h.setRings e.mask
      ((h.modPwr fun p => { p with entry := none, state := e.target, demandWoken := [] }).raise 800).endEntry e e.target

/-- POWER_ENTRY_REVERSAL (R79, R291): the head returns to RUN, the held commands run, and ENTER POWER STATE completes with REVERSED. -/
def Head.reverse (h : Head) (ctx : Nat) : Head :=
  match h.pwr.entry with
  | none => h
  | some e =>
    if e.portsDown ∨ !h.heldCmds.any (·.id == ctx) then h
    else
      let held := h.heldCmds.insertionSort fun a b => decide (a.arrival ≤ b.arrival)
      let h := (h.backToRun e).endEntry e 0x100
      h.forEach held fun h c => (h.modCtx c.id fun x => { x with powerHeld := false }).admitCmd c.id

/-! ## Ports down and switching off (R289, R295) -/

/-- A troupe that is being closed has closed. -/
def Head.troupeClosed (h : Head) (t : Troupe) : Bool :=
  (h.pair.trp t).closing && h.troupeCtxs t == [] &&
    h.pty.stripes.all fun s => s.troupe != t || s.phase == .committed || s.phase == .voided

/-- Shelves that still close, or must, before a head that leaves no head behind powers down. -/
def Head.shelvesLeft (h : Head) : List Nat :=
  if h.pair.icl && (h.pair.peerRole.1 == 1 || h.pair.peerRole.2 == 1) then []
  else h.shelvesOn.filter fun s => 2 ≤ (h.shf.shelf s).state && (h.shf.shelf s).state ≤ 5

/-- The retention signatures of the banks with RETAIN (R295): the CRC-64 of contents that this model does not hold bit for bit, so
free values. -/
def Head.retain (h : Head) : Head :=
  let banks := (List.range 64).filter fun b => ((h.pdoms[b + 40]?).map fun e => bitAt 1 e.flags).getD false
  let sigs := banks.map fun b => (b, BitVec.ofNat 64 (Config.freeNat (h.free + b)))
  (h.modCel fun c => { c with signatures := sigs }).spend

/-- Step 3 to 5 of R289 on the head: completion, ports, records, retention, the state. OFF returns the cellar to its reset values. -/
def Head.switchOff (h : Head) (e : PowerEntry) : Head :=
  let h := h.endEntry e e.target
  let h := h.forEach (h.hqe.ctrls.map (·.cntlid)) Head.endController
  let h := (h.plainRecord sevInfo 6 (leBytes 1 e.target)).atticDrain
  let h := if e.target = 3 then h.retain else h.modCel fun c => { c with signatures := [] }
  let free := h.free
  let h := (h.stopped (e.target == 3)).modHqe fun q => { q with portsUp := 0 }
  let h := { h with free := free, pwr := { h.pwr with state := e.target }, fwu := { h.fwu with running := false } }
  let h := h.modCel fun c => { c with ddrLost := decide (e.target ≠ 3), runs := [0, 0, 0, 0], vinLoss := false, tripped := c.tripped && e.target != 4 }
  if e.target = 5 then
    { h with regs := [], cel := { opSec := h.cel.opSec, opAt := h.cel.opAt, cycles := h.cel.cycles, flushMs := h.cel.flushMs, tripped := h.cel.tripped } }
  else h

/-- Head memory that the target keeps: DDR5 in CAROUSEL; HBM and, in CELLAR and OFF, DDR5 fall back to what memory that nothing has
written reads as (log 6). DDR5 lies from 0x0400_0000_0000 on. -/
def keptMemory (target : Nat) (m : Memory) : Memory := if target = 3 then m.keep fun a => decide (ddrBase ≤ a) else []

/-! ## Wakes (R293 to R296) -/

/-- The head sleeps in a state with a wake sequencer. -/
def Head.asleep (h : Head) : Bool := h.pwr.state == 3 || h.pwr.state == 4

/-- A wake cause starts the sequencer, unless it runs. After a thermal trip only the management port wakes the head (R378). -/
def Head.wake (h : Head) (cause : Nat) : Head :=
  if !h.asleep ∨ h.pwr.waking.isSome ∨ (h.cel.tripped && h.pwr.state == 4 && cause != 1 && cause != 6) then h
  else (h.modCel fun c => { c with cause := cause, part := 0, attempts := 0, fioAlt := false }).modPwr fun p => { p with waking := some 0, attempts := [] }

/-- The function of a bank by the image that a wake has staged. -/
def Head.bankFunction (h : Head) (b : Nat) : Nat :=
  match h.tsi.armed with
  | none => 4
  | some a => ((parseSections a.raw).bank.map fun x => x.1.getD b 4).getD 4

/-- A retained bank whose signature fails (R295): lost by its function, counted, source 805. -/
def Head.bankLost (h : Head) (b : Nat) : Head :=
  let idx := ((List.range b).filter fun i => h.bankFunction i == 1).length
  let h := h.when (h.bankFunction b == 1) fun h => h.loseLarderBank idx
  let p := h.flt.part 3 b
  let h := (h.putPart { p with times := (h.opNow :: p.times).take 15, state := max 1 p.state, last := h.stamp }).raise 1001
  ((h.modDomain (40 + b) fun d => { d with retained := false, lost := true }).orReg (Adr.PWR_RET_LOST (b / 32)) (BitVec.ofNat 32 (2 ^ (b % 32)))).raise 805

/-- Domains of a wake group become ready; ON DEMAND ones wait for their first access. -/
def Head.groupReady (h : Head) (g : Nat) : Head :=
  let ds := (List.range 162).filter fun d =>
    if d = 141 ∨ d = 157 ∨ d = 158 ∨ d = 159 then g = 0
    else match h.pdoms[d]? with | some e => bitAt 0 e.flags && !bitAt 2 e.flags && e.group == g | none => false
  h.forEach ds fun h d => h.modDomain d fun x => { x with state := 2, stalled := false }

/-- WAKE_GROUP_READY: the first group starts the head, and its retained banks are checked; then the groups follow in order. -/
def Head.wakeGroupReady (h : Head) (group : Nat) (signatures : List (Nat × BitVec 64)) (i : StartInfo) : Head :=
  match h.pwr.waking with
  | none => h
  | some g =>
    if g ≠ group then h
    else
      let early := h.bit Adr.CEL_WAKE_CFG 0
      let next := if early ∧ g < 7 then some (g + 1) else none
      let h :=
        if g ≠ 0 then h
        else
          let warm := h.pwr.state == 3 && !h.cel.ddrLost
          let kept := if warm then h.cel.signatures else []
          let h := h.start h.cel.cause i
          let good := kept.filter fun x => signatures.contains x
          let h := h.forEach good fun h x => h.modDomain (40 + x.1) fun d => { d with retained := true, lost := false }
          h.forEach (kept.filter fun x => !signatures.contains x) fun h x => h.bankLost x.1
      (h.groupReady g).modPwr fun p => { p with waking := if h.fwu.running then next else none }

/-- WAKE_PART_TIMEOUT (R294): a retry, or CELLAR after the fourth failure. -/
def Head.partTimeout (h : Head) (part : Nat) : Head :=
  if h.pwr.waking.isNone ∨ part = 0 ∨ 11 < part then h
  else
    let n := assocGet part 0 h.pwr.attempts + 1
    let h := (h.modPwr fun p => { p with attempts := assocSet part n p.attempts }).modCel fun c => { c with
      part := part, attempts := min 3 (if n < 4 then c.attempts + 1 else c.attempts), fioAlt := if 7 ≤ part then !c.fioAlt else c.fioAlt }
    if n < 4 then h
    else
      let h := h.plainRecord sevCritical 3 (leBytes 1 part ++ leBytes 1 n)
      let q := h.atc.queue.map fun r : AtticRec => { r with flags := r.flags ||| 2 }
      let h := { h with atc := { h.atc with queue := q } }
      let h := h.atticDrain
      let free := h.free
      let h := { h.stopped false with free := free }
      let h := { h with pwr := { h.pwr with state := 4 }, pins := { h.pins with wakeAlert := true }, fwu := { h.fwu with running := false } }
      h.modCel fun c => { c with failed := true, signatures := [] }

/-- Readings that cross a limit: VIN, hold-up, die, shelf or fan (R296). -/
def Head.crossings (h : Head) (r : SamplerReading) : List Bool :=
  let hup := h.fld Adr.CEL_LIMIT_0 27 16
  let fan := h.fld Adr.CEL_LIMIT_1 23 16
  [decide (r.vin01 < h.fld Adr.CEL_LIMIT_0 9 0), decide (hup ≠ 0 ∧ r.hupJ < hup), decide (h.fld Adr.CEL_LIMIT_1 7 0 < r.dieC),
   decide (h.fld Adr.CEL_LIMIT_1 15 8 < r.shelfC ∨ (fan ≠ 0 ∧ r.fan < fan)) || !r.answered]

/-- SAMPLER_TICK (R296). -/
def Head.sample (h : Head) (r : SamplerReading) : Head :=
  if h.pwr.state ≠ 3 ∨ h.pwr.waking.isSome then h
  else
    let l := h.crossings r
    let runs := l.zipIdx.map fun (b, i) => if b then h.cel.runs.getD i 0 + 1 else 0
    let bitsOf := (l.zipIdx.map fun (b, i) => flag b * 2 ^ i).sum
    let h := h.modCel fun c => { c with lastVin := r.vin01, lastDie := r.dieC, crossed := BitVec.ofNat 4 bitsOf, runs := runs }
    if runs.any fun n => orIfZero 1 (h.fld Adr.CEL_SAMPLE_CFG 15 12) ≤ n then h.wake 3 else h

/-! ## Management while asleep (R298) -/

/-- The answer to CELLAR STATUS, 16 bytes. -/
def Head.cellarStatus (h : Head) : Head :=
  if !h.asleep then h
  else h.emit (.smbus (h.regsBytes [Adr.PWR_STATE, Adr.CEL_WAKE_REC, Adr.CEL_LAST_SAMPLE] ++ leBytes 4 h.atc.head))

/-- The WAKE command: cause 0x6 after a wake failure, else 0x1 while `CEL_WAKE_CFG.MGMT` is 1. -/
def Head.mgmtWake (h : Head) : Head :=
  if !h.asleep then h
  else
    let h := h.emit (.smbus [])
    if h.cel.failed then h.wake 6 else if h.bit Adr.CEL_WAKE_CFG 1 then h.wake 1 else h

/-- A transaction at the management address while the management block is off. -/
def Head.mgmtMatch (h : Head) (addr command : Nat) : Head :=
  if !h.asleep ∨ addr ≠ h.fld Adr.CEL_MGMT 6 0 then h
  else if command = 0xE0 then h.cellarStatus
  else if command = 0xE1 then h.mgmtWake
  else
    let h := h.emit .smbusNack
    if h.bit Adr.CEL_WAKE_CFG 1 then h.wake 1 else h

end Sys2Proof.Machine
end

