-- ==== Sys2Proof/Machine/CalOps.lean ====
section
/-!
DEFINITION. Calliope: the rail loops, the governor, plausibility, hold-up energy and the last-breath flush
(14_calliope_power_delivery.md R300 to R314; 17 R371, R378). Loop arithmetic is exact, in mV and A (log 45).
-/

namespace Sys2Proof.Machine

open Sys2Proof

/-! ## Coefficients (R307) -/

/-- Nominal voltage in mV and rated current in A of each rail (R301). -/
def railNominal : List Nat := [750, 800, 850, 900, 1100, 1200]
def railRated : List Nat := [320, 60, 40, 180, 40, 20]

/-- A signed Q16.16 word. -/
def q16 (w : Word) : Rat := mkRat w.toInt 65536

/-- The bank in force; none while the loops run on the boot law. -/
def Cal.active (c : Cal) : Option (List Word) := c.bank.map fun b => if b = 0 then c.bankA else c.bankB

def coef (l : List Word) (i : Nat) : Rat := q16 (l.getD i 0)

/-- Put a value at a place of a list, padding with a default. -/
def setPad {α : Type} (d : α) (i : Nat) (v : α) (l : List α) : List α :=
  (l ++ List.replicate (i + 1 - l.length) d).set i v

/-! ## The control law (R304 to R306) -/

/-- Sample of the cycle in hand; 4,096 and more after the last one of a lengthened cycle. -/
def Head.sampleNo (h : Head) : Nat :=
  let us := h.now - h.whl.slotAt
  h.whl.slot * 16 + (if h.whl.slot < 255 then min 15 us else us)

/-- Feed-forward of a rail: each count of the slot's plan times its coefficient. -/
def feedForward (l : List Word) (r : Nat) (plan : List Int) : Rat :=
  (plan.zipIdx.map fun x : Int × Nat => x.1 * coef l (64 * r + 5 + x.2)).foldl (· + ·) 0

def clampTo (m x : Rat) : Rat := if x < -m then -m else if m < x then m else x

/-- One sample of a rail's loop. -/
def Head.loop (h : Head) (r : Nat) (x : Rail) : Rail :=
  match h.cal.active with
  | none => x
  | some l =>
    let e : Int := railNominal.getD r 0 - x.mv
    let k := h.sampleNo
    let old := x.r.getD k 0
    let lead := (l.getD (64 * r + 4) 0).toNat % 64
    let new := coef l (64 * r + 2) * old + coef l (64 * r + 3) * x.e.getD ((k + lead) % 4096) 0
    let learn := h.cal.learn && !h.cal.stepped && !x.implausible
    let term := if 4096 ≤ k then 0 else if learn then new else old
    let integ := clampTo (railRated.getD r 0) (x.integ + coef l (64 * r + 1) * e)
    let f := if h.cal.ff then feedForward l r h.cal.plan else 0
    { x with
      integ := integ, term := term, u := coef l (64 * r) * e + integ + term + f
      r := if 4096 ≤ k ∨ !learn then x.r else setPad 0 k new x.r
      e := if 4096 ≤ k then x.e else setPad 0 k e x.e }

/-! ## Plausibility (R308) -/

/-- Activity that the load models weigh: operations in flight by class, booths running in proportion to D, rings powered. -/
def Head.activity (h : Head) : List Rat :=
  let ops (c : Nat) : Nat := ((h.pty.bundles.filter fun b => b.cls == c && b.launched.isSome).map fun b => (b.ops.filter (·.status.isNone)).length).sum
  let booths : Rat := mkRat ((h.dp.booths.filter (·.holder.isSome)).length * h.pwr.duty) 16
  let rings : Nat := ((List.range 4).filter fun r => h.pwr.ringsOn.getLsbD r).length
  ((List.range 7).map fun c => (ops c : Rat)) ++ [booths, (rings : Rat)]

/-- A load model: base and nine coefficients from word `at_`. -/
def Head.predict (h : Head) (l : List Word) (at_ : Nat) : Rat :=
  coef l at_ + (h.activity.zipIdx.map fun x : Rat × Nat => x.1 * coef l (at_ + 1 + x.2)).foldl (· + ·) 0

/-- Measured value and prediction differ by more than the tolerance. -/
def Head.strays (h : Head) (measured predicted : Rat) (rated : Nat) : Bool :=
  let d := measured - predicted
  let tol : Rat := mkRat (orIfZero 1 (h.fld Adr.CAL_SUPV 7 0) * rated) 100
  decide (tol < d ∨ d < -tol)

/-- Counts in a row and verdict: implausible after PERSIST samples, plausible again after 4,096. -/
def Head.judge (h : Head) (bad : Bool) (nBad nGood : Nat) (was : Bool) : Nat × Nat × Bool :=
  if bad then (nBad + 1, 0, was || decide (orIfZero 1 (h.fld Adr.CAL_SUPV 23 8) ≤ nBad + 1))
  else (0, nGood + 1, was && decide (nGood + 1 < 4096))

def Head.judgeRail (h : Head) (r : Nat) : Head :=
  match h.cal.active, h.cal.rails[r]? with
  | some l, some x =>
    let bad := h.strays (mkRat x.ma 1000) (h.predict l (64 * r + 15)) (railRated.getD r 0)
    let (b, g, v) := h.judge bad x.bad x.good x.implausible
    let h := h.modCal fun c => { c with rails := c.rails.set r { x with bad := b, good := g, implausible := v } }
    if v ∧ !x.implausible then (h.raise 815).countFault 9 r false else h
  | _, _ => h

def Head.judgeInput (h : Head) (p : PowerSample) : Head :=
  match h.cal.active with
  | none => h
  | some l =>
    if p.vinMv = 0 then h
    else
      let bad := h.strays (mkRat p.powerMw p.vinMv) (h.predict l 384) 20
      let (b, g, v) := h.judge bad h.cal.inputBad h.cal.inputGood h.cal.inputImplausible
      let h' := h.modCal fun c => { c with inputBad := b, inputGood := g, inputImplausible := v }
      if v ∧ !h.cal.inputImplausible then h'.raise 815 else h'

/-- A rail's current as the governor takes it: the prediction plus TOL_PCT while it is implausible. -/
def Head.railPower (h : Head) (r : Nat) : Rat :=
  match h.cal.rails[r]? with
  | none => 0
  | some x =>
    let tol : Rat := mkRat (orIfZero 1 (h.fld Adr.CAL_SUPV 7 0) * railRated.getD r 0) 100
    let amps : Rat := match h.cal.active with
      | some l => if x.implausible then h.predict l (64 * r + 15) + tol else mkRat x.ma 1000
      | none => mkRat x.ma 1000
    amps * x.mv

/-- Input power P in mW: measured, or Σ rail power / 0.875 while the input is implausible. -/
def Head.inputPower (h : Head) (p : PowerSample) : Rat :=
  if h.cal.inputImplausible then ((List.range 6).map h.railPower).foldl (· + ·) 0 * mkRat 1000 875 else p.powerMw

/-! ## The governor (R302, R303) -/

/-- MARGIN_PCT: 1 to 20, other values act as 5; 10 points more while the input is implausible. -/
def Head.marginPct (h : Head) : Nat :=
  let m := h.fld Adr.PWR_GOV 31 24
  (if 1 ≤ m ∧ m ≤ 20 then m else 5) + (if h.cal.inputImplausible then 10 else 0)

/-- Raise a source at most once a beat. -/
def Head.oncePerBeat (h : Head) (s : Nat) (last : Option Nat) (note : Pwr → Pwr) : Head :=
  if last = some h.whl.beat then h else (h.raise s).modPwr note

/-- The level of duty and rings alone. -/
def Pwr.levelOf (p : Pwr) : Nat := if p.govGated ≠ 0 then 2 else if p.duty < 16 then 1 else 0

/-- Report a level; HOLD raises source 809 with a NOTICE record. -/
def Head.setLevel (h : Head) (n : Nat) : Head :=
  if n = h.pwr.level then h
  else
    let h := h.modPwr fun p => { p with level := n }
    let h := h.oncePerBeat 808 h.pwr.levelBeat fun p => { p with levelBeat := some h.whl.beat }
    h.when (n == 3) fun h => h.report 809 sevNotice []

/-- The level after a change of duty or rings; HOLD and FLUSH stay. -/
def Head.relevel (h : Head) : Head := if 3 ≤ h.pwr.level then h else h.setLevel h.pwr.levelOf

/-- The governor at a sample: D falls while P exceeds the budget or the die is hot. -/
def Head.govern (h : Head) (power : Rat) : Head :=
  let budget : Rat := mkRat (h.pwr.envMw * (100 - h.marginPct)) 100
  let high := decide (budget < power) || h.pwr.hot
  let back := decide (budget - mkRat (h.pwr.envMw * 5) 100 < power) || h.pwr.hot
  let h := h.modPwr fun p => { p with
    overB := p.overB || high, overBack := p.overBack || back, duty := if high then p.duty - 1 else p.duty }
  let h := h.relevel
  h.when h.pwr.hotHold fun h => if h.pwr.level = 4 then h else h.setLevel 3

/-- Rings that run: powered and not gated. -/
def Head.runningRings (h : Head) : List Nat :=
  (List.range 4).filter fun r => h.pwr.ringsOn.getLsbD r && !h.pwr.govGated.getLsbD r

/-- The governor gates a ring, without touching PWR_STATE. -/
def Head.gateRing (h : Head) (r : Nat) : Head := ((h.ringDown r).modPwr fun p => { p with govGated := p.govGated ||| ringBit r }).relevel

/-- The governor lets a ring run again; it is powered unless TRIM or DOZE gates it. -/
def Head.ungateRing (h : Head) (r : Nat) : Head :=
  let h := h.modPwr fun p => { p with govGated := p.govGated &&& ~~~ringBit r }
  (if h.pwr.state = 0 ∨ h.pwr.ringsKept.getLsbD r then h.ringUp r else h).relevel

/-- One step back of the governor: HOLD is left; else one gated ring, the lowest, is woken when D is full; else D rises by 2/16. -/
def Head.stepBack (h : Head) : Head :=
  if h.pwr.level = 3 then (if h.pwr.hotHold then h else h.setLevel h.pwr.levelOf)
  else if h.pwr.duty < 16 then (h.modPwr fun p => { p with duty := min 16 (p.duty + 2) }).relevel
  else
    match (List.range 4).find? fun r => h.pwr.govGated.getLsbD r with
    | some r => h.ungateRing r
    | none => h

/-- The governor at a beat edge (R302). -/
def Head.governBeat (h : Head) : Head :=
  let h' :=
    if h.pwr.level = 4 then h
    else if h.pwr.overB then
      (match h.runningRings.getLast? with
       | none => h.setLevel 3
       | some r => if h.pwr.duty ≤ 4 then h.gateRing r else h)
    else if !h.pwr.overBack then h.stepBack else h
  h'.modPwr fun p => { p with overB := false, overBack := false, ilim := p.ilim && p.ilimBeat.map (· + 1) == some h.whl.beat }

/-! ## Temperature (R378) -/

def Head.temperature (h : Head) (p : PowerSample) : Head :=
  let n := if 108 ≤ p.dieC then h.pwr.run108 + 1 else 0
  let hot := decide (100 ≤ p.dieC) || (h.pwr.hot && decide (97 ≤ p.dieC))
  let hold := decide (1000 ≤ n) || (h.pwr.hotHold && decide (100 ≤ p.dieC))
  let was := h.pwr.hotHold
  let h := h.modPwr fun w => { w with dieC := p.dieC, sensor := p.sensor, run108 := n, hot := hot, hotHold := hold }
  let h := h.when (decide (100 ≤ p.dieC)) fun h => h.oncePerBeat 821 h.pwr.hotBeat fun w => { w with hotBeat := some h.whl.beat }
  h.when (hold && !was) fun h => h.raise 822

/-! ## A sample -/

/-- The swap of the coefficient banks at a sample boundary (R307). -/
def Head.swapNow (h : Head) : Head :=
  if !h.cal.swapPending then h
  else (h.modCal fun c => { c with swapPending := false, bank := some (if c.bank = some 0 then 1 else 0) }).raise 816

/-- A rail's measurement and its loop. -/
def Head.railSample (h : Head) (p : PowerSample) (r : Nat) (x : Rail) : Rail :=
  let mv := p.railMv.getD r x.mv
  let good := decide (railNominal.getD r 0 * 95 ≤ mv * 100 ∧ mv * 100 ≤ railNominal.getD r 0 * 105)
  h.loop r { x with mv := mv, ma := p.railMa.getD r x.ma, inReg := good }

/-- One 1 µs sample of the rails, the input and the dies (R300 to R308, R378). -/
def Head.powerSample (h : Head) (p : PowerSample) : Head :=
  let h := h.swapNow
  let h := h.modPwr fun w => { w with vinMv := p.vinMv, envMw := min 420000 (p.vinMv * 35 / 2) }
  let h := h.when p.clamped fun h =>
    (h.modPwr fun w => { w with ilim := true }).oncePerBeat 810 h.pwr.ilimBeat fun w => { w with ilimBeat := some h.whl.beat }
  let h := h.modCal fun c => { c with vhMv := p.vhMv, rails := c.rails.zipIdx.map fun x => h.railSample p x.2 x.1 }
  let h := (h.forEach (List.range 6) Head.judgeRail).judgeInput p
  let h := h.temperature p
  h.govern (h.inputPower p)

/-- A limit of R369 that a sample shows exceeded. -/
def limitsExceeded (p : PowerSample) : Bool :=
  decide (65000 < p.vinMv ∨ 65000 < p.vhMv ∨ 125 < p.dieC)

/-! ## Hold-up energy (R309, R310, R371) -/

/-- Square root, rounded down, of a number below 4^n. -/
def isqrt (n v : Nat) : Nat :=
  (List.range n).foldl (fun r i => let t := r + 2 ^ (n - 1 - i); if t * t ≤ v then t else r) 0

/-- Ports of this head that reach a landing shelf with a vault zone group: six HEALTHY modules. -/
def Head.vaultPorts (h : Head) : List Nat :=
  ((h.shelvesOn.filter fun s => h.landing s && decide (6 ≤ (h.healthy s).length)).map h.shelfPort).dedup

/-- R_v in bytes a second. -/
def Head.vaultRate (h : Head) : Nat :=
  (h.vaultPorts.map fun p => portRate (h.shf.port p).width (h.shf.port p).speed).sum * 10000000 * 2 / 3

/-- Chunks of a flush: dirty staging of the troupes this head flies. -/
def Head.flushChunks (h : Head) : List Staged :=
  h.dp.staged.filter fun s => s.dirty && !s.mirror && s.uid.isSome && h.flies s.troupe

/-- Orders of a flush: records of the beats of the troupes this head flies. -/
def Head.flushOrders (h : Head) : List OrderRec :=
  h.flown.flatMap fun t => ((h.pair.trp t).beats.flatMap (·.records)) ++ (h.pair.trp t).openRecs

/-- Bytes of F besides dirty staging: orders, and journal entries held only in HBM. -/
def Head.flushRest (h : Head) : Nat :=
  (h.flushOrders.map fun r => r.encode.length).sum +
    (h.flown.map fun t => if h.journalOps t = [] then h.pty.jrnUsed t else 0).sum

/-- The flush volume F (R310). -/
def Head.flushVolume (h : Head) : Nat := (h.flushChunks.map (·.bytes.length)).sum + h.flushRest

/-- The limit of R279 on dirty staging, in MiB. -/
def Head.baseLimitMib (h : Head) : Nat := if h.memc.hbm.any (·.mappedOut ≠ []) then min 16384 (h.stagingMib / 2) else 16384

/-- HOLDUP_UPDATE (R309, R310, R371). -/
def Head.holdupUpdate (h : Head) (vhMv : Nat) : Head :=
  let low := if vhMv < 5000 ∧ 12000 ≤ h.pwr.vinMv then h.pwr.hupLow + 1 else 0
  let open_ := decide (10 ≤ low)
  let h := h.when (open_ && !h.pwr.hupOpen) fun h => h.raise 819
  let h := h.modPwr fun p => { p with hupLow := low, hupOpen := open_ }
  let mf := h.fld Adr.CAL_HUP_CFG 15 0
  let h := h.when (mf == 0 && !h.cal.noHoldup) fun h => (h.modCal fun c => { c with noHoldup := true }).raise 819
  let m := h.fld Adr.CAL_HUP_CFG 23 16
  let margin := if 100 ≤ m ∧ m ≤ 250 then m else 125
  let rate := h.vaultRate
  let watts := if h.boothsActive < 32 then 60 else 70
  let need := if rate = 0 then 6553500 else watts * 4 + watts * 1000 * (h.cal.volume + 268435456) / rate
  let avail := if open_ then 0 else mf * (vhMv * vhMv - 36000000) / 2000000
  let trig := if mf = 0 ∨ open_ then 0 else isqrt 24 (36000000 + 2 * need * margin * 10000 / mf)
  let h := h.modCal fun c => { c with vhMv := vhMv, availMj := avail, needMj := need, trigMv := trig }
  h.modMemc fun x => { x with dirtyLimitMib := min h.baseLimitMib ((rate * 96 / 1000 - h.flushRest) / 1048576) }

/-! ## The last-breath flush (R311, R312) -/

/-- Steps 1 and 2: booths stop and their work is abandoned, the ports close, controllers end, the peer is told; the chunks of F that
are not in the vault zones yet are made ready to be written. -/
def Head.startFlush (h : Head) (early : Bool) : Head :=
  let h := (h.modCal fun c => { c with flush := 1, flushCause := if early then 2 else 1, flushAt := h.now, vault := some ([], [], []) }).raise 811
  let h := h.when h.pair.icl fun h => h.emit (.control (.flush h.pair.a.digestBeat h.pair.b.digestBeat))
  let h := h.setLevel 4
  let h := h.forEach (h.hqe.ctrls.map (·.cntlid)) Head.endController
  let h := h.forEach ((h.hqe.ctxs ++ h.hqe.holdCtxs).map (·.id)) fun h n => (h.dropWrite n).endCtx n
  let h := h.modHqe fun q => { q with portsUp := 0 }
  let h := h.modDp fun d => { d with tasks := [], pchunks := [], booths := d.booths.map fun b => { b with streams := [], holder := none }
                                     staged := d.staged.filter fun s => s.mirror || s.uid.isSome }
  let h := h.modPwr fun p => { p with entry := none, ringsOn := 0 }
  let h := h.modPair fun p => { p with icl := false }
  h.forEach (h.flushChunks.filter fun s => !s.vaulted && !h.pty.bundles.any fun b => b.kind == .vault s.handle) fun h s =>
    let (shelf, a, _) := h.journalHome s.troupe
    h.addBundle (.vault s.handle) clsLand s.troupe shelf 0 0xFFFF [(0xFF, a)]

/-- Every vault write of a flush has reported. -/
def Head.flushWritten (h : Head) : Bool := h.cal.flush == 1 && !h.pty.bundles.any fun b => match b.kind with | .vault _ => true | _ => false

/-- The head falls to CELLAR with a cause; its HOLD lines drop. -/
def Head.toCellar (h : Head) (cause : Nat) : Head :=
  let h := h.atticDrain
  let h := h.modPair fun p => { p with hold := 0, confirmed := 0 }
  let free := h.free
  let h := { h.stopped false with free := free }
  { h with
    pwr := { h.pwr with state := 4, waking := none, entry := none }
    fwu := { h.fwu with running := false }
    cel := { h.cel with cause := cause, ddrLost := true, signatures := [], runs := [0, 0, 0, 0]
                        vinLoss := decide (cause = 7), tripped := decide (cause = 8), tripRaised := false } }

/-- Step 5: the header unit, the record with the duration, source 812, and CELLAR with cause 0x7. -/
def Head.endFlush (h : Head) : Head :=
  let chunks := h.flushChunks.map (·.handle)
  let beats := h.flown.map fun t => (troupeBit t, (h.pair.trp t).digestBeat)
  let dur := (h.now - h.cal.flushAt) / 10
  let orders := h.flushOrders
  let h := h.modCal fun c => { c with flush := 2, vault := if beats = [] then none else some (beats, chunks, orders) }
  let h := h.modDp fun d => { d with staged := d.staged.map fun s => if chunks.contains s.handle then { s with vaulted := true } else s }
  let h := (h.modCel fun c => { c with flushMs := min 0xFFFF dur }).report 812 sevCritical (leBytes 2 dur)
  h.toCellar 7

/-- A flush that has been written ends, and what memory CELLAR does not keep goes. -/
def State.flushIfWritten (s : State) : State :=
  if s.head.flushWritten then { s with head := s.head.endFlush, mem := keptMemory 4 s.mem } else s

end Sys2Proof.Machine
end

