-- ==== Sys2Proof/Machine/Calliope.lean ====
section
/-!
DEFINITION. Commands of power delivery, Calliope and the die temperature (14_calliope_power_delivery.md; 17 R369, R378).
-/

namespace Sys2Proof.Machine

open Sys2Proof

/-- POWER_SAMPLE (R302): one 1 µs sample. Beyond a limit of R369 the head guarantees no behaviour. -/
def execPowerSample (p : PowerSample) (s : State) : Host.Outcome State Fault Refusal :=
  if limitsExceeded p then .fault .limitExceeded
  else s.act fun h => if h.awake then (h.modStg fun g => { g with tripping := p.tripping }).powerSample p else h

/-- RAIL_OUT_OF_REGULATION (R301): VCC is the core rail that the HOLD keeper watches (R252). -/
def execRailOutOfRegulation (rail : Nat) (s : State) : Host.Outcome State Fault Refusal :=
  s.act fun h =>
    match h.cal.rails[rail]? with
    | none => h
    | some x =>
      let h := h.modCal fun c => { c with rails := c.rails.set rail { x with inReg := false } }
      let h := h.when (rail == 1) Head.keeperDrop
      (h.report 814 sevFault (leBytes 1 rail)).countFault 9 rail false

/-- CAL_SWAP (R307): refused when the CRC of the bank that would come into force fails; ignored while a swap is pending. -/
def Head.calSwap (h : Head) : Head :=
  let next := if h.cal.bank = some 0 then h.cal.bankB else h.cal.bankA
  if h.cal.swapPending then h
  else if bankOk next then h.modCal fun c => { c with swapPending := true }
  else h.raise 817

def execCalSwap (s : State) : Host.Outcome State Fault Refusal := s.act fun h => h.calSwap

/-- CAL_COEF_WRITE (R307, R349): a word of the bank that is not in force. -/
def Head.coefWrite (h : Head) (value : Word) : Head :=
  let w := h.fld Adr.CAL_COEF_ADDR 8 0
  h.modCal fun c => if c.bank = some 0 then { c with bankB := c.bankB.set w value } else { c with bankA := c.bankA.set w value }

def execCalCoefWrite (value : Word) (s : State) : Host.Outcome State Fault Refusal := s.act fun h => h.coefWrite value

/-- HOLDUP_UPDATE (R309). -/
def execHoldupUpdate (vhMv : Nat) (s : State) : Host.Outcome State Fault Refusal :=
  if 65000 < vhMv then .fault .limitExceeded else s.act fun h => if h.awake then h.holdupUpdate vhMv else h

/-- FLUSH_TRIGGER (R311): the energy trigger is off with CAP_MF 0 or HUP_SENSE unconnected, the early warning with EW_V 0. A flush with
nothing to write ends at once. -/
def execFlushTrigger (earlyWarning : Bool) (s : State) : Host.Outcome State Fault Refusal :=
  let h := s.head
  let armed := if earlyWarning then h.fld Adr.CAL_EW 9 0 != 0 else h.fld Adr.CAL_HUP_CFG 15 0 != 0 && !h.pwr.hupOpen
  if h.awake ∧ armed ∧ h.cal.flush ≠ 1 then .next { s with head := h.startFlush earlyWarning }.flushIfWritten else .next s

/-- Thermal trip: the keeper drops the lines, and the head falls to CELLAR with cause 0x8; the cellar writes the CRITICAL record. -/
def Head.thermalTrip (h : Head) : Head :=
  let h := h.keeperDrop
  let h := h.unlisted sevCritical []
  let q := h.atc.queue.zipIdx.map fun (r, i) => if i + 1 = h.atc.queue.length then { r with flags := r.flags ||| 2 } else r
  let h := { h with atc := { h.atc with queue := q } }
  h.toCellar 8

/-- THERMAL_TRIP (R378). -/
def execThermalTrip (s : State) : Host.Outcome State Fault Refusal :=
  if s.head.awake then .next { s with head := s.head.thermalTrip, mem := keptMemory 4 s.mem } else .next s

end Sys2Proof.Machine
end

