-- ==== Sys2Proof/Machine/TokenOps.lean ====
section
/-!
DEFINITION. The Strongroom: owner tokens, sealing, the pair key, salts, alarms and the crypto erase (06_cipher_and_strongroom.md R123 to
R130, R140 to R144; 07 R157).
-/

namespace Sys2Proof.Machine

open Sys2Proof

/-! ## The mailbox and the token (R126, R127) -/

/-- The 64 bytes of the mailbox. -/
def Head.mailbox (h : Head) : Bytes := (List.range 16).flatMap fun n => leBytes 4 (h.reg (Adr.STG_TOKEN n)).toNat

/-- The mailbox is zeroed after every submission; the result is kept. -/
def Head.mailboxDone (h : Head) (result : Nat) : Head :=
  (h.forEach (List.range 16) fun h n => h.setReg (Adr.STG_TOKEN n) 0).modStg fun s => { s with result := result }

/-- Fields of a token. -/
def tokenOp (tok : Bytes) : Nat := leAt 4 2 tok
def tokenSeq (tok : Bytes) : Nat := leAt 0x10 8 tok
def tokenArg0 (tok : Bytes) : Nat := leAt 0x18 4 tok
def tokenArg1 (tok : Bytes) : Nat := leAt 0x1C 4 tok

/-- Check 0x01: MAGIC, OP, reserved bytes, arguments listed as 0 and argument bits that the table does not name. -/
def tokenMalformed (tok : Bytes) : Bool :=
  let op := tokenOp tok
  let a0 := tokenArg0 tok
  let a1 := tokenArg1 tok
  decide (tok.length ≠ 64 ∨ leAt 0 4 tok ≠ 0x544E574F ∨ leAt 6 2 tok ≠ 0 ∨ op = 0 ∨ 0x0B < op) ||
    (if op = 2 ∨ op = 3 ∨ op = 0x0B then a1 != 0
     else if op = 4 then decide (4096 ≤ a0 ∨ 65536 ≤ a1)
     else a0 != 0 || a1 != 0)

/-- No domain writes through the slot. -/
def Stg.unwritten (s : Stg) (n : Nat) : Bool := !s.map.any fun (_, w, _) => w == n

/-- Check 0x05: the operation is allowed in the present state. Slots out of range are left to check 0x06. -/
def Head.tokenState (h : Head) (op a0 a1 : Nat) : Bool :=
  let ok (n : Nat) : Bool := decide (h.keySlots ≤ n) || h.stg.active n
  match op with
  | 1 => h.stg.tripping == 0
  | 2 => h.stg.unsealed && (decide (h.keySlots ≤ a0) || ((h.stg.slot a0).state == 0 && decide ((h.stg.slot a0).epoch < 2 ^ 24 - 1)))
  | 3 => decide (h.keySlots ≤ a0) || h.stg.unwritten a0
  | 4 => ok (a1 % 256) && (decide (a1 / 256 = 0xFF) || ok (a1 / 256))
  | _ => true

/-- Check 0x06: named arguments lie in their range; WRITE_SLOT and NEXT_SLOT differ (R124). -/
def Head.tokenRange (h : Head) (op a0 a1 : Nat) : Bool :=
  match op with
  | 2 | 3 => decide (a0 < h.keySlots)
  | 4 => decide (a1 % 256 < h.keySlots) && (decide (a1 / 256 = 0xFF) || decide (a1 / 256 < h.keySlots ∧ a1 / 256 ≠ a1 % 256))
  | 0x0B => decide (1 ≤ a0 ∧ a0 ≤ 60)
  | _ => true

/-- Check 0x07: KEY CREATE, KEY DESTROY and DOMAIN MAP are written to both heads. -/
def Head.tokenPeer (h : Head) (op : Nat) : Bool := (op != 2 && op != 3 && op != 4) || h.pair.icl

/-- The result code of a token (R127). -/
def Head.judgeToken (h : Head) (tok : Bytes) : Nat :=
  let op := tokenOp tok
  if tokenMalformed tok then 1
  else
    match h.stg.owner with
    | none => 5
    | some key =>
      if hmac256 key (tok.take 32) ≠ slice 32 32 tok then 2
      else if tokenSeq tok ≤ h.stg.lastSeq then 3
      else if leAt 8 8 tok ≠ h.fuse.serial.toNat then 4
      else if !h.tokenState op (tokenArg0 tok) (tokenArg1 tok) then 5
      else if !h.tokenRange op (tokenArg0 tok) (tokenArg1 tok) then 6
      else if !h.tokenPeer op then 7
      else 0

/-! ## Sealing, salts (R129, R140) -/

/-- Unwrap every key record into its slot, in the state that the record holds, and the salt table; source 869. -/
def Head.unsealNow (h : Head) : Head :=
  if h.stg.unsealed then h
  else (h.modStg fun s => { s with unsealed := true, slots := s.slots.map fun x => if x.record = 0 then x else { x with state := x.record } }).raise 869

/-- Send the peer's Strongroom a record; the link reports it present. -/
def Head.tellStrongroom (h : Head) (m : ControlMsg) : Head := h.when h.pair.icl fun h => h.emit (.control m)

/-- Draw the salts that enabled domains with VERIFY ≠ 0 name and that do not exist; each is sent to the peer and waits for its
confirmation. -/
def Head.createSalts (h : Head) : Head :=
  let want := (((h.tsi.sections.domain.getD []).filter fun e => e.enable != 0 && e.verify != 0).map (·.saltIndex)).dedup
  h.forEach (want.filter fun i => !h.stg.salts.any (·.1 == i)) fun h i =>
    let bs := h.freeBytes 32
    ((h.modStg fun s => { s with salts := s.salts ++ [(i, bs)], saltWait := s.saltWait ++ [i] }).spend).tellStrongroom (.salt i bs)

/-- A salt of the peer is written and confirmed. Where both heads have drawn one, that of head 0 stands (DESIGN CHOICE, log 37). -/
def Head.peerSalt (h : Head) (i : Nat) (bs : Bytes) : Head :=
  if h.stg.saltWait.contains i ∧ h.headId = 0 then h
  else
    (h.modStg fun s => { s with salts := assocSet i bs s.salts, saltWait := s.saltWait.filter (· != i) }).tellStrongroom (.saltConfirm i)

/-! ## Alarms (R141, R142) -/

/-- Channels of the digest engine at an alarm (R157). -/
def Chan.keyed (c : Chan) : Bool := c.state != 0 && (c.mode == 1 || c.wrapped)

def Chan.alarmed (c : Chan) : Chan :=
  if c.keyed then { c with state := 6, code := 7, words := [], part := [], digest := [], run := none, lastWord := none, key := [] }
  else { c with key := [] }

/-- Keyed channels enter ERROR with code 0x7; every key register is zeroed. -/
def Head.dgtAlarm (h : Head) : Head :=
  let bad := (h.dgt.chans.filter Chan.keyed).map (·.ch)
  let h := { h with dgt := { h.dgt with chans := h.dgt.chans.map Chan.alarmed } }
  let h := h.forEach bad fun h n => (h.orReg (Adr.DGT_CH_STATUS n) 0x400).raise 880
  h.forEach (List.range 4) fun h n => h.forEach (List.range 32) fun h k => h.setReg (Adr.DGT_KEY n k) 0

/-- A Write has data that is not encrypted yet. -/
def Head.unencrypted (h : Head) (c : Ctx) : Bool :=
  decide (c.got < c.cap.required) || !c.openBytes.isEmpty || h.dp.pchunks.any fun p => p.ctx == c.id && !p.sealed

/-- Commands in hand at an alarm: Reads, Compares and Writes with chunks not encrypted complete with status 0x82. -/
def Head.lockCommands (h : Head) : Head :=
  let locked (c : Ctx) : Head → Head := fun h =>
    let d := ((h.hqe.ns? c.cap.nsid).map (·.domain)).getD 0
    ((h.complete c stLocked d).dropTasks c.id).dropWrite c.id
  let run := h.hqe.ctxs.filter fun c => !c.admin && (c.phase == .running || c.phase == .ready || c.phase == .fence)
  h.forEach run fun h c =>
    if c.cap.opcode = opRead ∨ c.cap.opcode = opCompare ∨ (c.cap.opcode = opWrite ∧ h.unencrypted c) then locked c h else h

/-- The Strongroom alarm (R142): clear keys, context key and pair key are zeroed, slots with a record are SEALED, ALARM_LATCH is set;
source 864 with a CRITICAL record of STG_ALARM; commands end; Flyer troupes are handed over while ALARM_HANDOVER is 1. -/
def Head.alarm (h : Head) (cause : Nat) : Head :=
  let bit := BitVec.ofNat 5 (2 ^ cause)
  let h := h.orReg Adr.STG_ALARM (BitVec.ofNat 32 (2 ^ cause))
  let h := h.modStg fun s => { s with
    unsealed := false, alarmLatch := true, ctxKey := [], pairKey := none, leases := []
    tripping := if cause = 4 then s.tripping else s.tripping ||| bit
    slots := s.slots.map fun x => { x with state := if x.record = 0 then 0 else 1 } }
  let h := h.dgtAlarm
  let h := h.report 864 sevCritical (h.regBytes Adr.STG_ALARM)
  let h := h.lockCommands
  let h := h.forEach h.cmp.segs Head.endSeg
  let h := h.forEach (h.dp.tasks.filter fun t => match t.purpose with | .compare _ | .verify => true | _ => false) fun h t => h.endLocked t
  h.when (h.bit Adr.STG_CTRL 0) fun h => h.forEach h.flown fun h t => h.handAway t false false

/-! ## Crypto erase (R144) -/

/-- Step 2: I/O commands end with Sanitize In Progress; staging, the vault, the pending table, the filters and every context go. -/
def Head.discardAll (h : Head) : Head :=
  let io := h.hqe.ctxs.filter fun c => !c.admin && c.inFlight
  let h := h.forEach io fun h c => ((h.complete c stSanitizing 0).dropTasks c.id).dropWrite c.id
  let h := h.forEach (h.pty.stripes.filter fun s => s.phase != .committed && s.phase != .voided) fun h s =>
    h.modStripe s.number fun s => { s with phase := .voided }
  let h := h.modPty fun p => { p with rows := [], bundles := p.bundles.filter fun b => match b.kind with
    | .append _ | .vault _ | .chunkRead _ | .rebuildRead _ | .pageRead _ _ | .relocRead _ _ _ => false | _ => true }
  let h := h.modDp fun d => { d with
    pchunks := [], staged := [], tasks := [], booths := d.booths.map fun b => { b with streams := [], holder := none, outUsed := 0, stalled := false } }
  let h := h.modLdr fun l => { l with larder := [], far := [], stash := [], pending := [], cached := [], fetching := [], dirtyPages := [] }
  let h := h.modCal fun c => { c with vault := none }
  { h with cmp := { h.cmp with segs := [] } }

/-- Step 3: every clear key, key record and salt is destroyed; phase 2. Slots remember that they held a key, for step 4. -/
def Head.destroyKeys (h : Head) : Head :=
  h.modStg fun s => { s with
    sanPhase := 2, leases := [], salts := s.salts.map fun x => (x.1, [])
    slots := s.slots.map fun x => { x with state := 0, key := [], c := 0, w := 0, warn := false, retiring := false } }

/-- Steps 1 to 3, with source 872 and its CRITICAL record; the peer is told unless it asked. -/
def Head.eraseStart (h : Head) (tell : Bool) : Head :=
  let h := h.modStg fun s => { s with
    sanGen := (s.sanGen + 1) % 65536, sanPhase := 1, erasing := true, peerErasing := tell && h.pair.icl, sanStatus := 1 }
  let h := h.when (tell && h.pair.icl) fun h => h.emit (.control .sanitize)
  let h := h.report 872 sevCritical []
  h.discardAll.destroyKeys

/-- Step 4: a new key with the next epoch for every slot that held one, in the same state; an exhausted slot stays EMPTY. New salts. -/
def Head.recreateKeys (h : Head) : Head :=
  let h := h.forEach (h.stg.slots.filter (·.record != 0)) fun h x =>
    if x.epoch < 2 ^ 24 - 1 then
      (h.modSlot x.slot fun y => { y with epoch := y.epoch + 1, key := h.freeBytes 32, state := if h.stg.unsealed then y.record else 1 }).spend
    else h.modSlot x.slot fun y => { y with record := 0 }
  h.forEach (h.stg.salts.map (·.1)) fun h i => (h.modStg fun s => { s with salts := assocSet i (h.freeBytes 32) s.salts }).spend

/-- Step 5: maps and indexes are empty; the space of every chunk is free; phase 0. -/
def Head.emptyMaps (h : Head) : Head :=
  let h := h.forEach (h.dp.chunks.filter fun c => !c.released) fun h c => h.freeGroup c.stripe c.reducedLen
  let h := h.modDp fun d => { d with extents := [], chunks := [] }
  let h := h.modMnd fun m => { m with loss := [], relocate := [] }
  h.modStg fun s => { s with sanPhase := 0, erasing := false }

/-- Source 873 once both heads have reached step 5. -/
def Head.eraseEnded (h : Head) : Head :=
  if h.stg.erasing ∨ h.stg.peerErasing ∨ h.stg.sanStatus ≠ 1 then h
  else (h.modStg fun s => { s with sanStatus := 2 }).raise 873

/-- The rest of a crypto erase from its recorded phase. -/
def Head.eraseFinish (h : Head) : Head :=
  if !h.stg.erasing then h
  else
    let h := h.when (h.stg.sanPhase == 1) fun h => h.discardAll.destroyKeys
    let h := h.recreateKeys.emptyMaps
    let h := h.when h.pair.icl fun h => h.emit (.control .sanitizeDone)
    h.eraseEnded

/-! ## What tokens do (R128) -/

/-- A new key of a slot: 256 random bits, the next epoch, ACTIVE; the peer's Strongroom is sent it. -/
def Head.createKey (h : Head) (n : Nat) : Head :=
  let k := h.freeBytes 32
  let e := (h.stg.slot n).epoch + 1
  ((h.modSlot n fun x => { slot := x.slot, state := 2, record := 2, epoch := e, key := k }).spend).tellStrongroom (.keyRecord n 2 e k)

/-- A destroyed slot keeps its epoch. -/
def Head.dropKey (h : Head) (n : Nat) : Head :=
  (h.modSlot n fun x => { slot := x.slot, epoch := x.epoch }).modStg fun s => { s with leases := s.leases.filter (·.slot != n) }

/-- KEY DESTROY on both heads. -/
def Head.destroyKey (h : Head) (n : Nat) : Head := (h.dropKey n).tellStrongroom (.keyRecord n 0 (h.stg.slot n).epoch [])

/-- A key record of the peer (R128, R130, R132): a new key, SEALED on a sealed head; a destroyed one; or one that has reached retirement on the
peer, whose values this head no longer uses. -/
def Head.peerKeyRecord (h : Head) (n st e : Nat) (k : Bytes) : Head :=
  let now (x : Nat) : Nat := if h.stg.unsealed then x else 1
  if st = 2 then h.modSlot n fun x => { slot := x.slot, state := now 2, record := 2, epoch := e, key := k }
  else if st = 3 then
    if (h.stg.slot n).record ≠ 2 ∨ (h.stg.slot n).epoch ≠ e then h
    else ((h.retireLease n).modStg fun s => { s with leases := s.leases.filter (·.slot != n) }).modSlot n fun x => { x with state := now 3, record := 3 }
  else if st = 0 then h.dropKey n
  else h

/-- The domain key map entry of a domain; (0xFF, 0xFF) is not listed. -/
def Head.mapDomain (h : Head) (d w n : Nat) : Head :=
  h.modStg fun s =>
    let rest := s.map.filter (·.1 != d)
    { s with map := if w = 0xFF ∧ n = 0xFF then rest else rest ++ [(d, w, n)] }

/-- The operation of an accepted token. -/
def Head.runToken (h : Head) (tok : Bytes) : Head :=
  let a0 := tokenArg0 tok
  let a1 := tokenArg1 tok
  match tokenOp tok with
  | 1 => (h.modStg fun s => { s with alarmLatch := false }).unsealNow.createSalts
  | 2 => h.createKey a0
  | 3 => h.destroyKey a0
  | 4 => (h.mapDomain a0 (a1 % 256) (a1 / 256)).tellStrongroom (.mapEntry a0 (a1 % 256) (a1 / 256))
  | 5 => h.modStg fun s => { s with ownerLock := true }
  | 6 => h.modStg fun s => { s with ownerLock := false }
  | 7 => h.clearAttic (tokenSeq tok)
  | 8 => h.modTsi fun t => { t with retired := [] }
  | 9 => h.alarm 4
  | 0xA => ((h.eraseStart false).eraseFinish).modStg fun s => { s with owner := none, lastSeq := 0, ownerLock := false, alarmLatch := false, sanGen := 0 }
  | 0xB => h.modStg fun s => { s with armedUntil := some (h.now + a0 * 60000000) }
  | _ => h

/-- Give a token to the Strongroom: its result. A rejected one raises source 868 with a NOTICE record, and an Attic clear also source
998 (R332). -/
def Head.giveToken (h : Head) (tok : Bytes) : Head × Nat :=
  let code := h.judgeToken tok
  if code = 0 then ((h.modStg fun s => { s with lastSeq := tokenSeq tok }).runToken tok, 0)
  else
    let h := h.report 868 sevNotice (leBytes 2 (tokenOp tok) ++ leBytes 1 code)
    (h.when (tokenOp tok == 7) fun h => h.raise 998, code)

/-- A SUBMIT of the mailbox. -/
def Head.submit (h : Head) : Head :=
  let (h, code) := h.giveToken h.mailbox
  h.mailboxDone code

/-- A SUBMIT for one operation's row: the mailbox holds a token with that OP. -/
def Head.submitOp (h : Head) (op : Nat) : Head := if tokenOp h.mailbox = op ∧ h.awake then h.submit else h

/-- TAKE_OWNERSHIP (R126). -/
def Head.takeOwnership (h : Head) : Head :=
  match h.stg.owner with
  | some _ => h.mailboxDone 5
  | none =>
    let key := h.mailbox.take 32
    (h.modStg fun s => { s with owner := some key }).mailboxDone 0

/-! ## The pair key (R130) -/

/-- Records that a returning head takes from its peer. -/
def Head.takeRecords (h : Head) (p : PeerRecords) : Head :=
  let h := h.forEach p.slots fun h x =>
    (h.modSlot x.1 fun y => { slot := y.slot, epoch := x.2.2, record := if x.2.1 = 1 then (if y.record = 0 then 2 else y.record) else x.2.1,
                              state := if x.2.1 = 0 then 0 else if h.stg.unsealed then x.2.1 else 1, key := h.freeBytes 32,
                              c := y.c, w := y.w, warn := y.warn, retiring := y.retiring }).spend
  h.modStg fun s => { s with map := p.map, salts := p.salts, saltWait := [], sanGen := max s.sanGen p.sanitizeGen }

/-- PAIR_KEY_AGREEMENT: a failed proof keeps the head out of the pair. A returning head, which flies no troupe, takes the peer's records
where they differ, and first destroys its own when its sanitize generation is lower. -/
def Head.agree (h : Head) (p : PeerRecords) : Head :=
  if !h.pair.icl ∨ h.stg.owner.isNone then h
  else if !p.proofOk then (h.modStg fun s => { s with pairKey := none }).report 874 sevFault []
  else
    let h := (h.modStg fun s => { s with pairKey := some (h.freeBytes 32), saltWait := [] }).spend
    let behind := decide (h.stg.sanGen < p.sanitizeGen)
    let h := h.when behind fun h => h.modStg fun s => { s with salts := [], map := [], leases := [], slots := s.slots.map fun x => { slot := x.slot, epoch := x.epoch } }
    if h.flown = [] ∧ (behind ∨ !p.digestEqual) then h.takeRecords p else h

end Sys2Proof.Machine
end

