-- ==== Sys2Proof/Machine/Cipher.lean ====
section
/-!
DEFINITION. Commands of the cipher engines and the Strongroom (06_cipher_and_strongroom.md).
-/

namespace Sys2Proof.Machine

open Sys2Proof

/-- CHUNK_DECODE_DONE (R134 to R137; 05 R118 to R121). -/
def execChunkDecodeDone (task : Nat) (r : DecodeResult) (s : State) : Host.Outcome State Fault Refusal := s.act fun h => h.decodeDone task r

/-- SLOT_RETIRED (R132): no booth holds an unused value after the final lease. -/
def Head.slotRetired (h : Head) (n : Nat) : Head :=
  let x := h.stg.slot n
  if x.state ≠ 2 ∨ !x.retiring ∨ h.stg.leases.any (fun l => l.slot == n && decide (l.next < l.stop)) then h
  else
    ((h.modSlot n fun x => { x with state := 3, record := 3 }).report 866 sevNotice []).tellStrongroom (.keyRecord n 3 x.epoch [])

def execSlotRetired (slot : Nat) (s : State) : Host.Outcome State Fault Refusal := s.act fun h => h.slotRetired slot

/-- TAKE_OWNERSHIP (R126). -/
def execTakeOwnership (s : State) : Host.Outcome State Fault Refusal := s.act fun h => if h.awake then h.takeOwnership else h

/-- UNSEAL (R129): the mailbox token with OP 0x01. -/
def execUnseal (s : State) : Host.Outcome State Fault Refusal := s.act fun h => h.submitOp 1

/-- KEY_CREATE (R128). -/
def execKeyCreate (s : State) : Host.Outcome State Fault Refusal := s.act fun h => h.submitOp 2

/-- KEY_DESTROY (R128). -/
def execKeyDestroy (s : State) : Host.Outcome State Fault Refusal := s.act fun h => h.submitOp 3

/-- DOMAIN_MAP (R124, R128). -/
def execDomainMap (s : State) : Host.Outcome State Fault Refusal := s.act fun h => h.submitOp 4

/-- OWNER_LOCK_SET (R128). -/
def execOwnerLockSet (s : State) : Host.Outcome State Fault Refusal := s.act fun h => h.submitOp 5

/-- OWNER_LOCK_CLEAR (R128). -/
def execOwnerLockClear (s : State) : Host.Outcome State Fault Refusal := s.act fun h => h.submitOp 6

/-- ATTIC_CLEAR_TOKEN (R332). -/
def execAtticClearToken (s : State) : Host.Outcome State Fault Refusal := s.act fun h => h.submitOp 7

/-- RETIREMENT_LIST_CLEAR (R44). -/
def execRetirementListClear (s : State) : Host.Outcome State Fault Refusal := s.act fun h => h.submitOp 8

/-- ZEROISE (R128): the alarm with cause TOKEN. -/
def execZeroise (s : State) : Host.Outcome State Fault Refusal := s.act fun h => h.submitOp 9

/-- RELEASE_OWNERSHIP (R128): the crypto erase of this head, then the owner record is cleared. -/
def execReleaseOwnership (s : State) : Host.Outcome State Fault Refusal := s.act fun h => h.submitOp 0xA

/-- SANITIZE_ARM (R128). -/
def execSanitizeArm (s : State) : Host.Outcome State Fault Refusal := s.act fun h => h.submitOp 0xB

/-- SANITIZE_ARM_EXPIRY (R143): the minutes have passed. -/
def execSanitizeArmExpiry (s : State) : Host.Outcome State Fault Refusal :=
  s.act fun h =>
    match h.stg.armedUntil with
    | none => h
    | some t => if h.now < t then h else h.modStg fun s => { s with armedUntil := none }

/-- PEER_UNSEAL (R129): allowed by STG_CTRL, without ALARM_LATCH, once the pair key has been agreed. -/
def execPeerUnseal (s : State) : Host.Outcome State Fault Refusal :=
  s.act fun h =>
    if h.bit Adr.STG_CTRL 1 ∧ !h.stg.alarmLatch ∧ h.pair.icl ∧ h.stg.pairKey.isSome then h.unsealNow.createSalts else h

/-- PAIR_KEY_AGREEMENT (R130). -/
def execPairKeyAgreement (p : PeerRecords) (s : State) : Host.Outcome State Fault Refusal := s.act fun h => h.agree p

/-- STRONGROOM_ALARM (R142). -/
def execStrongroomAlarm (cause : Nat) (s : State) : Host.Outcome State Fault Refusal :=
  s.act fun h => if cause < 5 ∧ h.awake then h.alarm cause else h

end Sys2Proof.Machine
end

