-- ==== Sys2Proof/Machine/PantryOps.lean ====
section
/-!
DEFINITION. The Pantry: lookup, allocation, prefetch, fills, snoops and drain (12_pantry_and_memory.md R268 to R274), and what memory
errors destroy (R276 to R280).
-/

namespace Sys2Proof.Machine

open Sys2Proof

def Head.modPan (h : Head) (f : Pan → Pan) : Head := { h with pan := f h.pan }
def State.modPan (s : State) (f : Pan → Pan) : State := { s with head := s.head.modPan f }
def Head.panCount (h : Head) (i n : Nat) : Head := h.modPan fun p => { p with stat := bump i n p.stat }
def State.panCount (s : State) (i n : Nat) : State := { s with head := s.head.panCount i n }

/-! ## Where a line lies (R268) -/

/-- The bank of an address: the slice table at the XOR of three fields. -/
def Pan.bankOf (p : Pan) (a : Nat) : Nat := p.slices.getD ((a / 0x40 ^^^ a / 0x4000 ^^^ a / 0x400000) % 256) 0
def setOf (a : Nat) : Nat := a / 64 % 4096

def Pan.line? (p : Pan) (a : Nat) : Option Line := p.lines.find? (·.addr == a / 64)
def Pan.fill? (p : Pan) (a : Nat) : Option Fill := p.fills.find? (·.addr == a / 64)

/-- Targets that allocate: map cache, context spill and DDR5. -/
def Head.allocates (h : Head) (a : Nat) : Bool :=
  match h.regionOf a with
  | some (_, r) => r.function == 1 || r.function == 2
  | none => decide (ddrBase ≤ a)

/-- The map cache region is write-through. -/
def Head.writeThrough (h : Head) (a : Nat) : Bool := ((h.regionOf a).map fun r => r.2.function == 1).getD false

def Head.locked (h : Head) (w : Nat) : Bool := bitAt w (h.fld Adr.PAN_LOCK 15 0)

/-! ## Allocation (R269, R270) -/

/-- Ways that class `cls` may allocate into: of its mask, not kept for a fill, not locked unless the way is invalid in the set. -/
def Head.waysFor (h : Head) (cls bank set : Nat) : List Nat :=
  (List.range 16).filter fun w =>
    bitAt w (h.fld (Adr.PAN_WAYMASK cls) 15 0) &&
    !h.pan.fills.any (fun f => f.slot == some (bank, set, w)) &&
    (!h.locked w || !h.pan.lines.any fun l => l.bank == bank && l.set == set && l.way == w)

/-- Rank of a way for replacement: an invalid one first, then by least recent use. -/
def Pan.rank (p : Pan) (bank set w : Nat) : Nat :=
  match p.lines.find? fun l => l.bank == bank && l.set == set && l.way == w with
  | none => 0
  | some l => l.used + 1

/-- The place of a missed line: none when it is served without allocation. -/
def Head.placeLine (h : Head) (cls a : Nat) : Option (Nat × Nat × Nat) :=
  let bank := h.pan.bankOf a
  let set := setOf a
  let best := (h.waysFor cls bank set).foldl (fun b w => match b with
    | none => some w
    | some x => if h.pan.rank bank set w < h.pan.rank bank set x then some w else some x) none
  best.map fun w => (bank, set, w)

/-- Take the line out of a place that a fill will use: a dirty one is written back. -/
def State.evict (s : State) (slot : Option (Nat × Nat × Nat)) : State :=
  match slot with
  | none => s
  | some (b, i, w) =>
    match s.head.pan.lines.find? fun l => l.bank == b && l.set == i && l.way == w with
    | none => s
    | some l =>
      let s := s.modPan fun p => { p with lines := p.lines.filter (·.addr != l.addr) }
      if l.dirty then { s with mem := Memory.write s.mem (l.addr * 64) l.data }.panCount 2 1 else s

/-! ## Prefetch (R271) -/

/-- Detectors of a class. -/
def detectorsOf (cls : Nat) : Nat := if cls = 0 then 16 else 4

/-- PF_MAX_STRIDE: 1 to 64, other values act as 32. -/
def Head.maxStride (h : Head) : Nat :=
  let n := h.fld Adr.PAN_CTRL 15 8
  if 1 ≤ n ∧ n ≤ 64 then n else 32

/-- A detector after its stream moves to a line. -/
def Detector.move (d : Detector) (max line clock : Nat) : Detector :=
  let stride : Int := (line : Int) - d.last
  if stride = 0 then { d with used := clock }
  else if stride.natAbs ≤ max then
    let n := if stride = d.stride then d.count + 1 else 2
    { d with last := line, stride := stride, count := n, armed := decide (3 ≤ n), used := clock }
  else { d with last := line, stride := 0, count := 1, armed := false, used := clock }

/-- The detector of a stream moves; a new stream takes a free detector of its class or the least recently used one. -/
def Head.detect (h : Head) (cls stream line : Nat) : Head × Option Detector :=
  let p := h.pan
  match p.detectors.find? fun d => d.cls == cls && d.stream == stream with
  | some d =>
    let n := d.move h.maxStride line p.clock
    (h.modPan fun p => { p with detectors := p.detectors.map fun x => if x.cls = cls ∧ x.stream = stream then n else x }, some n)
  | none =>
    let mine := p.detectors.filter (·.cls == cls)
    let oldest := mine.foldl (fun b d => match b with
      | none => some d
      | some x => if d.used < x.used then some d else some x) (none : Option Detector)
    let drop (d : Detector) : Bool := decide (detectorsOf cls ≤ mine.length) && some d == oldest
    let n : Detector := { cls := cls, stream := stream, last := line, count := 1, used := p.clock }
    (h.modPan fun p => { p with detectors := p.detectors.filter (fun d => !drop d) ++ [n] }, some n)

/-- The memory channel of an address: a DDR5 channel, or a stack and pseudo-channel. -/
def Head.channelOf (h : Head) (a : Nat) : Nat × Nat × Nat :=
  if ddrBase ≤ a then (1, (a - ddrBase) / 4096 % 8, 0)
  else match h.pcOf a with | some (s, c) => (0, s, c) | none => (0, 0xFF, 0xFF)

/-- Prefetch one line for a stream: within the region and the 64 KiB of the miss, while no demand miss waits at its channel. -/
def State.prefetch (s : State) (cls stream from_ line : Nat) : State :=
  let h := s.head
  let a := line * 64
  let same := decide (a / 65536 = from_ / 65536) && h.populated a && h.allocates a &&
    decide ((h.regionOf a).map (·.1) = (h.regionOf from_).map (·.1))
  let waits := h.pan.waiting.any fun w => h.channelOf w.2.2.1 == h.channelOf a
  if h.pan.state ≠ 1 ∨ !same ∨ waits ∨ (h.pan.line? a).isSome ∨ (h.pan.fill? a).isSome then s
  else
    match h.placeLine cls a with
    | none => s
    | some slot =>
      ((s.evict (some slot)).modPan fun p => { p with
        fills := p.fills ++ [{ addr := line, cls := cls, stream := stream, slot := some slot, prefetch := true }] }).panCount 3 1

/-- The stream's move to a line: an armed detector keeps PF_DEPTH lines fetched ahead. -/
def State.advance (s : State) (cls stream a : Nat) : State :=
  let (h, d) := s.head.detect cls stream (a / 64)
  let s := { s with head := h }
  match d with
  | none => s
  | some d =>
    if !d.armed ∨ !h.bit Adr.PAN_CTRL 1 then s
    else (List.range (orIfZero 1 (h.fld Adr.PAN_CTRL 7 4))).foldl (fun s i =>
      let line := (a / 64 : Int) + d.stride * (i + 1)
      if line < 0 then s else s.prefetch cls stream a line.toNat) s

/-! ## Accesses (R272) -/

/-- Bytes of a write that lie in its line. -/
def inLine (a : Nat) (bs : Bytes) : Bytes := bs.take (64 - a % 64)

/-- Write bytes of a line to memory. -/
def State.store (s : State) (a : Nat) (w : Option Bytes) : State :=
  match w with
  | none => s
  | some bs => { s with mem := Memory.write s.mem a (inLine a bs) }

/-- A hit: the line is used; a write updates it, and memory too in the map cache. -/
def State.hit (s : State) (l : Line) (cls stream a : Nat) (w : Option Bytes) : State :=
  let through := s.head.writeThrough a
  let first := l.used == 0
  let clock := s.head.pan.clock
  let s := s.modPan fun p => { p with
    clock := p.clock + 1
    lines := p.lines.map fun x =>
      if x.addr = l.addr then
        (match w with
         | none => { x with used := clock }
         | some bs => { x with used := clock, data := patch (a % 64) (inLine a bs) x.data, dirty := x.dirty || !through })
      else x }
  let s := s.panCount 0 1
  let s := if through then s.store a w else s
  if first then (s.panCount 4 1).advance cls stream a else s

/-- A miss: the line takes a place when one is found, and its fill is issued. -/
def State.miss (s : State) (cls stream a : Nat) (w : Option Bytes) : State :=
  let slot := s.head.placeLine cls a
  let s := s.evict slot
  let f : Fill := { addr := a / 64, cls := cls, stream := stream, slot := slot, write := w.map fun bs => (a % 64, inLine a bs) }
  ((s.modPan fun p => { p with fills := p.fills ++ [f], clock := p.clock + 1 }).panCount 1 1).advance cls stream a

/-- One access of a requester: outside the map an error; staging never through the Pantry; a requester with a miss outstanding waits,
but classes 0 and 1 hit under it; a Pantry that is off or draining sends misses to memory. -/
def State.access (s : State) (cls stream a : Nat) (w : Option Bytes) : State :=
  let h := s.head
  let busy := h.pan.fills.any fun f => f.cls == cls && f.stream == stream && !f.prefetch
  let wait := s.modPan fun p => { p with waiting := p.waiting ++ [(cls, stream, a, w)] }
  if 9 ≤ cls then s
  else if !h.populated a then { s with head := h.unmapped a }
  else if !h.allocates a then s.store a w
  else
    match h.pan.line? a with
    | some l => if busy ∧ 2 ≤ cls then wait else s.hit l cls stream a w
    | none =>
      if busy ∨ (h.pan.fill? a).isSome then wait
      else if h.pan.state ≠ 1 then (s.panCount 1 1).store a w
      else s.miss cls stream a w

/-- The line of a fill arrives: the bytes in memory, with what DMA writes merged into it and the write that missed. -/
def State.land (s : State) (f : Fill) : State :=
  let a := f.addr * 64
  let data := f.merge.foldl (fun d m => patch m.1 m.2 d) (Memory.read s.mem a 64)
  let through := s.head.writeThrough a
  let new := match f.write with | none => data | some (o, bs) => patch o bs data
  let s := s.modPan fun p => { p with fills := p.fills.filter (·.addr != f.addr) }
  match f.slot with
  | none => (match f.write with | none => s | some (o, bs) => { s with mem := Memory.write s.mem (a + o) bs })
  | some (b, i, w) =>
    let s := s.modPan fun p => { p with
      clock := p.clock + 1
      lines := p.lines ++ [{ addr := f.addr, bank := b, set := i, way := w, data := new, dirty := f.write.isSome && !through,
                             used := if f.prefetch then 0 else p.clock, cls := f.cls }] }
    match f.write with
    | some (o, bs) => if through then { s with mem := Memory.write s.mem (a + o) bs } else s
    | none => s

/-- PANTRY_LINE_FILL: the requester restarts, and accesses that waited are made again in order. A fill that a whole-line DMA write
discarded is issued again. -/
def State.lineFill (s : State) (a : Nat) : State :=
  match s.head.pan.fill? a with
  | none => s
  | some f =>
    if f.again then s.modPan fun p => { p with fills := p.fills.map fun x => if x.addr = f.addr then { x with again := false } else x }
    else
      let s := s.land f
      let l := s.head.pan.waiting
      l.foldl (fun s x => s.access x.1 x.2.1 x.2.2.1 x.2.2.2) (s.modPan fun p => { p with waiting := [] })

/-! ## Snoops (R273) -/

/-- Snoop one line under a DMA write of `n` bytes at `a` within the line. -/
def Head.snoopWrite (h : Head) (a : Nat) (bs : Bytes) : Head :=
  let whole := a % 64 == 0 && bs.length == 64
  match h.pan.line? a with
  | some l =>
    let h := h.panCount 5 1
    let lock := h.locked l.way
    let h := h.when lock fun h => h.panCount 7 1
    if whole ∧ !lock then (h.panCount 6 1).modPan fun p => { p with lines := p.lines.filter (·.addr != l.addr) }
    else h.modPan fun p => { p with lines := p.lines.map fun x =>
      if x.addr = l.addr then { x with data := patch (a % 64) bs x.data, dirty := x.dirty && !whole } else x }
  | none =>
    match h.pan.fill? a with
    | none => h
    | some f => h.modPan fun p => { p with fills := p.fills.map fun x =>
        if x.addr = f.addr then (if whole then { x with again := true, merge := [] } else { x with merge := x.merge ++ [(a % 64, bs)] }) else x }

/-- Cut bytes at line boundaries: (address, bytes), `n` pieces at most. -/
def lineParts : Nat → Nat → Bytes → List (Nat × Bytes)
  | 0, _, _ => []
  | _, _, [] => []
  | n + 1, a, bs => (a, inLine a bs) :: lineParts n (a + (64 - a % 64)) (bs.drop (64 - a % 64))

/-- A DMA access: memory is reached, and every line it touches is snooped. -/
def State.dma (s : State) (a len : Nat) (w : Option Bytes) : State :=
  let n := match w with | some bs => bs.length | none => len
  if n = 0 then s
  else if !s.head.rangePopulated a n then { s with head := s.head.unmapped a }
  else
    match w with
    | some bs =>
      let h := if s.head.allocates a then s.head.forEach (lineParts (n / 64 + 2) a bs) fun h x => h.snoopWrite x.1 x.2 else s.head
      { s with head := h, mem := Memory.write s.mem a bs }
    | none =>
      let hits := (s.head.pan.lines.filter fun l => decide (a / 64 ≤ l.addr ∧ l.addr ≤ (a + n - 1) / 64)).length
      if hits = 0 then s else s.panCount 5 hits

/-- Bytes that a DMA read returns: a dirty line supplies its own. -/
def State.dmaBytes (s : State) (a n : Nat) : Bytes :=
  (s.head.pan.lines.filter fun l => l.dirty && decide (a / 64 ≤ l.addr ∧ l.addr * 64 < a + n)).foldl (fun d l =>
    let o := l.addr * 64
    if a ≤ o then patch (o - a) l.data d else patch 0 (l.data.drop (a - o)) d) (Memory.read s.mem a n)

/-! ## Drain (R274) -/

/-- ENABLE written 0. -/
def Head.drainStart (h : Head) : Head :=
  let h := h.setFld Adr.PAN_CTRL 0 0 0
  if h.pan.state = 1 then h.modPan fun p => { p with state := 2, fills := p.fills.map fun f => { f with slot := none } } else h

/-- ENABLE written 1: a drain stops; a Pantry that is off serves again once an image has given it banks. -/
def Head.drainStop (h : Head) : Head :=
  let h := h.setFld Adr.PAN_CTRL 0 0 1
  if h.pan.state = 2 ∨ (h.pan.state = 0 ∧ h.pan.slices ≠ []) then h.modPan fun p => { p with state := 1 } else h

/-- The last line has been invalidated. -/
def State.drained (s : State) : State :=
  if s.head.pan.state ≠ 2 then s
  else
    let dirty := s.head.pan.lines.filter (·.dirty)
    let s := { s with mem := Memory.writeBack s.mem dirty }
    let s := s.panCount 2 dirty.length
    { s with head := (s.head.modPan fun p => { p with state := 0, lines := [] }).raise 736 }

/-! ## Banks (R268, R275) -/

/-- The slice table over the serving banks, in ascending bank number. -/
def sliceTable (banks : List Nat) : List Nat := if banks = [] then [] else (List.range 256).map fun i => banks.getD (i % banks.length) 0

/-- The banks of function 0 serve from an application on: lines of banks that leave are written back, entries move, and a changed set
raises source 739. The first application turns the Pantry on while ENABLE is 1. -/
def State.newSlices (s : State) (banks : List Nat) : State :=
  let old := s.head.pan.slices
  let leaving := s.head.pan.lines.filter fun l => !banks.contains l.bank
  let s := { s with mem := Memory.writeBack s.mem leaving }
  let table := sliceTable banks
  let s := s.modPan fun p => { p with
    lines := p.lines.filter (fun l => banks.contains l.bank), slices := table
    fills := p.fills.map (fun f => { f with slot := f.slot.filter fun x => banks.contains x.1 })
    state := if old = [] ∧ table ≠ [] ∧ s.head.bit Adr.PAN_CTRL 0 then 1 else p.state }
  let moved := s.head.pan.lines.filter fun l => ({ s.head.pan with slices := table } : Pan).bankOf (l.addr * 64) != l.bank
  let s := { s with mem := Memory.writeBack s.mem moved }
  let s := s.modPan fun p => { p with lines := p.lines.filter fun l => !moved.any (·.addr == l.addr) }
  if old ≠ [] ∧ table ≠ old then { s with head := s.head.raise 739 } else s

/-! ## Memory errors (R276 to R280) -/

/-- Note a memory error: its counter, MEM_LAST_ERR and NEW. -/
def Head.memError (h : Head) (ctr kind unit pc : Nat) (ue : Bool) : Head :=
  let h := (h.memCount ctr).modMemc fun m => { m with lastErr := (kind, unit, pc, flag ue) }
  h.orReg Adr.MEM_LAST_ERR 0x80000000

/-- A stream or cipher context is lost (R117, code 0x0B): its Write ends, its decodes start again. -/
def Head.contextLost (h : Head) (n : Nat) : Head :=
  let h := h.loseWrite n
  h.forEach (h.dp.tasks.filter fun t => match t.purpose with | .read c | .history c => c == n | _ => false) Head.moveTask

/-- A command context is lost: Internal Error, DNR clear. -/
def Head.commandLost (h : Head) (n : Nat) : Head :=
  h.withCtx n fun c =>
    if !c.inFlight then h
    else if c.cap.opcode = opWrite ∧ !c.admin then h.loseWrite n
    else (h.complete c stInternal 0).dropTasks n

/-- Writes that have not completed and need a staged chunk. -/
def Head.writesOf (h : Head) (hd : Nat) : List Ctx :=
  h.hqe.ctxs.filter fun c => c.inFlight && c.cap.opcode == opWrite && !c.admin &&
    (c.unconfirmed.contains hd || c.unvaulted.contains hd ||
      c.chunks.any fun k => ((h.dp.pchunk? k).bind (·.handle)) == some hd)

/-- A dirty staged chunk fails check point 0x3 (R165): the Catcher's mirror copy is asked for; without a Catcher its Write ends with a
guard error, or the chunk is poisoned. -/
def Head.stageFailed (h : Head) (hd : Nat) : Head :=
  match h.staged? hd with
  | none => h
  | some s =>
    let h := h.pointFailed 3 0xFFFF 0xFF 0xFF
    if h.paired s.troupe ∧ s.confirmed ∧ !s.fetching then
      (h.modDp fun d => { d with staged := d.staged.map fun x => if x.handle = hd then { x with fetching := true } else x }).emit
        (.fetchMirror s.troupe hd)
    else
      match h.writesOf hd with
      | [] => (match s.uid with | some u => h.poison u | none => h)
      | ws => h.forEach ws fun h c =>
          h.failCtx c { point := 3, sc := 0x82, lba := c.cap.slba, refExp := c.cap.slba % 2 ^ 48 }

/-- An uncorrectable DDR5 error at an address: a far-filter bucket is zeroed; elsewhere a bus error and a CRITICAL record (R280). -/
def Head.ddrLost (h : Head) (a : Nat) : Head :=
  let d := a - ddrBase
  let base := h.fld Adr.LDR_FAR_BASE 11 0 * 2 ^ 30
  if h.farValid ∧ ddrBase ≤ a ∧ base ≤ d ∧ d < base + 2 ^ (h.farLog + 6) then
    (h.report 746 sevFault []).modLdr fun l => { l with far := l.far.filter fun e => e.1 != (d - base) / 64 }
  else (h.report 746 sevCritical []).emit (.busError a)

/-- What an uncorrectable SRAM error destroys (R276). -/
def Head.sramLost (h : Head) (held : SramContent) : Head :=
  match held with
  | .cleanLine a => h.modPan fun p => { p with lines := p.lines.filter (·.addr != a / 64) }
  | .dirtyLine a =>
    let h := h.modPan fun p => { p with lines := p.lines.filter (·.addr != a / 64) }
    if ddrBase ≤ a then h.ddrLost a
    else
      let (stack, pc) := (h.pcOf a).getD (0, 0)
      h.report 742 sevFault (leBytes 1 stack ++ leBytes 1 pc)
  | .larderBucket g b i => h.modLdr fun l => { l with larder := l.larder.filter fun e => e.1 != larderKey g b i }
  | .commandContext n => h.commandLost n
  | .streamContext n => h.contextLost n
  | .pendingEntry k =>
    match h.dp.pchunk? k with
    | none => h
    | some p => if p.stage = .unique then (h.modLdr fun l => { l with pending := l.pending.filter (·.2.2 != k) }).askIndex p else h
  | .stashEntry i => h.modLdr fun l => { l with stash := l.stash.eraseIdx i }
  | .journalStaging n =>
    match h.stripe? n with
    | none => h
    | some s => if s.phase = .committed ∨ s.phase = .voided then h else h.voidStripe s (h.passedRoles n)
  | .other => h

/-- What an uncorrectable HBM error destroys (R278). -/
def Head.hbmLost (h : Head) (held : HbmContent) : Head :=
  match held with
  | .dirtyChunk hd => h.stageFailed hd
  | .cleanChunk hd => h.modDp fun d => { d with staged := d.staged.filter fun s => s.handle != hd || s.dirty }
  | .tentative k => (match h.dp.pchunk? k with | none => h | some p => h.loseWrite p.ctx)
  | .mapClean t page =>
    let h := h.modLdr fun l => { l with cached := l.cached.filter (· != (t, page)) }
    if h.ldr.fetching.contains (t, page) then h
    else
      let (shelf, a, _) := h.journalHome t
      (h.modLdr fun l => { l with fetching := l.fetching ++ [(t, page)] }).addBundle (.pageRead t page) clsLand t shelf 0 0xFFFF [(0xFF, a)]
  | .mapDirty t page =>
    if h.paired t then h
    else
      let us := (h.dp.chunks.filter fun c => c.troupe == t && !c.released && !c.poisoned && h.homePage t c.fp == page).map (·.uid)
      (h.forEach us Head.poison).unlisted sevCritical []
  | .spillContext n => h.contextLost n
  | .queueEntry c q => (h.endQueue c q).emit (.closed c q)
  | .other => h

end Sys2Proof.Machine
end

