-- ==== Sys2Proof/Machine/Compress.lean ====
section
/-!
DEFINITION. Commands of the compression engines (05_compression_engine.md R109 to R119): stream changes, segment streams, firmware
jobs and statistics. The bytes that a job's algorithm produces come with CMP_JOB_END (log 2).
-/

namespace Sys2Proof.Machine

open Sys2Proof

/-- Z_ENGINE_BOUNDARY (R114): the block of the piece closes and the next stream is chosen. -/
def execZEngineBoundary (site : Nat) (cellarOk : Bool) (s : State) : Host.Outcome State Fault Refusal :=
  s.act fun h => h.boundary (site % 36) cellarOk

/-- OUTPUT_STALL_RELEASE (R115). -/
def execOutputStallRelease (site : Nat) (s : State) : Host.Outcome State Fault Refusal := s.act fun h => h.unstall (site % 36)

/-- SEG_IDLE in µs; 0 acts as 1 unit of 100 µs (R109). -/
def Head.segIdle (h : Head) : Nat := orIfZero 1 (h.fld Adr.CMP_CTRL 15 8) * 100

/-- SEGMENT_IDLE_EXPIRY (R109): a stream idle for longer than SEG_IDLE ends, and its segment closes. -/
def execSegmentIdleExpiry (stream : Nat) (s : State) : Host.Outcome State Fault Refusal :=
  s.act fun h =>
    match h.cmp.segs.find? (·.id == stream) with
    | none => h
    | some x => if x.lastAt + h.segIdle < h.now then h.endSeg x else h

/-! ## Firmware jobs (R116 to R119) -/

def Head.modJob (h : Head) (f : Job → Job) : Head := h.modCmp fun c => { c with job := f c.job }

/-- KIND of the job's stream context (R111); a job under the stored-chunk rules takes its turns with the jobs (DEDUCED from R114). -/
def Job.streamKind (j : Job) : Nat := match j.kind with | 0 => 6 | 2 => 5 | _ => 4

/-- Free the job's context; it leaves the engine. -/
def Head.freeJob (h : Head) : Head := ((h.dropStream 6 0).dropStream 5 0).dropStream 4 0

/-- The job ends: state 2 DONE, 3 OUTPUT_FULL or 4 ERROR, and the latch DONE of CMP_JOB_STATUS. -/
def Head.jobState (h : Head) (st code : Nat) : Head :=
  let h := (h.modJob fun j => { j with state := st, code := code }).setFld Adr.CMP_JOB_STATUS 16 16 1
  if st = 4 then (h.freeJob).modCmp fun c => { c with decErr := c.decErr.modify (code - 1) fun n => sat32 (n + 1) }
  else if st = 3 then (h.freeJob).raise (8 * h.cmp.job.site + 6)
  else h.freeJob

/-- Address fields of the job: bits [47:32] and [31:0]. -/
def Head.jobAddr (h : Head) (lo hi : Nat) : Nat := h.fld hi 15 0 * 2 ^ 32 + h.fld lo 31 0

/-- Write what a run produced: at most CAP bytes at DST. -/
def State.jobWrite (s : State) (bs : Bytes) : State :=
  let j := s.head.cmp.job
  let w := bs.take j.cap
  let s := s.dma j.dst w.length (some w)
  { s with head := s.head.modJob fun j => { j with out := w.length } }

/-- A run of the job ends with `output` (R116, R117, R119): a failed access is code 0x0A, a lost site is code 0x0B. -/
def State.jobEnd (s : State) (r : JobResult) : State :=
  let j := s.head.cmp.job
  if !s.head.live j.site then { s with head := s.head.jobState 4 0x0B }
  else if r.output ≠ [] ∧ !s.head.rangePopulated j.dst (min j.cap r.output.length) then
    { s with head := (s.head.unmapped j.dst).jobState 4 0x0A }
  else
    let s := s.jobWrite r.output
    let full := r.outputFull || decide (j.cap < r.output.length)
    let h := s.head.modJob fun j => { j with inp := min j.len (j.inp + r.consumed), checked := r.checked && j.kind != 2 }
    if r.code ≠ 0 then { s with head := h.jobState 4 (min r.code 0x0B) }
    else if full then { s with head := h.jobState 3 0 }
    else { s with head := h.jobState 2 0 }

/-- The frame of no bytes: its header, one empty Raw block and the checksum of nothing (R105, R106). -/
def emptyFrame (c : CprofEnt) : Bytes := frameHeader c false 0 ++ leBytes 3 1 ++ leBytes 4 (xxh64 []).toNat

/-- The site of a new job: the one named, or the least-loaded live site for 0x3F. -/
def Head.jobSite (h : Head) (site : Nat) : Option Nat :=
  if site = 0x3F then
    ((((List.range 36).filter h.live).insertionSort fun a b => decide (h.queued a < h.queued b ∨ (h.queued a = h.queued b ∧ a ≤ b)))).head?
  else if h.live site then some site
  else none

/-- Give the job a context at its site and queue its input in bursts. -/
def Head.jobStream (h : Head) (j : Job) (left : Nat) : Head :=
  let units := (List.range ((left + 65535) / 65536)).map fun i => ({ chunk := 0, bytes := min 65536 (left - 65536 * i), last := false } : ZUnit)
  let h := (h.slotFor j.site).1.addStream j.site j.streamKind 0 []
  h.feed j.site j.streamKind 0 units

/-- START: the job's registers are sampled. -/
def Head.jobSample (h : Head) : Job :=
  { state := 1, kind := h.fld Adr.CMP_JOB_CTRL 6 4, cprof := h.fld Adr.CMP_JOB_CTRL 11 8, site := h.fld Adr.CMP_JOB_CTRL 21 16,
    src := h.jobAddr Adr.CMP_JOB_SRC_LO Adr.CMP_JOB_SRC_HI, dst := h.jobAddr Adr.CMP_JOB_DST_LO Adr.CMP_JOB_DST_HI,
    len := h.fld Adr.CMP_JOB_LEN 31 0, cap := h.fld Adr.CMP_JOB_CAP 31 0 }

/-- CMP_JOB_START: ignored unless STATE is IDLE or DONE (the table of CMP_JOB_CTRL); kinds 4 to 7 are unsupported (R118). -/
def State.jobStart (s : State) : State :=
  if s.head.cmp.job.state ≠ 0 ∧ s.head.cmp.job.state ≠ 2 then s
  else
    let j := s.head.jobSample
    let h := s.head.modCmp fun c => { c with job := j }
    match h.jobSite j.site with
    | none => { s with head := h.jobState 4 7 }
    | some site =>
      let j := { j with site := site }
      let h := h.modCmp fun c => { c with job := j }
      if 3 < j.kind then { s with head := h.jobState 4 7 }
      else if j.len = 0 then
        if j.kind = 0 then
          let f := emptyFrame (h.cprof j.cprof)
          let fits := decide (f.length ≤ j.cap)
          ({ s with head := h } : State).jobEnd
            { code := 0, outputFull := !fits, consumed := 0, output := if fits then f else [], checked := false }
        else { s with head := h.jobState 4 8 }
      else if !h.rangePopulated j.src j.len then { s with head := (h.unmapped j.src).jobState 4 0x0A }
      else ({ s with head := h.jobStream j j.len } : State).dma j.src j.len none

def execCmpJobStart (s : State) : Host.Outcome State Fault Refusal := .next s.jobStart

/-- CMP_JOB_RESUME (R116): a new buffer; the job continues. -/
def Head.jobResume (h : Head) : Head :=
  if h.cmp.job.state ≠ 3 then h
  else
    let h := h.modJob fun j => { j with
      state := 1, dst := h.jobAddr Adr.CMP_JOB_DST_LO Adr.CMP_JOB_DST_HI, cap := h.fld Adr.CMP_JOB_CAP 31 0, out := 0 }
    if h.live h.cmp.job.site then h.jobStream h.cmp.job (h.cmp.job.len - h.cmp.job.inp) else h.jobState 4 0x0B

def execCmpJobResume (s : State) : Host.Outcome State Fault Refusal := s.act fun h => h.jobResume

/-- CMP_JOB_ABANDON (R116): the job ends and its context is free. -/
def Head.jobAbandon (h : Head) : Head := (h.freeJob).modJob fun j => { j with state := 0, code := 0 }

def execCmpJobAbandon (s : State) : Host.Outcome State Fault Refusal := s.act fun h => h.jobAbandon

/-- CMP_JOB_END (R116, R117, R119): a run of the job ends. -/
def execCmpJobEnd (r : JobResult) (s : State) : Host.Outcome State Fault Refusal :=
  .next (if s.head.cmp.job.state = 1 then s.jobEnd r else s)

/-- CMP_STAT_CLEAR: all statistics and decoder error counts are 0. -/
def Head.cmpStatClear (h : Head) : Head := h.modCmp fun c => { c with stat := List.replicate 6 0, decErr := List.replicate 11 0 }

def execCmpStatClear (s : State) : Host.Outcome State Fault Refusal := s.act fun h => h.cmpStatClear

end Sys2Proof.Machine
end

