-- ==== Sys2Proof/Machine/DigestOps.lean ====
section
/-!
DEFINITION. The shared digest engine (07_digest_engine.md R145, R149 to R159).
-/

namespace Sys2Proof.Machine

open Sys2Proof

/-! ## Algorithms (R145) -/

/-- Block, natural output and state in bytes; the natural output of SHAKE256 is not stated. -/
def algBlock (a : Nat) : Nat := match a with | 1 => 64 | 2 => 128 | 4 => 72 | _ => 136
def algOut (a : Nat) : Nat := match a with | 1 => 32 | 3 => 32 | _ => 64
def algState (a : Nat) : Nat := match a with | 1 => 32 | 2 => 64 | _ => 200
def algDefined (a : Nat) : Bool := decide (1 ≤ a ∧ a ≤ 5)
def algSuffix (a : Nat) : Byte := if a = 5 then 0x1F else 0x06

/-- The state words before the first block. -/
def algInit (a : Nat) : List (BitVec 64) :=
  match a with
  | 1 => sha256H.map (·.setWidth 64)
  | 2 => sha512H
  | _ => keccakZero

/-- Absorb one block. -/
def algAbsorb (a : Nat) (ws : List (BitVec 64)) (blk : Bytes) : List (BitVec 64) :=
  match a with
  | 1 => (sha256Block (ws.map (·.setWidth 32)) blk).map (·.setWidth 64)
  | 2 => sha512Block ws blk
  | _ => keccakAbsorb ws blk

/-- Absorb bytes: whole blocks go into the state, the rest stays open. -/
def algFeed (a : Nat) (ws : List (BitVec 64)) (part bs : Bytes) : List (BitVec 64) × Bytes :=
  let b := algBlock a
  let all := part ++ bs
  let k := all.length / b
  (overBlocks b (algAbsorb a) k all ws, all.drop (k * b))

/-- Finish a message of `total` bytes: the state after padding. -/
def algFinish (a total : Nat) (ws : List (BitVec 64)) (part : Bytes) : List (BitVec 64) :=
  match a with
  | 1 => (algFeed 1 ws [] (sha2Pad 64 8 total part)).1
  | 2 => (algFeed 2 ws [] (sha2Pad 128 16 total part)).1
  | _ => keccakAbsorb ws (keccakPad (algBlock a) (algSuffix a) part)

/-- The state as bytes: FIPS 180-4 words big-endian, Keccak lanes little-endian. -/
def stateBytes (a : Nat) (ws : List (BitVec 64)) : Bytes :=
  match a with
  | 1 => ws.flatMap fun w => beBytes 4 w.toNat
  | 2 => ws.flatMap fun w => beBytes 8 w.toNat
  | _ => keccakBytes ws

/-- The state of a record. -/
def stateWords (a : Nat) (bs : Bytes) : List (BitVec 64) :=
  match a with
  | 1 => (List.range 8).map fun i => BitVec.ofNat 64 (beNat (slice (4 * i) 4 bs))
  | 2 => (List.range 8).map fun i => BitVec.ofNat 64 (beNat (slice (8 * i) 8 bs))
  | _ => (List.range 25).map fun i => BitVec.ofNat 64 (leAt (8 * i) 8 bs)

/-- Output bytes from position `off` of a finished state. -/
def algRead (a off n : Nat) (ws : List (BitVec 64)) : Bytes :=
  match a with
  | 1 | 2 => slice off n (stateBytes a ws)
  | _ => slice off n (keccakSqueeze (algBlock a) (ceilDiv (off + n) (algBlock a)) ws)

/-- A digest of a byte string with SHA-256 or SHA-512, for keys longer than a block. -/
def shortKey (a : Nat) (key : Bytes) : Bytes :=
  if key.length ≤ algBlock a then key else if a = 1 then sha256 key else sha512 key

def xorPad (b : Byte) (key : Bytes) (n : Nat) : Bytes := (fit n key).map (· ^^^ b)

/-! ## Channels (R149, R150) -/

def Head.modChan (h : Head) (n : Nat) (f : Chan → Chan) : Head :=
  { h with dgt := { h.dgt with chans := h.dgt.chans.map fun c => if c.ch = n then f c else c } }

/-- REFUSED, SUSPEND_REFUSED or DONE of a channel. -/
def Head.chanFlag (h : Head) (n bit : Nat) : Head := h.orReg (Adr.DGT_CH_STATUS n) (BitVec.ofNat 32 (2 ^ bit))

/-- A command of a core on a channel: another core's channel refuses with source 882; a state that does not list it sets REFUSED. -/
def Head.chanCmd (h : Head) (core n : Nat) (states : List Nat) (f : Chan → Head) : Head :=
  match h.dgt.chans.find? (·.ch == n) with
  | none => h
  | some c =>
    if c.state ≠ 0 ∧ c.owner ≠ core then h.raise 882
    else if states.contains c.state then f c
    else h.chanFlag n 8

/-- An error of R152: nothing more is absorbed, digest and state are zeroed, ERROR with its code, source 880. -/
def Head.chanFail (h : Head) (n code : Nat) : Head :=
  ((h.modChan n fun c => { c with
     state := 6, code := code, digest := [], words := [], part := [], run := none, lastWord := none, key := [] }).chanFlag n 10).raise 880

/-- CLAIM. -/
def Head.chanClaim (h : Head) (core n : Nat) : Head :=
  match h.dgt.chans.find? (·.ch == n) with
  | none => h
  | some c =>
    if 16 ≤ core then h
    else if c.state = 0 then h.modChan n fun c => { c with state := 1, owner := core }
    else h.chanFlag n 8

/-- RELEASE, from any state but FREE. -/
def Head.chanRelease (h : Head) (core n : Nat) : Head :=
  h.chanCmd core n [1, 2, 3, 4, 5, 6] fun _ =>
    (h.forEach (List.range 32) fun h k => h.setReg (Adr.DGT_KEY n k) 0).modChan n fun c => { ch := c.ch }

/-! ## Starting a message (R151, R153, R156) -/

/-- The configuration and the declared length, as BEGIN and RESTORE sample them. -/
def Head.sampleChan (h : Head) (c : Chan) : Chan :=
  let g := Adr.DGT_CH_CFG c.ch
  { ch := c.ch, owner := c.owner, state := c.state, expect := c.expect, expectInv := c.expectInv,
    alg := h.fld g 2 0, mode := h.fld g 4 4, keySrc := h.fld g 5 5, cmpClass := h.fld g 7 6 % 3, outLen := min 64 (h.fld g 14 8),
    slot := h.fld g 23 16,
    len := (h.reg (Adr.DGT_CH_MSGLEN_LO c.ch)).toNat + h.fld (Adr.DGT_CH_MSGLEN_HI c.ch) 7 0 * 2 ^ 32 }

/-- The HMAC key of a channel: none where it cannot be had (code 0x7). -/
def Head.chanKey (h : Head) (c : Chan) : Option Bytes :=
  if c.keySrc = 1 then
    let n := min 128 (h.fld (Adr.DGT_CH_CFG c.ch) 31 24)
    if n = 0 then none
    else some ((((List.range 32).flatMap fun k => leBytes 4 (h.reg (Adr.DGT_KEY c.ch k)).toNat)).take n)
  else
    let s := h.stg.slot c.slot
    if h.keySlots ≤ c.slot ∨ (s.state ≠ 2 ∧ s.state ≠ 3) then none
    else
      let mac := hmac512 s.key ([0x4D, 0x41, 0x43, 0x4B] ++ leBytes 4 s.keyId)
      some (if c.alg = 1 then mac.take 32 else mac)

/-- What a sampled configuration starts from: its key, none for code 0x7. HMAC is offered with SHA-256 and SHA-512 in the X grade. -/
def Head.chanStart (h : Head) (c : Chan) : Option Bytes :=
  if !algDefined c.alg then none
  else if c.mode = 0 then some []
  else if !h.gradeX ∨ 2 < c.alg then none
  else (h.chanKey c).map (shortKey c.alg)

/-- BEGIN. -/
def Head.chanBegin (h : Head) (core n : Nat) : Head :=
  h.chanCmd core n [1, 4, 5, 6] fun c =>
    let c := h.sampleChan c
    match h.chanStart c with
    | none => (h.modChan n fun _ => c).chanFail n 7
    | some key =>
      let ws := algInit c.alg
      let ws := if c.mode = 1 then algAbsorb c.alg ws (xorPad 0x36 key (algBlock c.alg)) else ws
      h.modChan n fun _ => { c with state := 2, words := ws, key := key }

/-- Bytes of a record of an algorithm. -/
def recordLen (a : Nat) (wrapped : Bool) : Nat := 0x14 + algState a + (if wrapped then 32 else 0)

/-- The state record of a suspended channel (R153); a wrapped one under the context key of this start (R139, R154). -/
def Head.stateRecord (h : Head) (c : Chan) : Bytes :=
  let wrap := c.mode == 1 && c.keySrc == 0
  let clear := leBytes 4 0x41545344 ++ leBytes 1 c.alg ++ leBytes 1 (flag wrap + 2 * c.mode) ++ leBytes 2 (recordLen c.alg wrap)
  let body := leBytes 8 c.count ++ stateBytes c.alg c.words
  let body := body ++ crcBytes (clear ++ body)
  if !wrap then clear ++ body
  else
    let aad := h.freeBytes 12 ++ leBytes 4 h.cel.cycles
    let (ct, tag) := gcmSeal h.stg.ctxKey (aad.take 12) aad body
    clear ++ aad ++ ct ++ tag

/-- The body of a record (COUNT and STATE), none for code 0x6. -/
def Head.recordBody (h : Head) (c : Chan) (r : Bytes) : Option Bytes :=
  let flags := leAt 5 1 r
  let wrap := bitAt 0 flags
  let n := recordLen c.alg wrap
  let clear := r.take 8
  let body :=
    if wrap then
      (if leAt 20 4 r ≠ h.cel.cycles % 2 ^ 32 ∨ h.stg.ctxKey = [] then none
       else gcmOpen h.stg.ctxKey (slice 8 12 r) (slice 8 16 r) (slice 24 (n - 40) r) (slice (n - 16) 16 r))
    else some (slice 8 (n - 8) r)
  if leAt 0 4 r ≠ 0x41545344 ∨ leAt 4 1 r ≠ c.alg ∨ flags / 2 ≠ c.mode ∨ leAt 6 2 r ≠ n then none
  else
    match body with
    | none => none
    | some b =>
      let m := b.length - 4
      if crcBytes (clear ++ b.take m) ≠ b.drop m ∨ leAt 0 8 b % algBlock c.alg ≠ 0 then none else some (b.take m)

/-- RESTORE: the record comes from the window, which reads as zero afterwards. -/
def Head.chanRestore (h : Head) (core n : Nat) : Head :=
  h.chanCmd core n [1, 4, 5, 6] fun old =>
    let c := h.sampleChan old
    let h := h.modChan n fun _ => c
    match h.chanStart c with
    | none => h.chanFail n 7
    | some key =>
      match h.recordBody c old.window with
      | none => h.chanFail n 6
      | some b =>
        if c.len < leAt 0 8 b then h.chanFail n 3
        else h.modChan n fun _ => { c with
          state := 2, count := leAt 0 8 b, words := stateWords c.alg (b.drop 8), key := key, wrapped := bitAt 0 (leAt 5 1 old.window) }

/-! ## Feeding (R151, R152) -/

/-- The DMA portion D of a message. -/
def Chan.dma (c : Chan) : Nat := 4 * (c.len / 4)

/-- GO: the run is checked before anything is absorbed. -/
def Head.chanGo (h : Head) (core n : Nat) : Head :=
  h.chanCmd core n [2, 5] fun c =>
    let len := (h.reg (Adr.DGT_CH_RUNLEN n)).toNat
    let addr := (h.reg (Adr.DGT_CH_SRC_LO n)).toNat + h.fld (Adr.DGT_CH_SRC_HI n) 15 0 * 2 ^ 32
    if len % 4 ≠ 0 then h.chanFail n 5
    else if c.dma < c.count + len then h.chanFail n 1
    else h.modChan n fun c => { c with state := 3, run := some (addr, len) }

/-- Output bytes: OUTLEN, 0 the natural output, never more than that. -/
def Chan.outBytes (c : Chan) : Nat :=
  if c.alg = 5 then c.outLen else if c.outLen = 0 then algOut c.alg else min c.outLen (algOut c.alg)

/-- The comparison of a finished message (R158, R159): class 1 sets MATCH; class 2 compares the value as written and inverted, and a pair
that is not legal ends in code 0x9 with source 881. The expected value is zeroed. -/
def Head.chanCompare (h : Head) (n : Nat) : Head :=
  let c := h.dgt.chan n
  let d := c.digest
  let same := (wordBytes c.expect).take d.length == d
  let inv := (wordBytes c.expectInv).take d.length == d.map (~~~ ·)
  let h := if c.cmpClass = 0 then h else h.modChan n fun c => { c with expect := List.replicate 16 0, expectInv := List.replicate 16 0xFFFFFFFF }
  if c.cmpClass = 1 then h.modChan n fun c => { c with mtch := same }
  else if c.cmpClass = 2 then
    let a : Word := if same then 0x0000A5A5 else 0x00005A5A
    let b : Word := if inv then 0xFFFF5A5A else 0xFFFFA5A5
    let h := h.modChan n fun c => { c with verdict := a, verdictInv := b }
    if same = inv then h else (h.report 881 sevFault (leBytes 4 a.toNat ++ leBytes 4 b.toNat)).chanFail n 9
  else h

/-- Pad, finish, run the outer pass of a hardware HMAC, show the output and compare. SHAKE256 without OUTLEN shows a free value: its
natural output is not stated. -/
def Head.chanFinish (h : Head) (n : Nat) (last : Bytes) : Head :=
  let c := h.dgt.chan n
  let blk := algBlock c.alg
  let (ws, part) := algFeed c.alg c.words c.part last
  let inner := algFinish c.alg (c.len + (if c.mode = 1 then blk else 0)) ws part
  let ws :=
    if c.mode = 1 then
      let o := algAbsorb c.alg (algInit c.alg) (xorPad 0x5C c.key blk)
      algFinish c.alg (blk + algOut c.alg) o (algRead c.alg 0 (algOut c.alg) inner)
    else inner
  let k := c.outBytes
  let out := if c.alg = 5 ∧ c.outLen = 0 then h.freeBytes 64 else algRead c.alg 0 k ws
  let h := h.when (c.alg == 5 && c.outLen == 0) Head.spend
  let h := (h.modChan n fun c => { c with
    state := 4, words := ws, part := [], digest := out, squeezed := k, lastWord := none, outer := c.mode == 1, key := [] }).chanFlag n 10
  h.chanCompare n

/-- The last word takes effect: 0x2 before the DMA portion is complete, 0x3 for a wrong VALID. -/
def Head.chanLast (h : Head) (n valid : Nat) (word : Word) : Head :=
  let c := h.dgt.chan n
  if c.count < c.dma then h.chanFail n 2
  else if valid ≠ c.len - c.dma then h.chanFail n 3
  else h.chanFinish n ((leBytes 4 word.toNat).take valid)

/-- The last-word write; during a run it is held. -/
def Head.chanLastWord (h : Head) (core n : Nat) (word : Word) : Head :=
  h.chanCmd core n [2, 3, 5] fun c =>
    let valid := h.fld (Adr.DGT_CH_LASTCNT n) 1 0
    if c.state = 3 then h.modChan n fun c => { c with lastWord := some (valid, word) } else h.chanLast n valid word

/-- The end of a run: its bytes are absorbed, and a held last word takes effect; a read error is code 0x4. -/
def State.chanRunEnd (s : State) (n : Nat) : State :=
  let c := s.head.dgt.chan n
  match c.run with
  | none => s
  | some (a, len) =>
    if c.state ≠ 3 then s
    else if !s.head.rangePopulated a len then { s with head := (s.head.unmapped a).chanFail n 4 }
    else
      let (ws, part) := algFeed c.alg c.words c.part (s.dmaBytes a len)
      let s := s.dma a len none
      let h := s.head.modChan n fun c => { c with state := 2, run := none, words := ws, part := part, count := c.count + len }
      match c.lastWord with
      | none => { s with head := h }
      | some (v, w) => { s with head := (h.modChan n fun c => { c with lastWord := none }).chanLast n v w }

/-- SUSPEND: at a block boundary the record is exposed; otherwise SUSPEND_REFUSED. -/
def Head.chanSuspend (h : Head) (core n : Nat) : Head :=
  h.chanCmd core n [2] fun c =>
    if c.count % algBlock c.alg ≠ 0 then h.chanFlag n 9
    else
      let wrap := c.mode == 1 && c.keySrc == 0
      let r := h.stateRecord c
      ((h.modChan n fun c => { c with state := 5, window := r, wrapped := wrap }).chanFlag n 10).when wrap Head.spend

/-- SQUEEZE: the next OUTLEN bytes of SHAKE256; without OUTLEN a free value, as at the finish. -/
def Head.chanSqueeze (h : Head) (core n : Nat) : Head :=
  h.chanCmd core n [4] fun c =>
    if c.alg ≠ 5 then h.chanFlag n 8
    else
      let out := if c.outLen = 0 then h.freeBytes 64 else algRead 5 c.squeezed c.outLen c.words
      ((h.modChan n fun c => { c with digest := out, squeezed := c.squeezed + c.outLen }).chanFlag n 10).when (c.outLen == 0) Head.spend

/-- EXPECT: stored as written and inverted (R159). -/
def Head.chanExpect (h : Head) (core n k : Nat) (word : Word) : Head :=
  match h.dgt.chans.find? (·.ch == n) with
  | none => h
  | some c =>
    if c.state ≠ 0 ∧ c.owner ≠ core then h.raise 882
    else h.modChan n fun c => { c with expect := c.expect.set k word, expectInv := c.expectInv.set k (~~~word) }

end Sys2Proof.Machine
end

