-- ==== Sys2Proof/Machine/Digest.lean ====
section
/-!
DEFINITION. Commands of the shared digest engine (07_digest_engine.md R145 to R159).
-/

namespace Sys2Proof.Machine

open Sys2Proof

/-- DGT_CLAIM (R149). -/
def execDgtClaim (core ch : Nat) (s : State) : Host.Outcome State Fault Refusal := s.act fun h => h.chanClaim core ch

/-- DGT_RELEASE (R149). -/
def execDgtRelease (core ch : Nat) (s : State) : Host.Outcome State Fault Refusal := s.act fun h => h.chanRelease core ch

/-- DGT_BEGIN (R151, R156). -/
def execDgtBegin (core ch : Nat) (s : State) : Host.Outcome State Fault Refusal := s.act fun h => h.chanBegin core ch

/-- DGT_RESTORE (R153, R154). -/
def execDgtRestore (core ch : Nat) (s : State) : Host.Outcome State Fault Refusal := s.act fun h => h.chanRestore core ch

/-- DGT_GO (R151, R152). -/
def execDgtGo (core ch : Nat) (s : State) : Host.Outcome State Fault Refusal := s.act fun h => h.chanGo core ch

/-- DGT_RUN_END (R151, R152). -/
def execDgtRunEnd (ch : Nat) (s : State) : Host.Outcome State Fault Refusal := .next (s.chanRunEnd ch)

/-- DGT_SUSPEND (R153). -/
def execDgtSuspend (core ch : Nat) (s : State) : Host.Outcome State Fault Refusal := s.act fun h => h.chanSuspend core ch

/-- DGT_SQUEEZE (R145). -/
def execDgtSqueeze (core ch : Nat) (s : State) : Host.Outcome State Fault Refusal := s.act fun h => h.chanSqueeze core ch

/-- DGT_LAST_WORD (R151, R152). -/
def execDgtLastWord (core ch : Nat) (word : Word) (s : State) : Host.Outcome State Fault Refusal := s.act fun h => h.chanLastWord core ch word

/-- DGT_EXPECT_WRITE (R159). -/
def execDgtExpectWrite (core ch k : Nat) (word : Word) (s : State) : Host.Outcome State Fault Refusal := s.act fun h => h.chanExpect core ch k word

end Sys2Proof.Machine
end

