-- ==== Sys2Proof/Machine/FaultRows.lean ====
section
/-!
DEFINITION. Commands of fault counting, Barker, the Attic, PARADE and the statistics clears (15_faults_barker_attic.md).
-/

namespace Sys2Proof.Machine

open Sys2Proof

/-! ## Faults -/

/-- FAULT_COUNT (R316, R317). -/
def execFaultCount (cls part : Nat) (atOnce : Bool) (s : State) : Host.Outcome State Fault Refusal :=
  s.act fun h => if 1 ≤ cls ∧ cls ≤ 12 then h.countAny cls part atOnce else h

/-- FAULT_AGE_OUT (R336): a counting fault closes once no count is left in the window. -/
def execFaultAgeOut (cls part : Nat) (s : State) : Host.Outcome State Fault Refusal :=
  s.act fun h =>
    let p := h.flt.part cls part
    if p.state ≤ 1 ∧ h.inWindow (h.windowH cls) p.times = [] then
      h.modFlt fun f => { f with parts := f.parts.filter fun x => x.cls != cls || x.part != part }
    else h

/-! ## Barker -/

/-- Change a source's state. -/
def Head.modSrc (h : Head) (n : Nat) (f : SrcState → SrcState) : Head := h.putSrc (f (h.src n))

/-- BRK_CLAIM (R323): a read of a claim register marks the source it returns IN_SERVICE. -/
def Head.claim (h : Head) (core : Nat) : Head :=
  match h.topSource (h.claimable core) with
  | none => h
  | some n => h.modSrc n fun x => { x with inService := true }

def execBrkClaim (core : Nat) (s : State) : Host.Outcome State Fault Refusal := s.act fun h => if core < 16 then h.claim core else h

/-- BRK_DONE (R323): ends the service of a source that is IN_SERVICE; one raised meanwhile is pending again. -/
def Head.done (h : Head) (source : Nat) : Head :=
  h.modSrc source fun x =>
    if x.inService then { x with pending := x.again, inService := false, again := false, rep := 0 } else x

def execBrkDone (core source : Nat) (s : State) : Host.Outcome State Fault Refusal :=
  s.act fun h => if core < 16 ∧ source < 1152 then h.done source else h

/-- BRK_PEND_DISMISS (R323): a 1 clears a source whatever its state. -/
def Head.dismiss (h : Head) (k : Nat) (mask : Word) : Head :=
  { h with brk := h.brk.filter fun x => !(x.src / 32 == k && mask.getLsbD (x.src % 32)) }

def execBrkPendDismiss (k : Nat) (mask : Word) (s : State) : Host.Outcome State Fault Refusal := s.act fun h => h.dismiss k mask

/-- BRK_RAISE (R325): a doorbell; its record needs a snapshot set. Another number is discarded with source 1000. -/
def Head.doorbell (h : Head) (source : Nat) : Head :=
  if 1056 ≤ source ∧ source ≤ 1151 then
    let h := h.raise source
    if h.srcSet source = 0 then h else h.enqueue sevInfo source 0 []
  else (h.orReg Adr.BRK_STATUS 0x40000).raise 1000

def execBrkRaise (source : Nat) (s : State) : Host.Outcome State Fault Refusal := s.act fun h => h.doorbell (source % 2048)

/-! ## The Attic -/

/-- ATTIC_RECORD_WRITE (R329, R330). -/
def execAtticRecordWrite (s : State) : Host.Outcome State Fault Refusal := s.act fun h => h.atticWrite

/-- ATC_READ_SLOT (R331): the slot as it stands; above 12,287 zeros. -/
def Head.readSlot (h : Head) (slot : Nat) : Head :=
  let bytes := if slot < 12288 then h.atc.slotBytes slot else zeros 128
  { h.setFld Adr.ATC_READ_SLOT 13 0 slot with atc := { h.atc with readData := leWords 32 bytes } }

def execAtcReadSlot (slot : Nat) (s : State) : Host.Outcome State Fault Refusal := s.act fun h => h.readSlot (slot % 16384)

/-- ATC_SET_COMMIT (R333): the selected set, 1 to 31, takes its addresses and the next generation. -/
def Head.commitSet (h : Head) : Head :=
  let n := h.fld Adr.ATC_SET_SEL 4 0
  if n = 0 then h
  else
    let l := (List.range (min 16 (h.fld Adr.ATC_SET_CTRL 12 8))).map fun k => h.fld (bankKey n (Adr.ATC_SET_ADDR k)) 23 2 * 4
    let gen := ((h.atc.set n).1 + 1) % 256
    let rest := h.atc.sets.filter fun x : Nat × Nat × List Nat => x.1 != n
    let h := { h with atc := { h.atc with sets := rest ++ [(n, gen, l)] } }
    (h.plainRecord sevInfo 2 (leBytes 1 n ++ leBytes 1 gen ++ zeros 2 ++ l.flatMap (leBytes 4))).raise 999

def execAtcSetCommit (s : State) : Host.Outcome State Fault Refusal := s.act fun h => h.commitSet

/-! ## PARADE and the clears -/

/-- PARADE_BUILD (R334): the summary that GLB_PARADE_DATA_k shows. -/
def Head.paradeBuild (h : Head) : Head := let (h, bytes) := h.buildSummary; { h with parade := bytes }

def execParadeBuild (s : State) : Host.Outcome State Fault Refusal := s.act fun h => h.paradeBuild

/-- HQE_PEAK_CLEAR (R50): both marks take the present values. -/
def Head.peakClear (h : Head) : Head := h.modHqe fun q => { q with peakCtrls := q.ctrls.length, peakCtxs := q.ctxs.length }

def execHqePeakClear (s : State) : Host.Outcome State Fault Refusal := s.act fun h => h.peakClear

/-- LDR_CNT_CLEAR (R103): every counter becomes 0. -/
def Head.ldrClear (h : Head) : Head := h.modLdr fun l => { l with cnt := List.replicate 16 0, unreadable := 0 }

def execLdrCntClear (s : State) : Host.Outcome State Fault Refusal := s.act fun h => h.ldrClear

/-- CPH_STAT_CLEAR (R137): every counter becomes 0. -/
def Head.cphClear (h : Head) : Head := h.modCph fun c => { c with stat := List.replicate 8 0 }

def execCphStatClear (s : State) : Host.Outcome State Fault Refusal := s.act fun h => h.cphClear

end Sys2Proof.Machine
end

