-- ==== Sys2Proof/Machine/Power.lean ====
section
/-!
DEFINITION. Commands of the power states, the cellar and the supply pins (13_power_states_and_wake.md; 14 R314; 16 R338; 17 R372, R373).
-/

namespace Sys2Proof.Machine

open Sys2Proof

/-! ## Entering a state -/

/-- POWER_STATE_REACHED (R287). -/
def execPowerStateReached (s : State) : Host.Outcome State Fault Refusal := s.act fun h => h.stateReached

/-- Troupes that this head flew and has closed are IDLE; their map pages are written (R290). -/
def Head.leaveClosed (h : Head) : Head :=
  h.forEach h.flown fun h t =>
    let h := h.modLdr fun l => { l with dirtyPages := l.dirtyPages.filter (·.1 != t) }
    (h.setRole t 0 0).dropHold t

/-- Step 2 of R289 has ended: every Flyer troupe is closed, no handover and no command is left, and the shelves are closed. -/
def Head.entryOver (h : Head) : Bool :=
  h.heldCmds.isEmpty && !h.giving && h.flown.all h.troupeClosed

/-- PORTS_POWER_DOWN (R289): steps 3 to 5 of the entry, or the closing of shelves that step 2 still asks for. -/
def execPortsPowerDown (s : State) : Host.Outcome State Fault Refusal :=
  match s.head.pwr.entry with
  | none => .next s
  | some e =>
    if e.target < 3 ∨ !s.head.entryOver then .next s
    else if s.head.shelvesLeft ≠ [] then
      s.act fun h => h.forEach (h.shelvesLeft.filter fun n => (h.shf.shelf n).state == 3) fun h n => h.startClosing n
    else
      let drained := Memory.writeBack s.mem s.head.pan.lines
      .next { s with head := (s.head.leaveClosed.switchOff e).modPwr fun p => { p with entry := none }, mem := keptMemory e.target drained }

/-! ## Rings, domains and clocks -/

/-- RING_DEMAND_WAKE (R288). -/
def execRingDemandWake (ring : Nat) (s : State) : Host.Outcome State Fault Refusal := s.act fun h => h.demandRing ring

/-- RING_REGATE (R288). -/
def execRingRegate (ring : Nat) (s : State) : Host.Outcome State Fault Refusal := s.act fun h => h.regateRing ring

/-- DOMAIN_FIRST_ACCESS (R292): the requester stalls until the domain is ready. -/
def execDomainFirstAccess (domain : Nat) (s : State) : Host.Outcome State Fault Refusal :=
  s.act fun h => if h.awake then h.wakeDomain domain true else h

/-- DOMAIN_NOT_READY (R292): the stalled access returns a bus error, which counts in the domain's fault window. -/
def execDomainNotReady (domain : Nat) (s : State) : Host.Outcome State Fault Refusal :=
  s.act fun h =>
    let d := Domain.get h.pwr.domains domain
    if d.state ≠ 1 ∨ !d.stalled then h
    else (((h.modDomain domain fun x => { x with stalled := false }).emit (.busError domain)).raise 802).countFault 0xA domain false

/-- PWR_DOM_ON (R292): firmware wakes the selected domain; ignored unless PDOM enables it. -/
def Head.domOn (h : Head) : Head := if h.awake then h.wakeDomain (h.fld Adr.PWR_DOM_SEL 7 0) false else h

def execPwrDomOn (s : State) : Host.Outcome State Fault Refusal := s.act fun h => h.domOn

/-- PWR_CLK_SWITCH (R292): the control cores move to the core PLL once it has locked. -/
def Head.clkSwitch (h : Head) : Head :=
  if h.awake ∧ h.pwr.pllLock.getLsbD 0 then h.modPwr fun p => { p with onPll := true } else h

def execPwrClkSwitch (s : State) : Host.Outcome State Fault Refusal := s.act fun h => h.clkSwitch

/-! ## Wakes -/

/-- CALENDAR_ALARM (R293): an enabled alarm of a valid calendar, once. -/
def execCalendarAlarm (s : State) : Host.Outcome State Fault Refusal :=
  s.act fun h =>
    if h.cel.calValid ∧ h.bit Adr.CEL_ALARM_HI 31 then (h.setFld Adr.CEL_ALARM_HI 31 31 0).wake 2 else h

/-- MGMT_ADDRESS_MATCH (R298). -/
def execMgmtAddressMatch (addr command : Nat) (s : State) : Host.Outcome State Fault Refusal := s.act fun h => h.mgmtMatch addr command

/-- CELLAR_STATUS (R298). -/
def execCellarStatus (s : State) : Host.Outcome State Fault Refusal := s.act fun h => h.cellarStatus

/-- MGMT_WAKE (R298). -/
def execMgmtWake (s : State) : Host.Outcome State Fault Refusal := s.act fun h => h.mgmtWake

/-- SAMPLER_TICK (R296). -/
def execSamplerTick (r : SamplerReading) (s : State) : Host.Outcome State Fault Refusal := s.act fun h => h.sample r

/-- WAKE_PART_TIMEOUT (R294). -/
def execWakePartTimeout (part : Nat) (s : State) : Host.Outcome State Fault Refusal := s.act fun h => h.partTimeout part

/-- WAKE_GROUP_READY (R292, R295): the first group is the start of the control cores. -/
def execWakeGroupReady (group : Nat) (signatures : List (Nat × BitVec 64)) (i : StartInfo) (s : State) : Host.Outcome State Fault Refusal :=
  s.act fun h => h.wakeGroupReady group signatures i

/-! ## Supplies and RESET_N -/

/-- VIN_RESTORED (R293, R314): VIN has been at or above RESTART_V for 100 ms. -/
def execVinRestored (s : State) : Host.Outcome State Fault Refusal :=
  s.act fun h => if h.pwr.state = 4 ∧ (h.cel.vinLoss ∨ h.bit Adr.CEL_WAKE_CFG 2) then h.wake 4 else h

/-- What a head in CAROUSEL loses when VIN goes: it falls to CELLAR with cause 0x7, and the DDR5 contents are void (R283, R295). -/
def Head.carouselLost (h : Head) : Head :=
  (h.modPwr fun p => { p with state := 4, waking := none }).modCel fun c =>
    { c with cause := 7, vinLoss := true, tripped := false, ddrLost := true, signatures := [], runs := [0, 0, 0, 0] }

/-- VIN_BELOW_CELLAR (R283): below 5.5 V the cellar runs from VBAK. -/
def execVinBelowCellar (s : State) : Host.Outcome State Fault Refusal :=
  let h := { s.head with pins := { s.head.pins with vin := false }, cel := { s.head.cel with onVbak := true } }
  if h.pwr.state = 3 then .next { s with head := h.carouselLost, mem := keptMemory 4 s.mem } else .next { s with head := h }

/-- VIN_ABOVE_CELLAR (R283): above 5.8 V the cellar runs from VIN again. -/
def execVinAboveCellar (s : State) : Host.Outcome State Fault Refusal :=
  s.act fun h => { h with pins := { h.pins with vin := true }, cel := { h.cel with onVbak := false } }

/-- The instructions that act as RESET_N asserted (R368). -/
def tapHolds : Option JtagInstr → Bool
  | some .extest | some .extestPulse | some .extestTrain | some .clamp | some .highz => true
  | _ => false

/-- RESET_N is low, or a boundary-scan instruction acts as it (R368, R372). -/
def Head.heldReset (h : Head) : Bool := h.pins.resetLow || tapHolds h.pins.tap

/-- The effect of RESET_N asserted (R372): the keeper drops both HOLD lines, and every domain but the cellar is held in reset. -/
def Head.holdReset (h : Head) : Head :=
  let h := h.keeperDrop
  let free := h.free
  let h := { h.stopped false with free := free }
  { h with
    pins := { h.pins with wakeAlert := false }
    pwr := { h.pwr with state := 0, waking := none, entry := none }
    fwu := { h.fwu with running := false } }

/-- VIN_APPLIED (R338): a head that is off starts; one that sleeps with VIN lost waits for RESTART_V, and one held by RESET_N for its
release. -/
def execVinApplied (i : StartInfo) (s : State) : Host.Outcome State Fault Refusal :=
  s.act fun h =>
    let off := !h.fwu.running && h.pwr.state != 3 && h.pwr.state != 4
    let h := { h with pins := { h.pins with vin := true }, cel := { h.cel with onVbak := false } }
    if off ∧ !h.heldReset then (h.modPwr fun p => { p with state := 0 }).start 0 i else h

/-- RESET_ASSERT (R372): RESET_N is low for at least 1 µs. -/
def execResetAssert (s : State) : Host.Outcome State Fault Refusal :=
  s.act fun h =>
    let h := h.holdReset
    { h with pins := { h.pins with resetLow := true } }

/-- RESET_RELEASE (R372): a wake with cause 0x5. -/
def execResetRelease (i : StartInfo) (s : State) : Host.Outcome State Fault Refusal :=
  s.act fun h =>
    if !h.pins.resetLow then h
    else
      let h := { h with pins := { h.pins with resetLow := false } }
      if h.heldReset then h else h.start 5 i

/-- LOSS_OF_BOTH_SUPPLIES (R283): the cellar is unpowered. Its MRAM and the flash stay; the calendar is invalid. -/
def Head.unpowered (h : Head) : Head :=
  let free := h.free
  let h := { h.stopped false with free := free }
  { h with
    regs := []
    cel := { calSec := h.calNow, opSec := h.cel.opSec, opAt := h.cel.opAt, cycles := h.cel.cycles, flushMs := h.cel.flushMs, tripped := h.cel.tripped, ddrLost := true }
    pwr := { h.pwr with state := 5, waking := none, entry := none }
    pins := { h.pins with vin := false, vbak := false, wakeAlert := false }
    fwu := { h.fwu with running := false } }

def execLossOfBothSupplies (s : State) : Host.Outcome State Fault Refusal :=
  .next { s with head := s.head.unpowered, mem := keptMemory 5 s.mem }

/-! ## The calendar -/

/-- CALENDAR_SET (R297): the CEL_CAL_HI write loads the calendar. -/
def Head.calendarSet (h : Head) (value : Word) : Head :=
  h.modCel fun c => { c with
    calSec := (h.fld Adr.CEL_CAL_SEC_LO 31 0) + value.toNat % 65536 * 2 ^ 32, calAt := h.now, calValid := true, crystalStopped := false }

def execCalendarSet (value : Word) (s : State) : Host.Outcome State Fault Refusal := s.act fun h => h.calendarSet value

/-- CALENDAR_CRYSTAL_STOPPED (R373): VALID clears; source 824 comes once the control space is powered. -/
def execCalendarCrystalStopped (s : State) : Host.Outcome State Fault Refusal :=
  s.act fun h =>
    let now := h.calNow
    let h := h.modCel fun c => { c with calValid := false, calSec := now, crystalStopped := true }
    if h.awake then h.raise 824 else h

end Sys2Proof.Machine
end

