-- ==== Sys2Proof/Machine/Firmware.lean ====
section
/-!
DEFINITION. Bridge firmware, scheduled activation, trial, fuses, field recovery and attestation (16_boot_trust_and_firmware.md R345,
R350 to R363).
-/

namespace Sys2Proof.Machine

open Sys2Proof

/-! ## Conditions of an update (R354) -/

/-- The conditions of R71 reasons 0x1 to 0x4 on this head: a reshape boundary moves, a rebuild runs, the hold-up energy is below
150 % of the need, the owner lock is set. -/
def Head.ownConditions (h : Head) : List Bool :=
  [h.mnd.reshape.state == 1, h.mnd.rebuilds.any (·.spareKind != 3), decide (h.cal.availMj * 100 < 150 * h.cal.needMj), h.stg.ownerLock]

/-- The lowest reason that holds on either head. -/
def Head.updateRefused (h : Head) : Option Nat :=
  (List.range 4).findSome? fun i => if h.ownConditions.getD i false || h.pair.peerConditions.getLsbD i then some (i + 1) else none

/-- A refusal by R354: source 941 and REFUSE_REASON. -/
def Head.noteRefusal (h : Head) (reason : Nat) : Head := (h.modFwu fun f => { f with reason := reason }).raise 941

/-! ## Bridges (R350) -/

/-- TYPE 0x5 DIGEST of the booted image. -/
def Head.bridgeDigest (h : Head) : Bytes :=
  match h.fwu.image with
  | none => zeros 32
  | some img => ((img.dir.find? (·.1 == 5)).map (·.2.2.2.2)).getD (zeros 32)

/-- BRIDGE_FIRMWARE_LOAD: the power master loads a pending bridge while its shelf is DARK and AUTO_BRIDGE is 1. -/
def Head.bridgeLoad (h : Head) (n : Nat) : Head :=
  match h.fwu.bridges.find? (·.1 == n) with
  | none => h
  | some b =>
    if b.2.2.2 ≠ 1 ∨ !h.pair.spareMaster ∨ !h.bit Adr.FWU_CFG 1 ∨ (h.shf.shelf n).state ≠ 1 ∨ h.landing n then h
    else
      let want := h.bridgeDigest
      ((h.modFwu fun f => { f with
        bridges := f.bridges.map fun (x : Nat × Bytes × Nat × Nat) => if x.1 = n then (n, want, x.2.2.1, 0) else x }).emit (.bridgeLoad n)).raise 947

def execBridgeFirmwareLoad (shelf : Nat) (s : State) : Host.Outcome State Fault Refusal := s.act fun h => h.bridgeLoad shelf

/-! ## Activation (R357, R358) -/

/-- Withdraw a schedule: source 943. -/
def Head.unschedule (h : Head) : Head := (h.modFwu fun f => { f with schedule := none }).raise 943

/-- The peer conditions of R357, when the peer is reached: an in-step Catcher of every troupe that this head flies, and what the peer
itself answers. With the peer absent, ALONE_OK decides. -/
def Head.peerAllows (h : Head) (peerConfirms : Bool) : Bool :=
  if h.pair.icl then peerConfirms && h.flown.all h.paired
  else h.pair.absent && h.bit Adr.FWU_CFG 0

/-- An activation alone goes on once every troupe is closed: the shelves close, then the head restarts and holds no troupe. -/
def Head.activationStep (h : Head) : Head :=
  if !h.fwu.activating ∨ h.giving ∨ !h.flown.all h.troupeClosed then h
  else if h.shelvesLeft ≠ [] then
    h.forEach (h.shelvesLeft.filter fun n => (h.shf.shelf n).state == 3) fun h n => h.startClosing n
  else h.leaveClosed.restart 0

/-- FIRMWARE_ACTIVATION_EDGE: R354 and the peer's conditions again; then the trial is set and the troupes are handed over at the
edge 2 beats on, or closed when the head is alone. -/
def Head.activate (h : Head) (peerConfirms : Bool) : Head :=
  match h.fwu.schedule with
  | none => h
  | some (slot, edge) =>
    if h.whl.cycle < edge then h
    else
      let reason := match h.updateRefused with
        | some r => some r
        | none => if h.peerAllows peerConfirms then none else some 6
      match reason with
      | some r => (h.modFwu fun f => { f with schedule := none }).report 943 sevNotice (leBytes 1 r)
      | none =>
        let h := h.modFwu fun f => { f with schedule := none, activating := true }
        let h := (h.putBctl fun b => { b with trial := slot, attempts := 0 }).raise 944
        let h := h.postEvent 2 1 3
        if h.pair.icl then (h.forEach h.flown fun h t => h.handOver t (h.whl.beat + 2) true false).restartSoon
        else (h.forEach h.flown fun h t => h.closeTroupe t).activationStep

def execFirmwareActivationEdge (peerConfirms : Bool) (s : State) : Host.Outcome State Fault Refusal :=
  s.act fun h => h.activate peerConfirms

/-- A handover that was aborted cancels the activation it served: no restart, and TRIAL is withdrawn (R358). -/
def Head.cancelActivation (h : Head) : Head :=
  if !h.fwu.activating then h
  else ((h.modFwu fun f => { f with activating := false, restartDue := false }).putBctl fun b => { b with trial := 0 }).raise 943

/-! ## Trial (R360 to R362), fuses (R345), field recovery (R342) -/

/-- A CONFIRM, SVN_RAISE or CANCEL that is ignored sets REFUSED. -/
def Head.fwuRefused (h : Head) : Head := h.setFld Adr.FWU_STATUS 10 10 1

/-- R360: every troupe the peer holds is PAIRED with this head as Catcher, or, with the peer absent, this head holds its troupes. -/
def Head.confirmable (h : Head) : Bool :=
  h.fwu.trial && h.fwu.bctl.trial != 0 &&
    (if h.pair.icl then [Troupe.a, .b].all fun t => !h.peerFlies t || ((h.pair.trp t).role == 2 && (h.pair.trp t).state == 1)
     else h.pair.absent && !h.flown.isEmpty)

/-- Blow the revocation bits below a key index: source 950 with a NOTICE record. -/
def Head.revoke (h : Head) (k : Nat) : Head :=
  let m := h.fuse.revoked ||| BitVec.ofNat 4 (2 ^ k - 1)
  if m = h.fuse.revoked then h
  else ({ h with fuse := { h.fuse with revoked := m } } : Head).report 950 sevNotice (leBytes 1 m.toNat)

/-- FWU_CONFIRM (R360). -/
def Head.confirmTrial (h : Head) : Head :=
  if !h.confirmable then h.fwuRefused
  else
    let h := (h.putBctl fun b => { b with active := b.trial, trial := 0, attempts := 0 }).modFwu fun f => { f with trial := false }
    let h := match h.fwu.image with
      | some i => if i.revokeBelow then h.revoke i.keyIndex else h
      | none => h
    h.raise 945

def execFwuConfirm (s : State) : Host.Outcome State Fault Refusal := s.act fun h => h.confirmTrial

/-- SVN of the image in a slot. -/
def Head.slotSvn (h : Head) (slot : Nat) : Option Nat := (parseBoot (h.imageBytes slot)).map (·.svn)

/-- FWU_SVN_RAISE (R345): refused during a trial and while the other VALID slot holds a lower SVN. -/
def Head.raiseSvn (h : Head) : Head :=
  let b := h.fwu.bctl
  match h.slotSvn b.active with
  | none => h.fwuRefused
  | some v =>
    let lower := b.isValid (3 - b.active) && ((h.slotSvn (3 - b.active)).map (decide <| · < v)).getD false
    if h.fwu.trial ∨ b.trial ≠ 0 ∨ b.active = 0 ∨ lower then h.fwuRefused
    else if v ≤ h.fuse.svnFloor then h
    else ({ h with fuse := { h.fuse with svnFloor := v } } : Head).report 950 sevNotice (leBytes 1 v)

def execFwuSvnRaise (s : State) : Host.Outcome State Fault Refusal := s.act fun h => h.raiseSvn

/-- FWU_CANCEL (R357). -/
def Head.fwuCancel (h : Head) : Head := if h.fwu.schedule.isSome then h.unschedule else h.fwuRefused

def execFwuCancel (s : State) : Host.Outcome State Fault Refusal := s.act fun h => h.fwuCancel

/-- FWU_FIELD_RECOVERY: FIELD is written and the head restarts; ignored when the slot is not VALID. -/
def Head.fieldRecovery (h : Head) : Head :=
  let slot := h.fld Adr.FWU_CTRL 5 4
  if (slot = 1 ∨ slot = 2) ∧ h.fwu.bctl.isValid slot then (h.putBctl fun b => { b with field := slot }).restart 0 else h

def execFwuFieldRecovery (s : State) : Host.Outcome State Fault Refusal := s.act fun h => h.fieldRecovery

/-- TRIAL_S as a start samples it: a start has just reset FWU_CFG, so its reset value (R363, DEDUCED). -/
def trialSeconds : Nat := 0x384

/-- TRIAL_TIMEOUT (R361, R362): the head rolls back, hands its troupes over when the peer is in step, and restarts. -/
def Head.trialTimeout (h : Head) : Head :=
  if !h.fwu.trial ∨ h.now < h.fwu.startS + trialSeconds * 1000000 then h
  else
    let h := (h.rollBack).modFwu fun f => { f with trial := false }
    (h.forEach h.flown fun h t => h.handAway t false true).restartSoon

def execTrialTimeout (s : State) : Host.Outcome State Fault Refusal := s.act fun h => h.trialTimeout

/-! ## Attestation (R352, R353) -/

/-- ATTESTATION_START: a quote begins; before an index at the watermark is used, the watermark moves on by 4,096. -/
def Head.attStart (h : Head) : Head :=
  if h.fwu.attBusy then h
  else if 2 ^ 40 ≤ h.fwu.attIndex then (h.modFwu fun f => { f with attResult := 3 }).report 949 sevCritical (leBytes 8 h.fwu.attIndex)
  else h.modFwu fun f => { f with
    attBusy := true, attResult := 0, attDst := h.fld Adr.FWU_ATT_DST_HI 15 0 * 2 ^ 32 + h.fld Adr.FWU_ATT_DST_LO 31 0,
    attMark := if f.attMark ≤ f.attIndex then f.attIndex + 4096 else f.attMark }

def execAttestationStart (s : State) : Host.Outcome State Fault Refusal := s.act fun h => h.attStart

/-- Bytes of eight registers. -/
def Head.eightWords (h : Head) (a : Nat → Nat) : Bytes := (List.range 8).flatMap fun k => leBytes 4 (h.reg (a k)).toNat

/-- The words of the coefficient bank in force. -/
def Head.calWords (h : Head) : List Word := (h.cal.active).getD []

/-- The quote without its signature: bytes 0x000 to 0x0FF. -/
def Head.quote (h : Head) : Bytes :=
  let key := ((h.fwu.image.map (·.keyIndex)).getD 0)
  let svn := ((h.fwu.image.map (·.svn)).getD 0)
  leBytes 4 0x54535441 ++ leBytes 2 1 ++ leBytes 2 10149 ++ leBytes 8 h.fuse.serial.toNat ++ leBytes 4 (h.readReg Adr.GLB_IDENT).toNat ++
    leBytes 1 h.fwu.phase ++ leBytes 1 h.fwu.booted ++ leBytes 1 (flag h.fwu.trial + flag h.fwu.fallback * 2) ++ leBytes 1 key ++
    leBytes 1 svn ++ leBytes 1 h.fuse.svnFloor ++ zeros 6 ++ leBytes 8 h.stamp ++ fit 32 h.fwu.imageDigest ++ fit 32 h.tsi.digest ++
    fit 32 h.bridgeDigest ++ sha3_256 (wordBytes h.calWords) ++ h.eightWords Adr.FWU_ATT_NONCE ++ h.eightWords Adr.FWU_ATT_USER ++
    leBytes 8 h.fwu.attIndex ++ zeros 16

/-- A quote is done: the index is used, and the nonce and user words are zeroed. -/
def Head.quoteEnd (h : Head) : Head :=
  let h := h.modFwu fun f => { f with attBusy := false, attResult := 1, attIndex := f.attIndex + 1 }
  h.forEach (List.range 8) fun h k => (h.setFld (Adr.FWU_ATT_NONCE k) 31 0 0).setFld (Adr.FWU_ATT_USER k) 31 0 0

/-- ATTESTATION_QUOTE_DONE: the quote goes to the destination and the nonce and user words are zeroed; an unreadable destination uses
no index. -/
def State.quoteDone (s : State) (signature : Bytes) : State :=
  let h := s.head
  let q := h.quote ++ fit 9893 signature
  if !h.fwu.attBusy then s
  else if !h.rangePopulated h.fwu.attDst q.length then
    { s with head := (h.unmapped h.fwu.attDst).modFwu fun f => { f with attBusy := false, attResult := 2 } }
  else
    let s := s.dma h.fwu.attDst q.length (some q)
    { s with head := s.head.quoteEnd }

def execAttestationQuoteDone (signature : Bytes) (s : State) : Host.Outcome State Fault Refusal := .next (s.quoteDone signature)

end Sys2Proof.Machine
end

