-- ==== Sys2Proof/Machine/Memory.lean ====
section
/-!
DEFINITION. Commands of the Pantry and the memory controllers (12_pantry_and_memory.md R266 to R281).
-/

namespace Sys2Proof.Machine

open Sys2Proof

/-- PANTRY_ACCESS (R269 to R272). -/
def execPantryAccess (cls stream addr : Nat) (write : Option Bytes) (s : State) : Host.Outcome State Fault Refusal :=
  .next (s.access cls stream addr write)

/-- PANTRY_LINE_FILL (R272). -/
def execPantryLineFill (addr : Nat) (s : State) : Host.Outcome State Fault Refusal := .next (s.lineFill addr)

/-- DMA_SNOOP (R273). -/
def execDmaSnoop (addr len : Nat) (write : Option Bytes) (s : State) : Host.Outcome State Fault Refusal := .next (s.dma addr len write)

/-- PANTRY_DRAIN_START (R274). -/
def execPantryDrainStart (s : State) : Host.Outcome State Fault Refusal := s.act fun h => h.drainStart

/-- PANTRY_DRAIN_STOP (R274). -/
def execPantryDrainStop (s : State) : Host.Outcome State Fault Refusal := s.act fun h => h.drainStop

/-- PANTRY_DRAINED (R274). -/
def execPantryDrained (s : State) : Host.Outcome State Fault Refusal := .next s.drained

/-- PAN_STAT_CLEAR: all statistics become 0. -/
def Head.panClear (h : Head) : Head := h.modPan fun p => { p with stat := List.replicate 16 0 }

def execPanStatClear (s : State) : Host.Outcome State Fault Refusal := s.act fun h => h.panClear

/-- SRAM_ECC_ERROR (R276): an uncorrectable error of a bank counts a lasting fault at once. -/
def execSramEccError (bank : Nat) (ue : Bool) (held : SramContent) (s : State) : Host.Outcome State Fault Refusal :=
  s.act fun h =>
    if 64 ≤ bank then h
    else
      let h := (h.memError (if ue then 5 else 4) 3 bank 0 ue).raise (if ue then 738 else 737)
      (h.when ue fun h => h.sramLost held).countFault 3 bank ue

/-- HBM_ECC_ERROR (R278): an uncorrectable error writes a FAULT record with the stack and pseudo-channel. -/
def execHbmEccError (stack pc : Nat) (ue : Bool) (held : HbmContent) (s : State) : Host.Outcome State Fault Refusal :=
  s.act fun h =>
    if 4 ≤ stack ∨ 32 ≤ pc then h
    else
      let h := h.memError (if ue then 1 else 0) 1 stack pc ue
      let h := if ue then (h.report 742 sevFault (leBytes 1 stack ++ leBytes 1 pc)).hbmLost held else h.raise 741
      h.countFault 4 (32 * stack + pc) ue

/-- DDR_ECC_ERROR (R280). -/
def execDdrEccError (channel addr : Nat) (ue : Bool) (s : State) : Host.Outcome State Fault Refusal :=
  s.act fun h =>
    if 8 ≤ channel then h
    else
      let h := h.memError (if ue then 3 else 2) 2 channel 0 ue
      if ue then h.ddrLost addr else (h.raise 745).countFault 0xB channel false

/-- HBM_SPARE_COPY_DONE (R277): the spare takes the addresses. -/
def execHbmSpareCopyDone (stack : Nat) (s : State) : Host.Outcome State Fault Refusal :=
  s.act fun h => h.hbmSwapped stack

/-- MEMORY_SCRUB_PASS (R278, R280): a pass over all HBM or DDR5 has been made. -/
def execMemoryScrubPass (ddr : Bool) (s : State) : Host.Outcome State Fault Refusal :=
  s.act fun h => h.modMemc fun m => { m with scrubs := if ddr then (m.scrubs.1, m.scrubs.2 + 1) else (m.scrubs.1 + 1, m.scrubs.2) }

/-- MEM_ERR_CLEAR: all error counters become 0. -/
def Head.memClear (h : Head) : Head := h.modMemc fun m => { m with errs := List.replicate 16 0 }

def execMemErrClear (s : State) : Host.Outcome State Fault Refusal := s.act fun h => h.memClear

/-- UNMAPPED_MEMORY_ACCESS (R266). -/
def execUnmappedMemoryAccess (addr : Nat) (s : State) : Host.Outcome State Fault Refusal :=
  s.act fun h => if h.populated addr then h else h.unmapped addr

end Sys2Proof.Machine
end

