-- ==== Sys2Proof/Machine/Mend.lean ====
section
/-!
DEFINITION. Commands of Mend (09_rebuild_and_reshape.md R187 to R214): module states, rebuild, reclamation, reshape and patrol.
-/

namespace Sys2Proof.Machine

open Sys2Proof

/-! ## Modules (R187 to R192) -/

/-- WEAR_PCT: 50 to 100; other values act as 95. -/
def Head.wearPct (h : Head) : Nat :=
  let p := h.fld Adr.MND_CFG 7 0
  if 50 ≤ p ∧ p ≤ 100 then p else 95

/-- MODULE_STATUS_REPORT (R188): a counted cause is counted; the others declare the module FAILED or WORN at once. -/
def Head.moduleStatus (h : Head) (s n : Nat) (cause : ModuleCause) : Head :=
  match cause with
  | .removed => h.declareModule s n false 3 0
  | .fatal => h.declareModule s n false 4 0
  | .late => h.countModule s n 0
  | .program => h.countModule s n 2
  | .media => h.countModule s n 1
  | .wornWarning => h.declareModule s n true 5 0
  | .percentUsed p => if h.wearPct ≤ p then h.declareModule s n true 6 p else h

def execModuleStatusReport (shelf mdl : Nat) (cause : ModuleCause) (s : State) : Host.Outcome State Fault Refusal :=
  s.act fun h => h.moduleStatus shelf mdl cause

/-- An admitted module restores a spare: the reduced mode ends, evacuation stops, and rebuild takes over what is left (R205). -/
def Head.spareRestored (h : Head) : Head :=
  if !h.mnd.reduced then h
  else
    ((h.leaveReduced 5).modMnd fun m => { m with reduced := false, rebuilds := m.rebuilds.filter (·.spareKind != 3) }).assignAll

/-- MODULE_ADMIT (R187): the selected ABSENT module is formatted and becomes HEALTHY; a head that is not spare master forwards it. -/
def Head.admitModule (h : Head) (s n : Nat) : Head :=
  if !h.mnd.modules.any (fun m => m.shelf == s && m.mdl == n && m.state == 5) then h
  else if !h.pair.spareMaster then h.when h.pair.icl fun h => h.emit (.control (.moduleState s n 5))
  else
    let z := Config.moduleZones s n
    let spare := h.bit Adr.MND_CFG 8
    let h := (h.modModule s n fun m => { m with
      state := 0, spare := spare, late := [], media := [], program := [], zones := z.1, zoneUnits := z.2 }).emit (.moduleCmd s n 0)
    let h := h.when h.pair.icl fun h => h.emit (.control (.moduleState s n 0))
    let h := h.when spare fun h => (h.modKind 6 fun x => { x with total := x.total + 1 }).spareRestored
    h.placeWaiting

def execModuleAdmit (s : State) : Host.Outcome State Fault Refusal :=
  s.act fun h => h.admitModule (h.fld Adr.MND_MEMBER_SEL 6 0) (h.fld Adr.MND_MEMBER_SEL 13 8)

/-- REBUILD_UNIT_LAUNCH (R193, R195, R196, R205): the next unit row set of a rebuild, a group being taken up at its spare's write pointer, or the
next group of an evacuation. -/
def execRebuildUnitLaunch (rebuild pointer : Nat) (s : State) : Host.Outcome State Fault Refusal :=
  s.act fun h =>
    match h.mnd.rebuilds.find? (·.id == rebuild) with
    | none => h
    | some r => if r.spareKind = 3 then h.evacuate r else h.launchUnit r pointer

/-- JOURNAL_COPY_MOVED (R201): the new module is in effect, the copy is healthy, source 568; a second missing copy moves next. -/
def Head.copyMoved (h : Head) (t : Troupe) : Head :=
  let i := troupeBit t
  match (h.mnd.jrnEff[i]?).bind (·.2.2) with
  | none => h
  | some m =>
    let (shelf, a, b) := h.journalHome t
    let (okA, okB, c) := h.pty.copies.getD i (false, false, false)
    let (a, b) := if okA then (a, m) else (m, b)
    let (okA, okB) := if okA then (true, true) else (true, okB)
    let next := if okB then none
      else ((h.mnd.modules.filter fun x => x.shelf == shelf && x.state == 0 && x.mdl != a && x.mdl != b).map (·.mdl)).min?
    let h := h.modPty fun p => { p with copies := p.copies.set i (okA, okB, c) }
    (h.modMnd fun x => { x with jrnEff := x.jrnEff.set i (a, b, next) }).raise 568

def execJournalCopyMoved (t : Troupe) (s : State) : Host.Outcome State Fault Refusal := s.act fun h => h.copyMoved t

/-- ZONE_GROUP_RECLAIM (R206). -/
def execZoneGroupReclaim (group : Nat) (s : State) : Host.Outcome State Fault Refusal := s.act fun h => h.reclaim group

/-! ## Reshape (R207 to R211) -/

/-- The boundary stands at the first source stripe of a list, or behind the last one. -/
def Reshape.at_ (r : Reshape) (l : List Stripe) : Reshape :=
  match l with
  | s :: _ => { r with group := s.group, unit := s.unit }
  | [] => r

/-- A job that has ended: an INFO record when it is DONE. -/
def Head.jobEnd (h : Head) (st : Nat) : Head :=
  let h := h.modRsh fun r => { r with state := st, pauseAsked := false, abortAsked := false, inBatch := [] }
  h.when (st == 3) fun h => h.unlisted sevInfo (leBytes 1 h.rsh.shelf ++ leBytes 1 h.rsh.src ++ leBytes 1 h.rsh.dst)

/-- The reason to refuse a start: 0x1 a job is active, 0x2 a geometry is undefined or the classes differ, 0x3 not Flyer, 0x4 too few
HEALTHY modules. -/
def Head.reshapeReason (h : Head) (shelf : Nat) (t : Troupe) (src dst : Nat) : Nat :=
  if h.rsh.state = 1 ∨ h.rsh.state = 2 then 1
  else
    match h.geom src, h.geom dst with
    | some a, some b =>
      if a.cls ≠ b.cls then 2
      else if !h.flies t then 3
      else if (h.healthy shelf).length < b.k + 2 then 4 else 0
    | _, _ => 2

/-- RESHAPE_START (R207). A start while a job is active leaves that job's STATE and shows the reason (log 30). -/
def Head.reshapeStart (h : Head) : Head :=
  let c := Adr.MND_RSH_CFG
  let shelf := h.fld c 6 0
  let t : Troupe := if h.bit c 7 then .b else .a
  let src := h.fld c 12 8
  let dst := h.fld c 20 16
  match h.reshapeReason shelf t src dst with
  | 0 =>
    let h := h.modRsh fun _ => { state := 1, shelf := shelf, troupe := t, src := src, dst := dst, batch := orIfZero 1 (h.fld c 31 24) }
    let l := h.jobStripes
    let h := h.modRsh fun r => { r.at_ l with total := l.length }
    if l = [] then h.jobEnd 3 else h.startBatch
  | 1 => h.modRsh fun r => { r with reason := 1 }
  | n => h.modRsh fun r => { r with state := 5, reason := n }

def execReshapeStart (s : State) : Host.Outcome State Fault Refusal := s.act fun h => h.reshapeStart

/-- RESHAPE_PAUSE (R211): at the next boundary move. -/
def Head.reshapePause (h : Head) : Head := if h.rsh.state = 1 then h.modRsh fun r => { r with pauseAsked := true } else h

def execReshapePause (s : State) : Host.Outcome State Fault Refusal := s.act fun h => h.reshapePause

/-- RESHAPE_RESUME (R207): a PAUSED job goes on. -/
def Head.reshapeResume (h : Head) : Head :=
  if h.rsh.state = 2 then (h.modRsh fun r => { r with state := 1, pauseAsked := false }).startBatch else h

def execReshapeResume (s : State) : Host.Outcome State Fault Refusal := s.act fun h => h.reshapeResume

/-- RESHAPE_ABORT (R211): at the next boundary move; a PAUSED job has none to come and stops at once (DEDUCED). -/
def Head.reshapeAbort (h : Head) : Head :=
  if h.rsh.state = 1 then h.modRsh fun r => { r with abortAsked := true } else if h.rsh.state = 2 then h.jobEnd 4 else h

def execReshapeAbort (s : State) : Host.Outcome State Fault Refusal := s.act fun h => h.reshapeAbort

/-- Source groups wholly behind the boundary are reset (R208). -/
def Head.resetBehind (h : Head) : Head :=
  let r := h.rsh
  let gs := (h.pty.groups.filter fun g => g.shelf == r.shelf && g.troupe == r.troupe && g.geom == r.src && decide (g.id < r.group)).map (·.id)
  h.forEach gs fun h g => match h.pty.groups.find? (·.id == g) with | none => h | some g => if g.closed then h.resetGroup g else h

/-- The boundary moves past the batch: checkpoint, and the job ends, pauses or goes on (R208, R209, R211). -/
def Head.passBatch (h : Head) : Head :=
  let r := h.rsh
  let rest := h.jobAhead.filter fun s => !r.inBatch.contains s.number
  let behind := match h.jobAhead.getLast? with | some s => { r with group := s.group, unit := s.unit + 1 } | none => r
  let h := h.modRsh fun x => { (if rest = [] then behind else x.at_ rest) with moved := x.moved + x.inBatch.length, inBatch := [] }
  let h := h.resetBehind
  let h := h.report 570 sevInfo (leBytes 1 h.rsh.shelf ++ leBytes 1 (troupeBit h.rsh.troupe) ++ leBytes 4 h.rsh.group ++ leBytes 4 h.rsh.unit)
  if rest = [] then h.jobEnd 3
  else if h.rsh.abortAsked then h.jobEnd 4
  else if h.rsh.pauseAsked then h.modRsh fun r => { r with state := 2, pauseAsked := false }
  else h.startBatch

/-- RESHAPE_BOUNDARY_MOVE: the batch in hand is taken, closed, or passed. -/
def Head.boundaryMove (h : Head) : Head :=
  if h.rsh.state ≠ 1 then h
  else if h.rsh.inBatch = [] then h.startBatch
  else if h.batchDone then h.passBatch
  else if h.batchLeft ≠ [] then h.retryRelocations h.rsh.shelf
  else h.closeJob

def execReshapeBoundaryMove (s : State) : Host.Outcome State Fault Refusal := s.act fun h => h.boundaryMove

/-! ## Patrol (R212, R213) -/

/-- A visit to a shelf, started when there is none: REWRITE_BITS is sampled then; 0 acts as 1. -/
def Head.visit (h : Head) (s : Nat) : Head :=
  if h.mnd.patrol.any (·.1 == s) then h
  else h.modMnd fun m => { m with patrol := m.patrol ++ [(s, 0, orIfZero 1 (h.fld Adr.MND_PATROL 23 16))] }

/-- Chunks of a list whose bytes touch a set of roles. -/
def Head.touching (h : Head) (us : List Nat) (roles : List Nat) : List Nat :=
  us.filter fun u => ((h.dp.chunk? u).map fun c => (chunkRoles c).any roles.contains).getD false

/-- PATROL_VISIT_STEP (R213) on one committed stripe of an open shelf. -/
def Head.patrolStep (h : Head) (f : PatrolFinding) : Head :=
  match h.stripe? f.stripe with
  | none => h
  | some s =>
    if s.phase ≠ .committed ∨ s.shelf ≠ f.shelf ∨ (h.shf.shelf f.shelf).state ≠ 3 then h
    else
      let h := h.visit f.shelf
      let limit := ((h.mnd.patrol.find? (·.1 == f.shelf)).map (·.2.2)).getD 1
      let mods := h.roleModules s.number
      let h := h.forEach f.tagFails fun h x => h.memberBad f.shelf (mods.getD x.1 0) true
      let tagged := (f.tagFails.map (·.1)).dedup
      let us := h.chunksIn [s.number]
      let worn := (List.range (s.k + 2)).filter fun r => decide (limit ≤ f.bits.getD r 0)
      let hit := (h.touching us (worn ++ tagged)).dedup
      let parity := if f.parityRows = [] then [] else if f.badChunks = [] then us else us.filter f.badChunks.contains
      let all := (hit ++ parity).dedup
      let h := h.relocateAll hit tagged false
      let h := if f.parityRows = [] then h
        else if f.badChunks = [] then h.relocateAll us tagged false
        else h.forEach parity fun h u => h.relocateAll [u] (((h.dp.chunk? u).map chunkRoles).getD []) false
      let h := h.modMnd fun m => { m with patrol := m.patrol.map fun (x : Nat × Nat × Nat) =>
        if x.1 = f.shelf then (x.1, x.2.1 + all.length, x.2.2) else x }
      h.reclaim s.group

def execPatrolVisitStep (f : PatrolFinding) (s : State) : Host.Outcome State Fault Refusal := s.act fun h => h.patrolStep f

/-- PATROL_VISIT_COMPLETE: source 572 with the number of chunks relocated. -/
def Head.patrolEnd (h : Head) (s : Nat) : Head :=
  match h.mnd.patrol.find? (·.1 == s) with
  | none => h
  | some v =>
    let h := h.modMnd fun m => { m with
      patrol := m.patrol.filter fun x : Nat × Nat × Nat => x.1 != s
      lastPatrol := assocSet s h.opNow m.lastPatrol
      overdue := m.overdue.filter fun x : Nat × Nat => x.1 != s }
    h.report 572 sevInfo (leBytes 1 s ++ leBytes 4 v.2.1)

def execPatrolVisitComplete (shelf : Nat) (s : State) : Host.Outcome State Fault Refusal := s.act fun h => h.patrolEnd shelf

/-- PATROL_OVERDUE: a cold shelf past its interval, once a day. -/
def Head.patrolLate (h : Head) (s : Nat) : Head :=
  let last := assocGet s 0 h.mnd.lastPatrol
  let told := h.mnd.overdue.find? (·.1 == s)
  if h.landing s ∨ h.opNow ≤ last + h.patrolDays * 86400 ∨ (told.map fun x => decide (h.opNow < x.2 + 86400)).getD false then h
  else (h.modMnd fun m => { m with overdue := assocSet s h.opNow m.overdue }).raise 571

def execPatrolOverdue (shelf : Nat) (s : State) : Host.Outcome State Fault Refusal := s.act fun h => h.patrolLate shelf

/-- MND_LOSS_READ (R200): an entry of the loss list, or zeros. -/
def Head.lossRead (h : Head) (index : Word) : Head :=
  let bs := ((h.mnd.loss[index.toNat]?).map Loss.encode).getD (zeros 64)
  (h.setFld Adr.MND_LOSS_READ 31 0 index.toNat).modMnd fun m => { m with lossData := leWords 16 bs }

def execMndLossRead (index : Word) (s : State) : Host.Outcome State Fault Refusal := s.act fun h => h.lossRead index

end Sys2Proof.Machine
end

