-- ==== Sys2Proof/Machine/Stripe.lean ====
section
/-!
DEFINITION. Commands of block protection and stripes (08_block_protection_and_stripes.md R163 to R186): closing, landing writes, member
completions and the journal area.
-/

namespace Sys2Proof.Machine

open Sys2Proof

/-- STRIPE_CLOSE_TIMER (R170): CLOSE_MS, sampled at the opening, has passed since the first chunk. -/
def execStripeCloseTimer (stripe : Nat) (s : State) : Host.Outcome State Fault Refusal :=
  s.act fun h =>
    match h.stripe? stripe with
    | none => h
    | some x => if x.phase = .opened ∧ x.closeAt ≠ 0 ∧ x.closeAt ≤ h.now then h.closeStripe stripe else h

/-! ## Landing writes in place (R176, R177) -/

/-- Geometry of a landing stripe: geometry number, k. -/
def Head.landGeom (h : Head) (stripe : Nat) : Nat × Nat :=
  let g := ((h.pty.landing.find? (·.1 == stripe)).map (·.2.2.1)).getD 0
  (g, ((h.geom g).map (·.k)).getD 0)

def Head.row? (h : Head) (stripe row : Nat) : Option RowWrite := h.pty.rows.find? fun r => r.stripe == stripe && r.row == row && r.locked
def Head.modRow (h : Head) (stripe row : Nat) (f : RowWrite → RowWrite) : Head :=
  h.modPty fun p => { p with rows := p.rows.map fun r => if r.stripe = stripe ∧ r.row = row ∧ r.locked then f r else r }

/-- LANDING_WRITE_REQUEST: the Flyer takes a write of one block and waits for the row lock. -/
def Head.landingWrite (h : Head) (r : LandingReq) : Head :=
  let (_, k) := h.landGeom r.stripe
  if !h.flies r.troupe ∨ !h.pty.landing.any (·.1 == r.stripe) ∨ 31 < r.row ∨ k ≤ r.data then h
  else h.modPty fun p => { p with rows := p.rows ++
    [{ stripe := r.stripe, row := r.row, data := r.data, troupe := r.troupe, block := fit 4096 r.block, guard := r.guard }] }

def execLandingWriteRequest (r : LandingReq) (s : State) : Host.Outcome State Fault Refusal := s.act fun h => h.landingWrite r

/-- The reads of a row: D_i, P and Q; or every role that is neither failed nor in `bad`. -/
def Head.readRow (h : Head) (r : RowWrite) (bad : List Nat) : Head :=
  let (_, k) := h.landGeom r.stripe
  let dead := h.deadRoles r.stripe
  let mods := (h.roleModules r.stripe).zipIdx.map fun (m, x) => (x, m)
  let whole := bad ≠ [] || dead.contains r.data
  let roles := mods.filter fun x => !dead.contains x.1 && !bad.contains x.1 && (whole || x.1 == r.data || decide (k ≤ x.1))
  h.addBundle (.rowRead r.stripe r.row) clsLand r.troupe (h.stripeShelf r.stripe) r.stripe r.row roles

/-- ROW_LOCK_GRANT (R177): the first request in arrival order takes the lock of its row, unless a rebuild holds the row. -/
def Head.lockRow (h : Head) (stripe row : Nat) : Head :=
  if (h.row? stripe row).isSome ∨ h.rebuildHolds stripe row then h
  else
    match h.pty.rows.find? fun r => r.stripe == stripe && r.row == row with
    | none => h
    | some r =>
      let h := h.modPty fun p => { p with rows := { r with locked := true, step := 2 } :: p.rows.erase r }
      h.readRow { r with locked := true, step := 2 } []

def execRowLockGrant (stripe row : Nat) (s : State) : Host.Outcome State Fault Refusal := s.act fun h => h.lockRow stripe row

/-- P and Q of a row with a new block at data index i, from the blocks read (R168, R176). -/
def newParity (k i : Nat) (block : Bytes) (units : List (Option Bytes)) : Bytes × Bytes :=
  match units.getD i none with
  | some d =>
    let delta := xorBytes (fit 4096 d) block
    (((units.getD k none).map fun p => xorBytes (fit 4096 p) delta).getD (zeros 4096),
     ((units.getD (k + 1) none).map fun q => xorBytes (fit 4096 q) (gfScale (gfPow i) delta)).getD (zeros 4096))
  | none => parityPQ 4096 (((rebuildRow 4096 k units).getD []).take k |>.set i block)

/-- A block with its member tag. -/
def taggedBlock (block : Bytes) (stripe row role geom : Nat) : Bytes := block ++ memberTag block stripe row role geom

/-- The journal entry of an in-place write: D_new, P_new and Q_new with their tags. -/
def Head.rowJournal (h : Head) (r : RowWrite) : Jrn :=
  let (g, k) := h.landGeom r.stripe
  { troupe := r.troupe, kind := 2, ring := 0, geom := g, members := k + 2, stripe := r.stripe, seq := 0, cycle := h.whl.cycle % 2 ^ 32,
    slot := h.whl.slot, shelf := h.stripeShelf r.stripe, row := r.row, role := r.data,
    payload := [taggedBlock r.block r.stripe r.row r.data g, taggedBlock r.p r.stripe r.row k g, taggedBlock r.q r.stripe r.row (k + 1) g],
    modules := h.roleModules r.stripe }

/-- Both landing copies are lost and the move of one has not ended (R201). -/
def Head.jrnNone (h : Head) (t : Troupe) : Bool :=
  let (okA, okB, _) := h.pty.copies.getD (troupeBit t) (false, false, false)
  !okA && !okB && ((h.mnd.jrnEff[troupeBit t]?).bind (·.2.2)).isSome

/-- A launch waits for the journal area of a troupe. -/
def Head.setJrnWait (h : Head) (t : Troupe) (on : Bool) : Head :=
  h.modPty fun p => { p with jrnWait := match t with | .a => (on, p.jrnWait.2) | .b => (p.jrnWait.1, on) }

/-- Steps 4 and 5 of R176: the entry goes to the Catcher, and its landing copies are made ready. Without room it waits. -/
def Head.journalRow (h : Head) (r : RowWrite) : Head :=
  let j := h.rowJournal r
  if !h.jrnRoom r.troupe (96 + 3 * 4112) ∨ h.jrnNone r.troupe then (h.modRow r.stripe r.row fun x => { x with step := 3 }).setJrnWait r.troupe true
  else
    let h := (h.writeJournal j).modRow r.stripe r.row fun x => { x with step := 5 }
    h.addBundle (.rowJournal r.stripe r.row) clsLand r.troupe (h.journalHome r.troupe).1 r.stripe r.row (h.journalOps r.troupe)

/-- Step 6 of R176: the writes of D_new, P_new and Q_new, but for failed members. -/
def Head.writeRow (h : Head) (stripe row : Nat) : Head :=
  match h.row? stripe row with
  | none => h
  | some r =>
    let (_, k) := h.landGeom stripe
    let dead := h.deadRoles stripe
    let mods := (h.roleModules stripe).zipIdx.map fun (m, x) => (x, m)
    let roles := mods.filter fun x => !dead.contains x.1 && (x.1 == r.data || decide (k ≤ x.1))
    (h.modRow stripe row fun x => { x with step := 6 }).addBundle (.rowWrite stripe row) clsLand r.troupe (h.stripeShelf stripe) stripe row roles

/-- Step 7: the row commits, a commit record goes to the journal, and the lock is free. -/
def Head.commitRow (h : Head) (stripe row : Nat) : Head :=
  match h.row? stripe row with
  | none => h
  | some r =>
    let h := (h.ptyCount 0x3 1).writeJournal { h.rowJournal r with kind := 3, payload := [], modules := [] }
    h.modPty fun p => { p with rows := p.rows.filter fun x => !(x.stripe == stripe && x.row == row && x.locked) }

/-- JOURNAL_AREA_ROOM (R179): launches and in-place writes that waited go on. -/
def Head.journalRoom (h : Head) (t : Troupe) : Head :=
  if !h.jrnRoom t (96 + 3 * 4112) ∨ h.jrnNone t then h
  else
    let h := h.setJrnWait t false
    h.forEach (h.pty.rows.filter fun r => r.troupe == t && r.locked && r.step == 3) fun h r => h.journalRow r

def execJournalAreaRoom (t : Troupe) (s : State) : Host.Outcome State Fault Refusal := s.act fun h => h.journalRoom t

/-- PTY_CNT_CLEAR: every counter of R186 is 0. -/
def Head.ptyClear (h : Head) : Head := h.modPty fun p => { p with cnt := List.replicate 16 0, fillBytes := 0 }

def execPtyCntClear (s : State) : Host.Outcome State Fault Refusal := s.act fun h => h.ptyClear

/-! ## Reconstruction for a decode (R168, R202) -/

/-- The reads of a reconstruction have ended: further members are read (R202), or the first result whose header check holds goes to the
booth; without one the next source is taken, or the read fails at point 0x4 (R163, R168). -/
def Head.rebuildTask (h : Head) (b : Bundle) (id : Nat) : Head :=
  match h.dp.task? id with
  | none => h.dropBundle b.id
  | some t =>
    match h.dp.chunk? t.uid, h.stripe? b.stripe with
    | some c, some s =>
      let all := decide (t.source = 3)
      let more := h.moreRoles b s.k [] all
      if b.reread ≠ [] then h.readMore b (.rebuildRead id) b.reread true
      else if more ≠ [] then h.readMore b (.rebuildRead id) more false
      else
        let h := h.dropBundle b.id
        match ((chunkResults s.k c b (all && readsWhole s.k c b)).map (chunkFrom c)).find? hdrOk with
        | some bytes => (h.modTask id fun x => { x with rebuilt := bytes }).feedTask t
        | none =>
          match t.failed with
          | some (_, code) => h.exhausted t c (endOfCode code)
          | none => h.failTask t 4 0x81
    | _, _ => (h.dropBundle b.id).dropTask id

/-- The member reads of a decode have ended: the chunk passes to its booth, a member that returned a media error is read again block by
block, or the blocks that failed are reconstructed from the other members (R202). -/
def Head.chunkArrived (h : Head) (b : Bundle) (id : Nat) : Head :=
  match h.dp.task? id with
  | none => h.dropBundle b.id
  | some t =>
    match h.dp.chunk? t.uid, h.stripe? b.stripe with
    | some c, some s =>
      if b.reread ≠ [] then h.readMore b (.chunkRead id) b.reread true
      else if readsWhole s.k c b then (h.dropBundle b.id).feedTask t
      else
        let h := h.ptyCount 0x5 1
        let more := h.moreRoles b s.k [] false
        if more ≠ [] then h.readMore b (.rebuildRead id) more false else h.rebuildTask b id
    | _, _ => (h.dropBundle b.id).dropTask id

/-! ## The Turnstile (R182 to R184) -/

/-- A status that a late operation takes: no port reports it, since bits [15:11] of a status are 0. -/
def lateStatus : Nat := 0xFFFF

/-- SCT 7h, status 0xC0 "Baton not held" (R255). -/
def refusedStatus : Nat := 0x7C0

/-- The bundle of an operation in flight. -/
def Head.flying? (h : Head) (op : Nat) : Option (Bundle × BackOp) :=
  h.pty.bundles.findSome? fun b => if b.launched.isSome then (b.ops.find? (·.op == op)).map fun o => (b, o) else none

/-- Reads of a bundle: every operation of a read, and the read half of a rebuild. -/
def readsOf (k : BundleKind) (member : Nat) : Bool :=
  match k with
  | .rowRead .. | .chunkRead _ | .rebuildRead _ | .pageRead .. | .scrub _ | .relocRead .. => true
  | .rebuildUnit _ => decide (member < 0x40)
  | _ => false

/-- An error of an operation is counted on its module, one for each block that failed (R163, R188). -/
def Head.opFault (h : Head) (b : Bundle) (o : BackOp) : Head :=
  let bad := o.status != some 0
  if o.status = some lateStatus ∨ o.status = some refusedStatus then h
  else if readsOf b.kind o.member then
    let h := h.forEach o.tagRows fun h _ => h.memberBad b.shelf o.mdl true
    let h := h.forEach o.mediaRows fun h _ => h.memberBad b.shelf o.mdl false
    h.when bad fun h => h.memberBad b.shelf o.mdl false
  else if bad then
    match b.kind with
    | .rebuildUnit _ => h
    | .filler _ => h.declareModule b.shelf o.mdl false 2 1
    | _ => h.countModule b.shelf o.mdl 2
  else h

/-- A landing copy of the journal has been written: it is healthy. -/
def Head.copyGood (h : Head) (t : Troupe) (mdl : Nat) : Head :=
  let (_, a, b) := h.journalHome t
  h.modPty fun p => { p with copies := p.copies.modify (troupeBit t) fun c => (c.1 || decide (mdl = a), c.2.1 || decide (mdl = b), c.2.2) }

/-- Void a stripe whose member `r` failed: members that reported success or still fly pass its unit, FAILED
modules are not asked for filler (R190), and the bundle stays for those that fly. -/
def Head.voidFor (h : Head) (b : Bundle) (s : Stripe) : Head :=
  let failed := (b.ops.filter fun o => o.member < 0x40 && o.status.isSome && o.status != some 0).map (·.member)
  let flying := b.ops.any fun o => o.status.isNone
  let h := h.voidStripe s ((List.range (s.k + 2)).filter fun r => !failed.contains r || (h.deadRoles s.number).contains r)
  h.when flying fun h => h.modPty fun p => { p with bundles := p.bundles ++ [b] }

/-- A record of an append: the stripe commits when its last member has reported success, and is voided when one fails (R182, R184). -/
def Head.appendReport (h : Head) (b : Bundle) (o : BackOp) (n : Nat) : Head :=
  let done := b.ops.all (·.status.isSome)
  match h.stripe? n with
  | none => h.dropBundle b.id
  | some s =>
    if s.phase = .voided then
      let h := h.when (o.member < 0x40 && o.status != some 0) fun h =>
        h.addBundle (.filler n) clsZone s.troupe s.shelf n 0xFFFF [(o.member, o.mdl)]
      h.when done fun h => h.dropBundle b.id
    else if 0x40 ≤ o.member then h
    else if o.status ≠ some 0 then h.voidFor b s
    else if s.phase = .flying ∧ (b.ops.filter (·.member < 0x40)).all (·.status == some 0) then
      (h.modStripe n fun s => { s with phase := .reported }).commitReady s.troupe h.pty.stripes.length
    else h

/-- The vault holds a staged chunk: Writes that waited for it go on. -/
def Head.vaultReport (h : Head) (handle : Nat) : Head :=
  let h := h.modDp fun d => { d with staged := d.staged.map fun x => if x.handle = handle then { x with vaulted := true } else x }
  (h.modHqe fun q => { q with ctxs := q.ctxs.map fun c => { c with unvaulted := c.unvaulted.filter (· != handle) } }).tryAcks

/-- Both copies of a beat log entry are written: the beat needs no digest of the Catcher (R248). -/
def Head.beatLogged (h : Head) (t : Troupe) (beat : Nat) : Head :=
  (h.modTrp t fun p => { p with beats := p.beats.map fun x => if x.beat = beat then { x with logged := true } else x }).settleBeat t beat

/-- Send a bundle's operations again. -/
def Head.again (h : Head) (b : Bundle) : Head :=
  (h.dropBundle b.id).addBundle b.kind b.cls b.troupe b.shelf b.stripe b.row (b.ops.map fun o => (o.member, o.mdl))

/-- The blocks of a row have been read. -/
def Head.rowArrived (h : Head) (b : Bundle) (stripe row : Nat) : Head :=
  let h := h.dropBundle b.id
  match h.row? stripe row with
  | none => h
  | some r =>
    let (_, k) := h.landGeom stripe
    let bad := (b.ops.filter fun o => o.status != some 0 || o.tagRows != []).map (·.member)
    let whole := decide (3 < b.ops.length) || (h.deadRoles stripe).contains r.data
    if bad ≠ [] ∧ !whole then h.readRow r bad
    else if crc64 r.block ≠ r.guard then
      -- check point 0x3: there is no other copy, so nothing is written and the lock is free (log 53)
      (h.pointFailed 0x3 0x3F b.shelf 0).modPty fun p =>
        { p with rows := p.rows.filter fun x => !(x.stripe == stripe && x.row == row && x.locked) }
    else
      let pq := newParity k r.data r.block (b.units (k + 2))
      let h := (h.when (decide (bad ≠ []) || whole) fun h => h.ptyCount 0x5 1).modRow stripe row fun x => { x with p := pq.1, q := pq.2 }
      h.journalRow { r with p := pq.1, q := pq.2 }

/-- Every operation of a bundle but an append or a rebuild has reported. -/
def Head.bundleDone (h : Head) (b : Bundle) : Head :=
  let bad := b.ops.any fun o => o.status != some 0
  match b.kind with
  | .append _ => h
  | .rebuildUnit _ => h
  | .filler n => (h.dropBundle b.id).finishIfFull (((h.stripe? n).map (·.group)).getD 0)
  | .finish _ => h.dropBundle b.id
  | .zoneReset g => (h.dropBundle b.id).groupFreed g
  | .rowRead st row => h.rowArrived b st row
  | .rowJournal st row => if b.ops.all fun o => o.status != some 0 then h.again b else (h.dropBundle b.id).writeRow st row
  | .rowWrite st row => if bad then (h.dropBundle b.id).writeRow st row else (h.dropBundle b.id).commitRow st row
  | .journal n =>
    match h.stripe? n with
    | none => h.dropBundle b.id
    | some s =>
      if b.ops.all fun o => o.status != some 0 then h.again b
      else (h.dropBundle b.id).addBundle (.append n) clsCprog s.troupe s.shelf n 0xFFFF
        ((h.roleModules n).zipIdx.map fun (m, r) => (r, m))
  | .chunkRead id => h.chunkArrived b id
  | .rebuildRead id => h.rebuildTask b id
  | .pageRead .. => h.dropBundle b.id
  | .beatLog t n => if b.ops.all fun o => o.status != some 0 then h.again b else (h.dropBundle b.id).beatLogged t n
  | .vault n => if bad then h.again b else (h.dropBundle b.id).vaultReport n
  | .scrub _ => h.dropBundle b.id
  | .relocRead u avoid job => h.relocArrived b u avoid job

/-- A record has entered its bin. -/
def Head.recordIn (h : Head) (id op : Nat) : Head :=
  match h.pty.bundles.find? (·.id == id) with
  | none => h
  | some b =>
    match b.ops.find? (·.op == op) with
    | none => h
    | some o =>
      let h := h.opFault b o
      let h := h.when (o.member == 0xFE && o.status == some 0) fun h => match b.kind with
        | .append _ | .journal _ | .rowJournal .. => h.copyGood b.troupe o.mdl
        | _ => h
      match b.kind with
      | .append n => h.appendReport b o n
      | .rebuildUnit r => h.rebuildReported b r
      | _ => if b.ops.all (·.status.isSome) then h.bundleDone b else h

/-- Change an operation in flight. -/
def Head.modOp (h : Head) (id op : Nat) (f : BackOp → BackOp) : Head :=
  h.modPty fun p => { p with bundles := p.bundles.map fun b =>
    if b.id = id then { b with ops := b.ops.map fun o => if o.op = op then f o else o } else b }

/-- The records of a launch of a troupe that this head has given go to the peer as they arrive (R261). -/
def Head.relays (h : Head) (b : Bundle) (o : BackOp) : Bool :=
  let p := h.pair.trp b.troupe
  !readsOf b.kind o.member && ((p.handover.map fun x => x.giving && x.committed).getD false || p.role == 2)

/-- A record enters its bin, or is relayed. -/
def Head.recorded (h : Head) (id op : Nat) : Head :=
  match h.flying? op with
  | none => h
  | some (b, o) =>
    if h.relays b o then
      let h := h.emit (.journal b.troupe (tstlRecord b o (h.fld (bankKey b.shelf Adr.SHF_SHELF_CFG) 7 4)))
      h.when (b.ops.all (·.status.isSome)) fun h => h.dropBundle id
    else h.recordIn id op

/-- MEMBER_COMPLETION (R183): a second record of an operation is discarded with source 549; one that comes after its operation was late is
discarded without effect (R184). -/
def Head.memberReport (h : Head) (c : Completion) : Head :=
  match h.flying? c.op with
  | none => h
  | some (b, o) =>
    match o.status with
    | some st => if st = lateStatus then h else (h.ptyCount 0xC 1).raise 549
    | none =>
      (h.modOp b.id c.op fun o => { o with
        status := some (c.status % 2048), tagRows := c.tagRows, mediaRows := if o.byBlock then c.mediaRows else [],
        data := c.data, arrived := h.now }).recorded b.id c.op

def execMemberCompletion (c : Completion) (s : State) : Host.Outcome State Fault Refusal :=
  .next ({ s with head := s.head.memberReport c } : State).flushIfWritten

/-- MEMBER_LATE (R184): LATE, sampled at launch, has passed: counter 0xD, source 548, and the operation counts as failed. -/
def Head.memberLate (h : Head) (op : Nat) : Head :=
  match h.flying? op with
  | none => h
  | some (b, o) =>
    match b.launched with
    | none => h
    | some (_, _, t) =>
      if o.status.isSome ∨ h.now < t + b.lateAfter then h
      else
        let h := ((h.ptyCount 0xD 1).raise 548).countModule b.shelf o.mdl 0
        (h.modOp b.id op fun o => { o with status := some lateStatus, arrived := h.now }).recorded b.id op

def execMemberLate (op : Nat) (s : State) : Host.Outcome State Fault Refusal :=
  .next ({ s with head := s.head.memberLate op } : State).flushIfWritten

end Sys2Proof.Machine
end

