-- ==== Sys2Proof/Machine/Shelves.lean ====
section
/-!
DEFINITION. Commands of the back end and the shelves (10_shelves_and_the_wheel.md R216 to R228, R231, R237;
11_troupes_flyer_catcher_baton.md R255, R256, R258).
-/

namespace Sys2Proof.Machine

open Sys2Proof

/-! ## Shelves in FAULT (R217, R226) -/

/-- End the user of a decode whose members lie on a shelf that is gone. -/
def Head.unreachable (h : Head) (t : Task) : Head :=
  match t.purpose with
  | .read n | .history n => (h.dropTasks n).withCtx n fun c => if c.phase = .running then h.dropTasks n |>.complete c stNotReady 0 else h.dropTasks n
  | .compare k => match (h.dropTask t.id).dp.pchunk? k with
    | none => h.dropTask t.id
    | some p => (h.dropTask t.id).refute p true
  | .verify => h.dropTask t.id

/-- Every command that needs a shelf completes with Namespace Not Ready, DNR clear; its demands are withdrawn. -/
def Head.shelfFault (h : Head) (s : Nat) : Head :=
  let h := h.forEach (h.hqe.ctxs ++ h.hqe.holdCtxs) fun h c =>
    if c.phase = .held ∧ !c.admin ∧ c.cap.opcode = opStageIn ∧ c.shelves.contains s then h.complete c stNotReady 0 else h
  let h := h.modShf fun f => { f with demands := f.demands.filter fun d => !(d.shelf == s && d.kind != .fill) }
  let waits := (h.pty.bundles.filter (·.shelf == s)).map (·.id)
  h.forEach (h.dp.tasks.filter fun t => (t.waiting.map waits.contains).getD false) fun h t =>
    match h.dp.task? t.id with
    | none => h
    | some t => h.unreachable t

/-- BACKEND_PORT_LOST (R217): the port has had no link for more than 1 s. -/
def Head.portLost (h : Head) (port : Nat) (peerReaches : Bool) : Head :=
  if 16 ≤ port ∨ (h.shf.port port).lost then h
  else
    let shelves := h.shelvesOn.filter fun s => h.shelfPort s == port
    let h := h.modShf fun f => { f with ports := { f.port port with lost := true } :: f.ports.filter (·.port != port) }
    let h := (h.forEach shelves fun h s => h.setShelfState s 6).raise (416 + port)
    let given := if h.bit Adr.SHF_CTRL 0 ∧ peerReaches then
        h.forEach ([Troupe.a, .b].filter h.flies) fun h t => h.handAway t false false
      else h
    if [Troupe.a, .b].any fun t => h.flies t && (given.pair.trp t).handover.isNone then given.forEach shelves Head.shelfFault else given

def execBackendPortLost (port : Nat) (peerReaches : Bool) (s : State) : Host.Outcome State Fault Refusal :=
  s.act fun h => h.portLost port peerReaches

/-- SHELF_BUS_STUCK (R220): a bus held low for more than 35 ms is cleared with 9 clocks and a STOP; source 436 when it stays. -/
def execShelfBusStuck (bus : Nat) (cleared : Bool) (s : State) : Host.Outcome State Fault Refusal :=
  s.act fun h =>
    if 4 ≤ bus then h
    else
      let m := BitVec.ofNat 4 (2 ^ bus)
      let h := h.modShf fun f => { f with busStuck := if cleared then f.busStuck &&& ~~~m else f.busStuck ||| m }
      if cleared then h else h.raise 436

/-! ## Demands, closing and waking (R222, R224 to R226) -/

/-- SHELF_DEMAND (R224): the power master serves it; a peer that the link does not reach raises none (R260). -/
def execShelfDemand (kind : DemandKind) (shelf deadline : Nat) (s : State) : Host.Outcome State Fault Refusal :=
  s.act fun h =>
    if !h.pair.spareMaster ∧ !h.pair.icl then h
    else if kind ≠ .fill ∧ ((h.shf.shelf shelf).state = 3 ∨ !h.shelfOn shelf) then h
    else h.demand { kind := kind, shelf := shelf, deadline := match kind with | .background => none | _ => some deadline }

/-- The second wake of a shelf whose first attempt failed, in the next power slot that R222 admits. -/
def Head.rewake (h : Head) (s : Nat) : Head :=
  let x := h.shf.shelf s
  if x.state = 1 ∧ x.failed = 1 ∧ x.armed.isNone then
    match h.nextPower with
    | none => h
    | some n => if h.wakeAdmitted s n then h.armShelf s n 1 else h
  else h

/-- POWER_SLOT (R222, R239): the slot samples; `failed` names the shelves whose ARM did not get through. -/
def execPowerSlot (failed : List Nat) (s : State) : Host.Outcome State Fault Refusal :=
  s.act fun h =>
    if !h.admits h.whl.slot clsPower ∨ h.shf.slotDone = some h.whl.slotCount then h
    else
      let h := h.sampleShelves
      h.when h.pair.spareMaster fun h => (h.atPowerSlot failed).forEach h.shelvesOn Head.rewake

/-- SHELF_STRIPES_SETTLED (R225 step 2): every stripe of a CLOSING shelf is committed or voided; CC.SHN goes to every module. -/
def execShelfStripesSettled (shelf : Nat) (s : State) : Host.Outcome State Fault Refusal :=
  s.act fun h =>
    let x := h.shf.shelf shelf
    let busy := h.pty.stripes.any fun s => s.shelf == shelf && s.phase != .committed && s.phase != .voided
    if x.state ≠ 4 ∨ x.shn ∨ busy then h
    else (h.modShelf shelf fun x => { x with shn := true }).emit (.shutdown shelf)

/-- SHELF_SHUTDOWN_DONE (R225 step 3): all modules report shutdown, or CLOSE_MS has passed. -/
def execShelfShutdownDone (shelf : Nat) (s : State) : Host.Outcome State Fault Refusal :=
  s.act fun h =>
    let x := h.shf.shelf shelf
    if x.state ≠ 4 ∨ !x.shn ∨ x.shutDown then h
    else
      let h := h.modShelf shelf fun x => { x with shutDown := true }
      h.when h.pair.spareMaster fun h => h.armOff shelf

/-- SHELF_LINK_UP (R226 step 2): the bridge and modules are enumerated, and the bridge takes the cycle count of the next edge. -/
def execShelfLinkUp (shelf : Nat) (s : State) : Host.Outcome State Fault Refusal :=
  s.act fun h =>
    let x := h.shf.shelf shelf
    if x.state ≠ 2 ∨ x.linked then h
    else
      let h := h.modShelf shelf fun x => { x with linked := true }
      h.when h.pair.spareMaster fun h => h.emit (.shelfBus shelf 0x13 [(h.whl.cycle + 1) % 2 ^ 40])

/-- SHELF_OPEN (R226 step 3): every present module that is not RETIRED is ready, or 2 × WAKE_MS has passed; the rest are reported to
Mend as link down. -/
def Head.shelfOpen (h : Head) (shelf : Nat) (notReady : List Nat) : Head :=
  let x := h.shf.shelf shelf
  let missing := notReady.filter fun m => decide (m < 48) && (h.mnd.mdl shelf m).state != 5
  if x.state ≠ 2 ∨ !x.linked ∨ (missing ≠ [] ∧ h.now < x.since + 2 * h.wakeMs shelf * 1000) then h
  else
    let h := h.modShelf shelf fun y => { y with lastWakeMs := (h.now - x.since) / 1000, failed := 0 }
    let h := (h.setShelfState shelf 3).meetDemands shelf x.fill
    let h := h.forEach missing fun h m => h.declareModule shelf m false 3 1
    let h := (h.placeWaiting).retryRelocations shelf
    let h := h.forEach ((h.pty.groups.filter fun g => g.shelf == shelf && g.closed).map (·.id)) Head.reclaim
    h.when (h.landing shelf) Head.claimHome

def execShelfOpen (shelf : Nat) (notReady : List Nat) (s : State) : Host.Outcome State Fault Refusal :=
  s.act fun h => h.shelfOpen shelf notReady

/-- SHELF_WAKE_TIMEOUT (R226): no link at 2 × WAKE_MS; the first time the shelf is powered off and woken once more with source 434, the
second time it is FAULT with source 435 and a FAULT record. -/
def execShelfWakeTimeout (shelf : Nat) (s : State) : Host.Outcome State Fault Refusal :=
  s.act fun h =>
    let x := h.shf.shelf shelf
    if x.state ≠ 2 ∨ x.linked ∨ x.armed.isSome ∨ h.now < x.since + 2 * h.wakeMs shelf * 1000 then h
    else if x.failed < 2 then
      let h := h.when (x.failed == 0) fun h => (h.modShelf shelf fun y => { y with failed := 1 }).raise 434
      h.when h.pair.spareMaster fun h => h.armOff shelf
    else
      let h := (h.setShelfState shelf 6).report 435 sevFault []
      h.shelfFault shelf

/-- STAGE_HOLD_EXPIRY (R237). -/
def execStageHoldExpiry (shelf cntlid : Nat) (s : State) : Host.Outcome State Fault Refusal :=
  s.act fun h => h.modShf fun f => { f with holds := f.holds.filter fun x =>
    !(x.shelf == shelf && x.cntlid == cntlid && decide (x.expiry ≤ h.now)) }

/-! ## Bridges and the Baton (R255, R256, R258) -/

/-- The relayed records show every member of a stripe programmed. -/
def Trp.relayedWhole (p : Trp) (j : Jrn) : Bool :=
  (List.range j.members).all fun r => p.relays.any fun x =>
    leAt 8 6 x == j.stripe && leAt 5 1 x == r && leAt 6 1 x == 0 && leAt 0x10 2 x == 0 && leAt 0x12 2 x % 4 == 0

/-- BRIDGE_FENCED_REPORT (R258): the bridge of a shelf reports FENCED for the peer head and the troupe; the peer's launches
there are settled by steps 3 and 4 of R180, and new stripes go to their groups again. -/
def execBridgeFencedReport (shelf : Nat) (t : Troupe) (programmed : List Nat) (s : State) : Host.Outcome State Fault Refusal :=
  s.act fun h =>
    if !h.flies t ∨ !h.pair.fencing.contains (shelf, t) then h
    else
      let relayed := ((h.awaited t).filter (h.pair.trp t).relayedWhole).map (·.stripe)
      let h := h.forEach ((h.awaited t).filter (·.shelf == shelf)) fun h j => h.settleEntry t (programmed ++ relayed) j
      let h := h.modPair fun p => { p with fencing := p.fencing.filter (· != (shelf, t)) }
      let h := h.when (!h.pair.fencing.any (·.2 == t)) fun h => h.modTrp t fun p => { p with relays := [] }
      let h := h.modPty fun p => { p with groups := p.groups.map fun g =>
        if g.shelf = shelf ∧ g.troupe = t then { g with fencing := false } else g }
      h.placeWaiting

/-- Writes of a troupe have been refused in this beat: in 2 successive beats with CONFIRMED set that is a line fault, and the
troupe goes to the peer (R256). -/
def Head.refusedBeat (h : Head) (t : Troupe) : Head :=
  let p := h.pair.trp t
  let beat := h.whl.beat
  if 0 < p.refusedBeats ∧ p.refusedBeat = beat then h
  else
    let n := if 0 < p.refusedBeats ∧ p.refusedBeat + 1 = beat then p.refusedBeats + 1 else 1
    let h := h.modTrp t fun p => { p with refusedBeats := n, refusedBeat := beat }
    if n = 2 ∧ lineOf h.pair.confirmed t ∧ lineOf h.pair.hold t then
      (h.report 618 sevFault (h.regsBytes [Adr.TRP_BATON])).handAway t false false
    else h

/-- BRIDGE_BATON_REFUSAL (R255): a write is not forwarded; it completes with SCT 7h, status 0xC0, and its stripe fails. -/
def execBridgeBatonRefusal (op : Nat) (s : State) : Host.Outcome State Fault Refusal :=
  s.act fun h =>
    match h.flying? op with
    | none => h
    | some (b, o) =>
      if o.status.isSome ∨ readsOf b.kind o.member then h
      else
        let h := ((h.raise 619).modOp b.id op fun o => { o with status := some refusedStatus, arrived := h.now }).recorded b.id op
        h.refusedBeat b.troupe

/-- LATE_DOORBELL_REPORT (R231): `WHL_LATE` counts the doorbell; source 440 once per beat. -/
def execLateDoorbellReport (op : Nat) (s : State) : Host.Outcome State Fault Refusal :=
  s.act fun h =>
    if (h.flying? op).isNone then h
    else
      let beat := h.whl.beat
      let first := h.whl.lateBeat != some beat
      let h := { h with whl := { h.whl with late := h.whl.late + 1, lateBeat := some beat } }
      h.when first fun h => h.raise 440

end Sys2Proof.Machine
end

