-- ==== Sys2Proof/Machine/Pair.lean ====
section
/-!
DEFINITION. Commands of the pair (11_troupes_flyer_catcher_baton.md R240 to R265): messages of the Iclin link, freezes, the Baton,
takeover, handover and resynchronisation.
-/

namespace Sys2Proof.Machine

open Sys2Proof

/-- This head follows a troupe: in step, or joining. -/
def Trp.follows (p : Trp) : Bool := p.role == 2 || (p.role == 3 && p.state == 6)

/-! ## Messages to the Catcher (R243 to R246) -/

/-- DESCRIPTOR_MESSAGE: the Catcher keeps the writer under its context index. -/
def execDescriptorMessage (t : Troupe) (opcode nsid slba nlb arrival ctx : Nat) (s : State) : Host.Outcome State Fault Refusal :=
  s.act fun h => h.when (h.pair.trp t).follows fun h => h.modTrp t fun p => { p with
    descriptors := p.descriptors.filter (fun d => d.2.2.2.2.2 != ctx) ++ [(opcode, nsid, slba, nlb, arrival, ctx)] }

/-- A mirror copy arrives at the Catcher (R165): held when its own guard agrees, else asked for again. -/
def Head.takeMirror (h : Head) (t : Troupe) (handle : Nat) (stored : Bytes) (guard : BitVec 64) : Head :=
  if crc64 stored ≠ guard then h.emit (.confirm t handle false)
  else
    let x : Staged := { handle := handle, troupe := t, uid := none, bytes := stored, guard := guard, dirty := true, mirror := true }
    let h := h.modDp fun d => { d with staged := d.staged.filter (fun s => !(s.mirror && s.troupe == t && s.handle == handle && s.uid.isNone)) ++ [x] }
    let h := h.modTrp t fun p => { p with confirmedHandles := handle :: p.confirmedHandles.filter (· != handle) }
    (h.emit (.confirm t handle true)).followOrders t

/-- The Catcher's copy of a chunk arrives at the Flyer that asked for it (R20, R165): it rewrites this head's staging copy, and the decodes that
waited for it go on; a bad copy ends them. -/
def Head.takeBack (h : Head) (s : Staged) (stored : Bytes) : Head :=
  let good := crc64 stored == s.guard && hdrOk stored
  let waits := h.dp.tasks.filter fun k => k.source == 4 && some k.uid == s.uid
  let h := h.modDp fun d => { d with staged := d.staged.map fun x =>
    if x.handle = s.handle ∧ !x.mirror then { x with bytes := if good then stored else x.bytes } else x }
  let h := h.forEach waits fun h k =>
    match h.dp.task? k.id, h.dp.chunk? k.uid with
    | some k, some c => if good then h.feedTask k else h.exhausted k c .guard
    | _, _ => h
  let h := h.when (s.fetching && !good) fun h => h.stageFailed s.handle
  h.modDp fun d => { d with staged := d.staged.map fun x => if x.handle = s.handle ∧ !x.mirror then { x with fetching := false } else x }

/-- CHUNK_MESSAGE (R165). -/
def execChunkMessage (t : Troupe) (handle : Nat) (stored : Bytes) (guard : BitVec 64) (s : State) : Host.Outcome State Fault Refusal :=
  s.act fun h =>
    if (h.pair.trp t).follows then h.takeMirror t handle stored guard
    else if h.flies t then
      (match h.dp.staged.find? fun x => x.handle == handle && x.troupe == t && !x.mirror with
       | none => h
       | some x => h.takeBack x stored)
    else h

/-- CONFIRM_MESSAGE (R18, R165): condition (a) of a Write, or the chunk is sent again. -/
def execConfirmMessage (t : Troupe) (handle : Nat) (held : Bool) (s : State) : Host.Outcome State Fault Refusal :=
  s.act fun h =>
    match h.dp.staged.find? fun x => x.handle == handle && x.troupe == t && !x.mirror with
    | none => h
    | some x =>
      if !h.flies t then h
      else if !held then h.emit (.chunk t handle x.bytes x.guard)
      else
        let h := h.modDp fun d => { d with staged := d.staged.map fun y => if y.handle = handle ∧ !y.mirror then { y with confirmed := true } else y }
        (h.modHqe fun q => { q with ctxs := q.ctxs.map fun c => { c with unconfirmed := c.unconfirmed.filter (· != handle) } }).tryAcks

/-- ORDER_MESSAGE (R245). -/
def execOrderMessage (t : Troupe) (o : Order) (s : State) : Host.Outcome State Fault Refusal :=
  s.act fun h => h.when (h.pair.trp t).follows fun h => h.receiveOrder t o

/-- MARKER_MESSAGE (R17, R245): the Catcher closes the beat with the orders that it has up to the Marker's last one, once the chunks they
name are confirmed, and digests it; in a freeze it gives its verdict. -/
def Head.marker (h : Head) (t : Troupe) (beat last : Nat) : Head :=
  if (h.pair.trp t).role ≠ 2 then h
  else (h.modTrp t fun x => { x with marks := x.marks ++ [(beat, last)] }).followOrders t

def execMarkerMessage (t : Troupe) (beat _count last : Nat) (s : State) : Host.Outcome State Fault Refusal :=
  s.act fun h => h.marker t beat last

/-- DIGEST_MESSAGE (R247): the peer's digest of a beat; while joining, the digest that the chain goes on from (R263). -/
def execDigestMessage (t : Troupe) (beat : Nat) (digest : Bytes) (s : State) : Host.Outcome State Fault Refusal :=
  s.act fun h =>
    let p := h.pair.trp t
    if p.role = 3 ∧ p.state = 6 ∨ p.role = 2 ∧ p.beats = [] ∧ beat + 1 = p.openBeat then
      h.modTrp t fun x => { x with prevDigest := digest, digestBeat := beat }
    else if (p.role = 1 ∨ p.role = 2) ∧ (p.state = 1 ∨ p.state = 5) then h.compareBeat t beat digest
    else h

/-- A journal entry read from its bytes (R179); none when the MAGIC or the CRC fails. -/
def parseJrn (t : Troupe) (bs : Bytes) : Option Jrn :=
  let n := leAt 0x2E 2 bs
  let members := leAt 7 1 bs
  if leAt 0 4 bs ≠ 0x4C4E524A ∨ slice 0x5C 4 bs ≠ crcBytes (slice 0 0x5C bs ++ bs.drop 0x60) then none
  else some
    { troupe := t, kind := leAt 4 1 bs, ring := leAt 5 1 bs, geom := leAt 6 1 bs, members := members, stripe := leAt 8 8 bs, seq := leAt 0x10 8 bs,
      cycle := leAt 0x18 4 bs, slot := leAt 0x1C 1 bs, shelf := leAt 0x1D 1 bs, row := leAt 0x1E 2 bs, group := leAt 0x20 4 bs,
      unit := leAt 0x24 4 bs, fill := leAt 0x28 4 bs, role := leAt 0x2C 2 bs,
      payload := (List.range n).map fun i => slice (0x60 + 4112 * i) 4112 bs
      modules := if leAt 4 1 bs ≤ 2 then (List.range members).map fun r => leAt (0x30 + r) 1 bs else [] }

/-- JOURNAL_MESSAGE (R178, R261): the Catcher holds the Flyer's journal entries, and the new Flyer the Turnstile records of 32 bytes that
the giving head relays. -/
def execJournalMessage (t : Troupe) (entry : Bytes) (s : State) : Host.Outcome State Fault Refusal :=
  s.act fun h =>
    match parseJrn t entry with
    | none => if entry.length = 32 then h.modTrp t fun p => { p with relays := p.relays ++ [entry] } else h
    | some j =>
      h.when (h.pair.trp t).follows fun h => h.modPty fun p =>
        let l := p.journal ++ [j]
        { p with
          journal := pruneJournal (l.filter (·.troupe == t)) ++ l.filter (·.troupe != t)
          nextSeq := match t with | .a => (max p.nextSeq.1 (j.seq + 1), p.nextSeq.2) | .b => (p.nextSeq.1, max p.nextSeq.2 (j.seq + 1)) }

/-! ## Control messages -/

/-- A peer that flies a troupe has claimed it: a vault that this head kept of it is not applied any more (R313). -/
def Head.forgetVault (h : Head) (t : Troupe) : Head :=
  let h := h.modCal fun c => { c with vault := match c.vault with
    | none => none
    | some (beats, handles, orders) =>
      let rest := beats.filter (·.1 != troupeBit t)
      if beats ≠ [] ∧ rest = [] then none else some (rest, handles, orders) }
  h.modDp fun d => { d with staged := d.staged.filter fun x => !(x.troupe == t && x.vaulted && !x.mirror) }

/-- The peer's roles, states and lines. A peer that reports that it holds a troupe whose line is low is a Baton line fault (R256). -/
def Head.peerRoles (h : Head) (ra rb sa sb : Nat) (hold : BitVec 2) : Head :=
  let h := h.modPair fun p => { p with peerRole := (ra, rb), peerState := (sa, sb), see := p.see ||| hold }
  let h := h.forEach [(Troupe.a, ra, sa), (Troupe.b, rb, sb)] fun h x =>
    let t := x.1
    if x.2.1 = 1 then
      let h := h.when (!h.flies t) fun h => h.forgetVault t
      let fault := !lineOf hold t && !lineOf h.pair.see t && (h.pair.trp t).handover.isNone && (x.2.2 == 1 || x.2.2 == 2)
      h.when fault fun h => (h.modTrp t fun p => { p with claiming := false }).report 618 sevFault (h.regsBytes [Adr.TRP_BATON])
    else h
  h.electMaster.claimHome

/-- The power master's shelf state table: the other head uses the copy (R224, R239). -/
def Head.peerShelves (h : Head) (table : List (Nat × Nat)) (figures : List (Nat × BitVec 32 × BitVec 32 × BitVec 32)) : Head :=
  let h := h.modShf fun f => { f with peerTable := table, figures := if h.pair.spareMaster then f.figures else figures }
  if h.pair.spareMaster then h
  else h.forEach table fun h x =>
    if h.shelfOn x.1 ∧ (h.shf.shelf x.1).state ≠ x.2 then
      let h := h.setShelfState x.1 x.2
      if x.2 = 3 then (h.meetDemands x.1 (h.shf.shelf x.1).fill).placeWaiting.retryRelocations x.1
      else if x.2 = 4 then h.forEach ((h.pty.stripes.filter fun s => s.shelf == x.1 && s.phase == .opened).map (·.number)) Head.closeStripe
      else h
    else h

/-- A change of the module state table by the spare master (R189), or a request to admit a module. -/
def Head.peerModule (h : Head) (s n st : Nat) : Head :=
  if h.pair.spareMaster then (if st = 5 then h.admitModule s n else h)
  else
    let h := h.modMnd fun m => { m with reported := m.reported.filter fun x => !(x.1 == s && x.2.1 == n) }
    if st = 1 ∨ st = 2 then
      (if (h.mnd.mdl s n).state < st then h.applyDeclaration s n (st == 1) else h)
    else h.setModule s n st

/-- The spare master's assignment (R189): this head rebuilds the groups of the troupes that it flies. -/
def Head.peerRebuild (h : Head) (s n : Nat) (copyOut : Bool) (kind : Nat) (todo : List (Nat × Nat × Nat × Nat)) : Head :=
  if h.pair.spareMaster then h
  else
    let spares := if kind = 1 ∧ (h.mnd.mdl s n).state ≠ 0 then todo.map (·.2.2.1) else []
    let h := h.when (!h.landing s) fun h => h.takeZones s todo
    let h := h.modMnd fun m => { m with
      rebuilds := m.rebuilds.filter fun r => !(r.shelf == s && r.mdl == n && r.todo.any todo.contains)
      modules := m.modules.map fun x => if x.shelf = s ∧ spares.contains x.mdl then { x with spare := false } else x }
    h.addRebuild s n copyOut kind todo

/-- A landing role has been rebuilt by the peer, or a group evacuated. -/
def Head.peerMoved (h : Head) (s n item pos target : Nat) : Head :=
  match h.mnd.rebuildOf s n with
  | none => h
  | some r =>
    let h := h.when (h.landing s && r.spareKind != 3) fun h => h.modPty fun p => { p with landing := p.landing.map fun x =>
      if x.1 = item then (x.1, x.2.1, x.2.2.1, x.2.2.2.set pos target) else x }
    h.takeOff fun x t => x.id == r.id && t.1 == item && t.2.1 == pos

/-- The handover message: the giving head names T and moves it; the home head asks for a handback; T = 0 withdraws (R261, R262). -/
def Head.peerHandover (h : Head) (t : Troupe) (beat : Nat) (leaving : Bool) : Head :=
  let p := h.pair.trp t
  if beat = 0 then
    (match p.handover with
     | none => h
     | some x => if x.committed then h else
       let h := (h.modTrp t fun y => { y with handover := none }).handbackDone x 4
       h.when (p.state == 5) fun h => (h.setRole t p.role 1).tellRoles)
  else if p.role = 1 then (if p.handover.isSome then h else h.handOver t beat false false)
  else if p.role = 2 then
    h.modTrp t fun y => { y with handover := some (match y.handover with
      | some x => { x with beat := beat, leaving := leaving }
      | none => { giving := false, beat := beat, leaving := leaving }) }
  else h

/-- CONTROL_MESSAGE (R243). -/
def Head.controlMsg (h : Head) (m : ControlMsg) : Head :=
  match m with
  | .heartbeat => h.modPair fun p => { p with heartbeats := 0 }
  | .roles ra rb sa sb hold => h.peerRoles ra rb sa sb hold
  | .shelves table figures => h.peerShelves table figures
  | .demands l =>
    let h := h.modShf fun f => { f with peerDemands := l }
    h.when h.pair.spareMaster fun h => h.serveDemand false
  | .moduleState s n st => h.peerModule s n st
  | .declare s n worn =>
    h.when (h.pair.spareMaster && decide ((h.mnd.mdl s n).state < (if worn then 1 else 2))) fun h =>
      (h.emit (.control (.moduleState s n (if worn then 1 else 2)))).applyDeclaration s n worn
  | .rebuild s n copyOut kind todo => h.peerRebuild s n copyOut kind todo
  | .rebuildMoved s n item pos target => h.peerMoved s n item pos target
  | .imageArm d beat => h.peerArmed d beat
  | .powerEntry st => h.modPair fun p => { p with peerPower := st }
  | .flush _ _ => h
  | .handover t beat leaving => h.peerHandover t beat leaving
  | .handoverCommit t =>
    match (h.pair.trp t).handover with
    | none => h
    | some x => if x.giving then h else
      (h.modTrp t fun p => { p with handover := some { x with committed := true } }).startClaim t
  | .updateConditions bits => h.modPair fun p => { p with peerConditions := bits }
  | .sanitize => (h.modStg fun s => { s with peerErasing := true }).eraseStart false
  | .sanitizeDone => (h.modStg fun s => { s with peerErasing := false }).eraseEnded
  | .resyncPage t page =>
    if (h.pair.trp t).state ≠ 6 then h
    else (h.modTrp t fun p => { p with pages := page :: p.pages.filter (· != page) }).followOrders t
  | .keyRecord n st e k => h.when h.stg.pairKey.isSome fun h => h.peerKeyRecord n st e k
  | .mapEntry d w n => h.when h.stg.pairKey.isSome fun h => h.mapDomain d w n
  | .salt i bs => h.when h.stg.pairKey.isSome fun h => h.peerSalt i bs
  | .saltConfirm i => h.modStg fun s => { s with saltWait := s.saltWait.filter (· != i) }

def execControlMessage (m : ControlMsg) (s : State) : Host.Outcome State Fault Refusal := s.act fun h => h.controlMsg m

/-- CATCHER_DIGEST_TIMEOUT (R247): no digest 4 slots after the edge. -/
def execCatcherDigestTimeout (t : Troupe) (s : State) : Host.Outcome State Fault Refusal :=
  s.act fun h =>
    let p := h.pair.trp t
    if p.role = 1 ∧ p.state = 1 ∧ p.beats.any (fun b => !b.matched && decide (b.closedAt + 64 ≤ h.now)) then h.catcherLost t else h

/-! ## Freezes (R249 to R251) -/

/-- FREEZE_VERDICT_MESSAGE (R250). -/
def execFreezeVerdictMessage (v : VerdictMsg) (s : State) : Host.Outcome State Fault Refusal :=
  s.act fun h =>
    let p := h.pair.trp v.troupe
    if (p.role = 1 ∨ p.role = 2) ∧ (p.canFreeze ∨ p.state = 3) ∧ p.outcome = 0 then h.decideFreeze v.troupe v else h

/-- A commit-path fault of this head (R251). -/
def Head.commitFault (h : Head) : Head := h.countFault 0xC 0 false

/-- Adopt the recomputed beats (codes 0x5 and 0x6). -/
def Head.adoptBeats (h : Head) (t : Troupe) : Head :=
  let p := h.pair.trp t
  let pairs := (p.frozenBeats.map (·.beat)).zip p.redone
  h.modTrp t fun x => { x with
    beats := x.beats.map fun b => { b with digest := (pairs.find? (·.1 == b.beat)).elim b.digest (·.2) }
    prevDigest := (pairs.getLast?).elim x.prevDigest (·.2) }

/-- A Flyer without an in-step Catcher gives up a handover that a freeze held up (R261). -/
def Head.endHandover (h : Head) (t : Troupe) : Head :=
  match (h.pair.trp t).handover with
  | none => h
  | some x =>
    let h := ((h.modTrp t fun p => { p with handover := none }).handbackDone x 4).raise 625
    h.when x.activation Head.cancelActivation

/-- The outcome of a freeze takes effect (R250, R251). -/
def Head.outcomeOf (h : Head) (t : Troupe) (code : Nat) : Head :=
  let flyer := (h.pair.trp t).role == 1
  if code = 5 then
    let h := ((h.adoptBeats t).reportOutcome t 5).commitFault
    let h := (h.setRole t (h.pair.trp t).role 1).modTrp t fun x => { x with openBeat := h.whl.beat }
    let h := h.forEach (h.pair.trp t).beats fun h b => h.exchangeDigest t b.beat
    (h.tellRoles).lastingHolder
  else if code = 2 then
    if flyer then ((h.reportOutcome t 2).commitFault).leavePair
    else (h.reportOutcome t 2).startTakeover t false
  else if flyer then
    let h := h.when (code == 6) fun h => (h.adoptBeats t).commitFault
    let h := ((h.reportOutcome t code).endHandover t).modTrp t fun x => { x with openBeat := h.whl.beat }
    ((h.alone t).tellRoles).lastingHolder
  else ((h.reportOutcome t code).commitFault).leavePair

/-- FREEZE_OUTCOME (R250): at the first eligible beat edge. -/
def execFreezeOutcome (t : Troupe) (s : State) : Host.Outcome State Fault Refusal :=
  s.act fun h =>
    let p := h.pair.trp t
    if p.state = 3 ∧ p.outcome ≠ 0 ∧ p.outcomeBeat ≤ h.whl.beat then h.outcomeOf t p.outcome else h

/-! ## The Baton (R252 to R254) -/

/-- KEEPER_BEAT_EXPIRY (R252): the commit path has closed no beat for KEEPER_BEATS beats. -/
def execKeeperBeatExpiry (s : State) : Host.Outcome State Fault Refusal :=
  s.act fun h =>
    let n := orIfZero 1 (h.fld Adr.TRP_CFG 5 4)
    let open_ := h.flown.filter fun t => (h.pair.trp t).state != 3
    if h.pair.hold ≠ 0 ∧ open_ ≠ [] ∧ open_.all (fun t => decide ((h.pair.trp t).openBeat + n ≤ h.whl.beat)) then h.keeperDrop else h

/-- BATON_CLAIM (R253 steps 1 to 3): SEE has been low through the guard time; HOLD is driven, and the confirm window begins. -/
def execBatonClaim (t : Troupe) (s : State) : Host.Outcome State Fault Refusal :=
  s.act fun h =>
    let p := h.pair.trp t
    if !p.claiming ∨ !h.pair.keeperOk ∨ lineOf h.pair.see t ∨ lineOf h.pair.hold t ∨ h.now < p.fallAt + 20 then h
    else (h.modPair fun q => { q with hold := setLine q.hold t true }).modTrp t fun x => { x with confirmAt := h.now }

/-- The claim is confirmed: it serves a handover, a takeover or a start. -/
def Head.claimed (h : Head) (t : Troupe) : Head :=
  let p := h.pair.trp t
  let h := (h.modPair fun q => { q with confirmed := setLine q.confirmed t true }).modTrp t fun x => { x with claiming := false, confirmAt := h.now }
  if p.state = 4 then h.takeoverConfirmed t
  else if p.handover.isSome then h
  else h.holdTroupe t ((h.fwu.found.map (·.programmed)).getD [])

/-- A claim lost to the home head (R253, R257). -/
def Head.claimLost (h : Head) (t : Troupe) : Head :=
  let p := h.pair.trp t
  let h := (h.dropHold t).modTrp t fun x => { x with claiming := false, lostClaim := true, handover := none }
  if p.state = 4 then (h.setRole t 3 2).tellRoles else h

/-- BATON_CONFIRM_WINDOW_END (R253): `seeRose` tells whether SEE rose during the window. -/
def execBatonConfirmWindowEnd (t : Troupe) (seeRose : Bool) (s : State) : Host.Outcome State Fault Refusal :=
  s.act fun h =>
    let p := h.pair.trp t
    if !p.claiming ∨ !lineOf h.pair.hold t ∨ h.now < p.confirmAt + 2 then h
    else if seeRose then
      let h := (h.modPair fun q => { q with see := setLine q.see t true }).raise 617
      if h.isHome t then h else h.claimLost t
    else if lineOf h.pair.see t then h
    else h.claimed t

/-- BATON_SEE_FALL (R257): a Catcher takes the troupe over; in a handover, or where this head already claims, the guard or confirm time
begins. -/
def Head.seeFall (h : Head) (t : Troupe) : Head :=
  let p := h.pair.trp t
  if !lineOf h.pair.see t then h
  else
    let h := h.modPair fun q => { q with see := setLine q.see t false, absent := q.absent || (!q.icl && setLine q.see t false == 0) }
    let given := (p.handover.map fun x => !x.giving).getD false
    let h :=
      if p.claiming then h.modTrp t fun x => if lineOf h.pair.hold t then { x with confirmAt := h.now } else { x with fallAt := h.now }
      else if given then h.startClaim t
      else if p.role = 2 then
        (if p.state = 3 ∧ !h.pair.icl then (h.reportOutcome t 8).startTakeover t false else h.startTakeover t false)
      else if p.role = 3 then h.startTakeover t true
      else h
    h.electMaster.claimHome

def execBatonSeeFall (t : Troupe) (s : State) : Host.Outcome State Fault Refusal := s.act fun h => h.seeFall t

/-- A chunk of the vault zones is staging of this head again. -/
def Head.restoreCopy (h : Head) (t : Troupe) (x : Nat × Bytes × BitVec 64) : Head :=
  if crc64 x.2.1 ≠ x.2.2 then h
  else h.modDp fun d => { d with staged := d.staged ++
    [{ handle := x.1, troupe := t, uid := none, bytes := x.2.1, guard := x.2.2, dirty := true, mirror := true, vaulted := true }] }

/-- Execute a logged beat after the last one held, when the digest chain agrees (R259); orders that were executed before are not again. -/
def Head.replayBeat (h : Head) (t : Troupe) (x : Nat × List Order × Bytes) : Head :=
  let p := h.pair.trp t
  if x.1 < p.openBeat ∨ x.2.2 ≠ p.prevDigest then h
  else
    let h := h.forEach (x.2.1.filter fun o => decide (p.order < o.order)) fun h o => h.takeOrder t o
    let h := (h.modTrp t fun y => { y with openBeat := x.1 }).closeBeat t
    h.modTrp t fun y => { y with beats := p.beats }

/-- Apply a flush of the peer (R313): a vault without a header, or older than the beats held, is discarded. -/
def Head.replayFlush (h : Head) (t : Troupe) (beat : Option Nat) (orders : List Order) : Head :=
  let p := h.pair.trp t
  if beat.any fun b => decide (p.openBeat ≤ b + 1) then
    (h.forEach (orders.filter fun o => decide (p.order < o.order)) fun h o => h.takeOrder t o).raise 813
  else h.raise 820

/-- Step 4 for a stale copy (R259): the vault's chunks, the logged beats, and a last-breath flush. -/
def Head.replayLog (h : Head) (t : Troupe) (found : LandingLog) : Head :=
  let h := h.forEach found.chunks fun h x => h.restoreCopy t x
  let h := h.forEach found.beats fun h x => h.replayBeat t x
  match found.flush with
  | none => h
  | some (beat, orders) => h.replayFlush t beat orders

/-- TAKEOVER_COMPLETE (R257 step 5, R259): the first beat edge at least 48 µs after the confirmation; a stale copy is brought up to the beat
log, and poisons what is found neither in the vault nor in a committed stripe. -/
def execTakeoverComplete (t : Troupe) (found : LandingLog) (s : State) : Host.Outcome State Fault Refusal :=
  s.act fun h =>
    let p := h.pair.trp t
    if p.state ≠ 4 ∨ !lineOf h.pair.confirmed t ∨ p.claiming ∨ h.now < p.confirmAt + 48 ∨ h.whl.slot % 16 ≠ 0 then h
    else ((h.when p.replay fun h => h.replayLog t found).takeoverEnd t).when p.replay fun h => h.poisonMissing t

/-! ## Handover (R261) -/

/-- HANDOVER_START: 512 µs before T the troupe enters HANDOVER. -/
def execHandoverStart (t : Troupe) (s : State) : Host.Outcome State Fault Refusal :=
  s.act fun h =>
    let p := h.pair.trp t
    match p.handover with
    | none => h
    | some x => if p.state = 1 ∧ x.beat ≤ h.whl.beat + 2 then (h.setRole t p.role 5).tellRoles else h

/-- Commands left after the fourth move of T complete with 0x84, cause 0x2; a Write among them issues no further map update. -/
def Head.endLeft (h : Head) (t : Troupe) : Head :=
  h.forEach (h.troupeCtxs t) fun h c =>
    ((h.dropWrite c.id).dropTasks c.id).complete c stTakeover (troupeBit t + 0x20 + h.estBeats t * 0x10000)

/-- HANDOVER_GATE: 64 µs before T; while a command is left or the last beat has not matched, T moves to the next beat edge, four times
at most. -/
def execHandoverGate (t : Troupe) (s : State) : Host.Outcome State Fault Refusal :=
  s.act fun h =>
    let p := h.pair.trp t
    match p.handover with
    | none => h
    | some x =>
      if !x.giving ∨ x.committed ∨ p.state ≠ 5 ∨ h.whl.slotCount + 4 < x.beat * 16 then h
      else if h.troupeCtxs t = [] ∧ p.beats.all (·.matched) then h
      else if x.moves < 4 then
        (h.modTrp t fun y => { y with handover := some { x with beat := x.beat + 1, moves := x.moves + 1 } }).emit
          (.control (.handover t (x.beat + 1) (x.activation || x.leaving)))
      else h.endLeft t

/-- HANDOVER_COMMIT_POINT: 48 µs before T; the last Marker and the handover message go out, and HOLD drops. -/
def execHandoverCommitPoint (t : Troupe) (s : State) : Host.Outcome State Fault Refusal :=
  s.act fun h =>
    let p := h.pair.trp t
    match p.handover with
    | none => h
    | some x =>
      if !x.giving ∨ x.committed ∨ p.state ≠ 5 ∨ h.whl.slotCount + 3 < x.beat * 16 ∨ h.troupeCtxs t ≠ [] then h
      else
        let h := ((h.sendMarker t).closeBeat t).exchangeDigest t p.openBeat
        let h := (h.emit (.control (.handoverCommit t))).dropHold t
        h.modTrp t fun y => { y with handover := some { x with committed := true } }

/-- H after T: Catcher in step; its dirty staging is the mirror of R's; what it launched is settled by R, and its records are relayed. -/
def Head.gaveTroupe (h : Head) (t : Troupe) : Head :=
  let h := h.modDp fun d => { d with staged := (d.staged.filter fun s => s.mirror || s.troupe != t || s.dirty).map fun s =>
    if s.troupe = t then { s with mirror := true, dirty := true } else s }
  h.modPty fun p => { p with
    bundles := p.bundles.filter fun b => b.troupe != t || (b.launched.isSome && b.ops.any fun o => o.status.isNone && !readsOf b.kind o.member)
    rows := p.rows.filter (·.troupe != t)
    stripes := p.stripes.filter fun s => s.troupe != t || s.phase == .committed || s.phase == .voided }

/-- R at T: Flyer; launches of H that have not settled wait for FENCED (R258, R261). -/
def Head.tookTroupe (h : Head) (t : Troupe) (leaving : Bool) : Head :=
  let h := h.modPair fun p => { p with fencing := p.fencing ++ ((h.awaited t).map fun j => (j.shelf, t)).dedup }
  let h := h.modTrp t fun p => { p with openBeat := h.whl.beat, openRecs := [], handover := none, descriptors := [] }
  let h := if leaving then h.alone t else h.setRole t 1 1
  h.adopt t

/-- HANDOVER_END: T; source 613. -/
def Head.handoverEnd (h : Head) (t : Troupe) (x : Handover) : Head :=
  let h := h.handbackDone x 1
  if x.giving then
    let h := ((h.gaveTroupe t).modTrp t fun p => { p with handover := none }).modPair fun p => { p with see := setLine p.see t true }
    let parting := h.parting
    let h := (if parting then h.setRole t 0 0 else h.setRole t 2 1).raise 613
    let h := h.tellRoles
    if parting then h
    else if h.fwu.restartDue && !h.giving then h.restart 0 else h
  else ((h.tookTroupe t x.leaving).raise 613).tellRoles

def execHandoverEnd (t : Troupe) (s : State) : Host.Outcome State Fault Refusal :=
  s.act fun h =>
    let p := h.pair.trp t
    match p.handover with
    | none => h
    | some x =>
      if !x.committed ∨ h.whl.slotCount < x.beat * 16 ∨ (!x.giving ∧ !lineOf h.pair.confirmed t) then h
      else h.handoverEnd t x

/-! ## The Iclin link (R240, R250, R260, R264) -/

/-- The loss of the link during a freeze whose exchange has not ended: each head acts on its own verdict (R250). -/
def Head.frozenAlone (h : Head) (t : Troupe) : Head :=
  let p := h.pair.trp t
  if p.role = 1 then
    if p.verdictOk = some false then
      ((((h.reportOutcome t 8).commitFault).raise 609).enqueue sevCritical 609 1 (leBytes 1 (2 ^ troupeBit t))).keeperDrop.modFwu fun f =>
        { f with restartDue := true }
    else
      let h := ((h.reportOutcome t 7).endHandover t).modTrp t fun x => { x with openBeat := h.whl.beat }
      h.alone t
  else if lineOf h.pair.see t then (h.reportOutcome t 7).setRole t 3 2
  else (h.reportOutcome t 8).startTakeover t false

/-- The loss of the link for a troupe. -/
def Head.linkLost (h : Head) (t : Troupe) : Head :=
  let p := h.pair.trp t
  let committed := (p.handover.map (·.committed)).getD false
  let giving := (p.handover.map (·.giving)).getD false
  if p.state = 3 then (if p.outcome = 0 then h.frozenAlone t else h)
  else if p.handover.isSome ∧ !committed then
    let h := h.abortHandover t
    if giving then h else h.goStale t
  else if committed then
    if giving then
      let h := (h.gaveTroupe t).modTrp t fun x => { x with handover := none }
      h.setRole t 3 2
    else
      let claiming := p.claiming
      let h := (h.setRole t p.role 4).modTrp t fun x => { x with handover := none, replay := false }
      if claiming then h else if lineOf h.pair.confirmed t then h.takeoverConfirmed t else h.startClaim t
  else if p.role = 1 then h.catcherLost t
  else if p.role = 3 ∧ p.state = 6 then (h.setRole t 3 2).modTrp t fun x => { x with joinAtEdge := false }
  else if p.state = 4 then h
  else h.goStale t

/-- ICLIN_LINK_DOWN (R264), or, with the link not up, the report that the peer is absent (R242). -/
def Head.iclinDown (h : Head) : Head :=
  if !h.pair.icl then
    let h := h.modPair fun p => { p with absent := true }
    h.electMaster.claimHome
  else
    let h := h.raise 620
    let aborted := [Troupe.a, .b].any fun t => ((h.pair.trp t).handover.map fun x => x.giving && !x.committed).getD false
    let h := h.modPair fun p => { p with icl := false, absent := p.see == 0, lanes := 0, pacing := false, mirrorBytes := 0, loadPct := 0,
                                         resyncActive := false, peerConditions := 0, peerPower := 0 }
    let h := (h.linkLost .a).linkLost .b
    let h := h.modStg fun s => { s with pairKey := none, peerErasing := false }
    let h := (h.electMaster).eraseEnded.exchangeLost
    let h := h.when aborted Head.cancelActivation
    if h.fwu.restartDue ∧ !h.giving then h.restart 0 else h

def execIclinLinkDown (s : State) : Host.Outcome State Fault Refusal := s.act Head.iclinDown

/-- The counts of the pair (R229): a head that holds no troupe takes those of a peer that does, and of two heads that start the higher. -/
def Head.joinCounts (h : Head) (count : Nat) : Head :=
  if h.pair.hold ≠ 0 ∨ !h.whl.running ∨ (h.pair.see = 0 ∧ count ≤ h.whl.slotCount) then h
  else { h with whl := { h.whl with
    cycle := count / 256 % 2 ^ 40, slot := count % 256
    reserved := if h.whl.reserved ≤ count / 256 % 2 ^ 40 + 1 then count / 256 % 2 ^ 40 + 65536 else h.whl.reserved } }

/-- ICLIN_LINK_UP (R229, R240, R264): a peer of the same HEAD_ID is refused with source 626, and the head runs as if it were absent. -/
def Head.iclinUp (h : Head) (peerHead lanes peerCount : Nat) : Head :=
  if h.pair.icl ∨ !h.fwu.running ∨ lanes < 16 then h
  else if peerHead = h.headId then ((h.modPair fun p => { p with absent := true }).raise 626).electMaster.claimHome
  else
    let h := (h.modPair fun p => { p with icl := true, absent := false, lanes := min 64 lanes, heartbeats := 0 }).raise 621
    let h := h.joinCounts peerCount
    let h := (h.modStg fun s => { s with pairKey := some (h.freeBytes 32) }).spend
    let h := h.electMaster.tellRoles
    if h.pair.spareMaster then
      let h := h.emits ((h.mnd.modules.filter fun m => decide (1 ≤ m.state ∧ m.state ≤ 3)).map fun m =>
        .control (.moduleState m.shelf m.mdl m.state))
      (h.emits (h.mnd.rebuilds.map fun r => .control (.rebuild r.shelf r.mdl r.copyOut r.spareKind r.todo))).assignAll
    else h.emits (h.mnd.reported.map fun x => .control (.declare x.1 x.2.1 (x.2.2 == 1)))

def execIclinLinkUp (peerHead lanes peerCount : Nat) (s : State) : Host.Outcome State Fault Refusal :=
  s.act fun h => h.iclinUp peerHead lanes peerCount

/-! ## Resynchronisation (R263) -/

/-- This head can join a troupe that the peer holds (R263 step 1). -/
def Head.canJoin (h : Head) (t : Troupe) : Bool :=
  let p := h.pair.trp t
  h.pair.icl && h.stg.pairKey.isSome && h.peerFlies t && p.role != 1 && !p.claiming && (p.state == 0 || p.state == 2) && !h.pair.lasting

/-- RESYNC_START: the joining head discards its copy; the Flyer starts the copy. -/
def execResyncStart (t : Troupe) (s : State) : Host.Outcome State Fault Refusal :=
  s.act fun h =>
    let p := h.pair.trp t
    if !h.pair.icl ∨ h.stg.pairKey.isNone then h
    else if p.role = 1 then (if p.state = 2 ∧ !h.pair.resyncActive ∧ !p.joinAtEdge then h.startCopy t else h)
    else if h.canJoin t ∧ h.bit Adr.TRP_CFG 2 then h.joinTroupe t
    else h

/-- RESYNC_COPY_END: the troupe is PAIRED from the next beat edge on. -/
def execResyncCopyEnd (t : Troupe) (s : State) : Host.Outcome State Fault Refusal :=
  s.act fun h =>
    let p := h.pair.trp t
    if p.role = 1 ∧ h.pair.resyncActive ∧ h.pair.resyncTroupe = t then
      (h.modPair fun q => { q with resyncActive := false, resyncDone := q.resyncTotal }).modTrp t fun x => { x with joinAtEdge := true }
    else if p.role = 3 ∧ p.state = 6 then h.modTrp t fun x => { x with joinAtEdge := true }
    else h

/-- TRP_CTRL.HANDBACK (R262). -/
def Head.trpHandback (h : Head) : Head :=
  if h.pair.hbBusy then h
  else
    match h.handback (ofBit (h.fld Adr.TRP_CTRL 1 1)) (h.reg Adr.TRP_HANDBACK_BEAT).toNat true none with
    | (h, 1) => h.modPair fun p => { p with hbBusy := true, hbResult := 0 }
    | (h, r) => h.modPair fun p => { p with hbResult := r }

def execTrpHandback (s : State) : Host.Outcome State Fault Refusal := s.act Head.trpHandback

/-- TRP_CTRL.REJOIN (R251, R263): LASTING is cleared, and the head may join again. -/
def Head.trpRejoin (h : Head) : Head :=
  let h := h.modFlt fun f => { f with parts := f.parts.filter (·.cls != 0xC) }
  let h := h.modPair fun p => { p with lasting := false }
  let free (h : Head) (t : Troupe) : Head := if (h.pair.trp t).state = 7 ∧ !h.bridgesOut then h.setRole t 0 0 else h
  let h := (free (free h .a) .b).tellRoles
  h.forEach ([Troupe.a, .b].filter h.canJoin) Head.joinTroupe

def execTrpRejoin (s : State) : Host.Outcome State Fault Refusal := s.act Head.trpRejoin

/-- START_WAIT_EXPIRY (R242): the peer has been reported absent for START_WAIT since the start; the other troupe is claimed too. -/
def execStartWaitExpiry (s : State) : Host.Outcome State Fault Refusal :=
  s.act fun h =>
    let wait := orIfZero 1 (h.fld Adr.TRP_CFG 15 8) * 100000
    let t := otherTroupe (ofBit h.headId)
    let p := h.pair.trp t
    if !h.pair.absent ∨ h.pair.icl ∨ !h.fwu.running ∨ h.fwu.phase ≠ 0 ∨ h.now < h.pair.startAt + wait ∨ p.role ≠ 0 ∨ p.state ≠ 0 ∨ p.claiming ∨
       lineOf h.pair.see t then h
    else h.startClaim t

end Sys2Proof.Machine
end

