-- ==== Sys2Proof/Machine/Wheel.lean ====
section
/-!
DEFINITION. Commands of the Wheel (10_shelves_and_the_wheel.md R229 to R234; 17_package_pins_electrical.md R376): the seal of a launch
list, slot, beat and cycle edges, and the lock to PTP, to `WHEEL_REF` and to the peer.
-/

namespace Sys2Proof.Machine

open Sys2Proof

def Head.modWhl (h : Head) (f : Whl → Whl) : Head := { h with whl := f h.whl }

/-! ## The launch list (R231) -/

/-- Operations launched and not yet reported. -/
def Head.inFlightOps (h : Head) : Nat :=
  ((h.pty.bundles.filter (·.launched.isSome)).map fun b => (b.ops.filter (·.status.isNone)).length).sum

/-- Order of launching: class order, then readiness, then age. -/
def Bundle.ahead (a b : Bundle) : Bool :=
  decide (a.cls < b.cls ∨ (a.cls = b.cls ∧ (a.readyAt < b.readyAt ∨ (a.readyAt = b.readyAt ∧ a.id ≤ b.id))))

/-- Put a bundle in its place of the launch order. -/
def insertBundle (b : Bundle) : List Bundle → List Bundle
  | [] => [b]
  | x :: l => if b.ahead x then b :: x :: l else x :: insertBundle b l

/-- The class is admitted: by the slot's plan; only LAND and CPROG in HOLD (R303); vault writes in every slot of a flush (R312). -/
def Head.admitsBundle (h : Head) (slot : Nat) (b : Bundle) : Bool :=
  match b.kind with
  | .vault _ => h.cal.flush == 1 || h.admits slot b.cls
  | _ => h.cal.flush != 1 && h.admits slot b.cls && (decide (h.pwr.level < 3) || b.cls == clsLand || b.cls == clsCprog)

/-- The shelf takes operations: OPEN, or PARTIAL with the modules of a rebuild, behind a port with a link that is not retraining (R216). -/
def Head.shelfTakes (h : Head) (b : Bundle) : Bool :=
  let port := h.shf.port (h.shelfPort b.shelf)
  !port.lost && decide (port.retrain ≤ h.now) &&
    match b.kind with
    | .rebuildUnit id => ((h.mnd.rebuilds.find? (·.id == id)).map h.modulesPowered).getD false
    | _ => (h.shf.shelf b.shelf).state == 3

/-- Writes need the troupe's confirmed Baton (R253); nothing is launched after the commit point of a handover (R261); stripe launches
stop in a freeze (R249). -/
def Head.troupeTakes (h : Head) (b : Bundle) : Bool :=
  let p := h.pair.trp b.troupe
  let appends := match b.kind with | .append _ | .journal _ => true | _ => false
  (readsOf b.kind 0 && b.cls != clsMend || (h.flies b.troupe && lineOf h.pair.confirmed b.troupe)) &&
    !((p.handover.map fun x => x.giving && x.committed).getD false) && !(appends && p.state == 3)

/-- Check point 0x3 of a stripe's chunks (R165): a chunk that fails is fetched from the Catcher or poisoned, and the stripe waits. -/
def Head.checkStage (h : Head) (s : Stripe) : Head × Bool :=
  let copies := s.chunks.filterMap fun c =>
    if ((h.dp.chunk? c.1).map (·.poisoned)).getD true then none else h.dp.staged.find? (·.uid == some c.1)
  let waits := copies.filter fun x => x.fetching && h.paired s.troupe
  let bad := copies.filter fun x => !(x.fetching && h.paired s.troupe) && (crc64 x.bytes != x.guard || !hdrOk x.bytes)
  (h.forEach (bad.map (·.handle)) Head.stageFailed, waits.isEmpty && bad.isEmpty)

/-- The journal entry of a stripe is there, or is written now (R178); without room the launch waits (R179). -/
def Head.enterJournal (h : Head) (s : Stripe) (cycle slot : Nat) : Head × Bool :=
  if h.pty.journal.any fun j => j.kind == 1 && j.stripe == s.number && !resolvedIn h.pty.journal j then (h, true)
  else if !h.jrnRoom s.troupe 96 ∨ h.jrnNone s.troupe then (h.setJrnWait s.troupe true, false)
  else (h.writeJournal (h.stripeJournal s 1 cycle slot), true)

/-- What must hold before a bundle launches; without a Catcher the landing copies of an append's entry come first. -/
def Head.prepare (h : Head) (b : Bundle) (cycle slot : Nat) : Head × Bool :=
  match b.kind with
  | .append n =>
    match h.stripe? n with
    | none => (h.dropBundle b.id, false)
    | some s =>
      if !h.paired s.troupe ∧ b.ops.any (·.member == 0xFE) then
        ((h.dropBundle b.id).addBundle (.journal n) clsLand s.troupe (h.journalHome s.troupe).1 n 0xFFFF (h.journalOps s.troupe), false)
      else
        match h.checkStage s with
        | (h, false) => (h, false)
        | (h, true) => h.enterJournal s cycle slot
  | .journal n =>
    match h.stripe? n with
    | none => (h.dropBundle b.id, false)
    | some s => h.enterJournal s cycle slot
  | _ => (h, true)

/-- Bytes that one operation of a bundle moves. -/
def Head.opBytes (h : Head) (b : Bundle) : Nat :=
  match b.kind with
  | .append _ | .filler _ | .rebuildRead _ | .rebuildUnit _ | .scrub _ | .relocRead .. => unitBytes
  | .chunkRead t => ((h.dp.task? t).bind fun t => h.dp.chunk? t.uid).elim 0 fun c => c.reducedLen / max 1 b.ops.length
  | .vault n => ((h.staged? n).map (·.bytes.length)).getD 0
  | .finish _ | .zoneReset _ => 0
  | _ => 4096

/-- What goes to the modules with a launch. -/
def Head.sendData (h : Head) (b : Bundle) : Head :=
  match b.kind with
  | .append n => match h.stripe? n with | none => h | some s => h.programMembers s
  | .filler n => match h.stripe? n with | none => h | some s => h.programFillers s (b.ops.map (·.member))
  | .rowWrite st row =>
    match h.row? st row with
    | none => h
    | some r =>
      let (g, k) := h.landGeom st
      h.emits (b.ops.map fun o =>
        .rowBlock b.shelf o.mdl st row o.member
          (taggedBlock (if o.member = k then r.p else if o.member = k + 1 then r.q else r.block) st row o.member g))
  | _ => h

/-- Launch a bundle in the slot that is sealed: its doorbells carry the slot count. -/
def Head.launch (h : Head) (b : Bundle) (cycle slot start : Nat) : Head :=
  let h := match b.kind with
    | .append n => (h.modStripe n fun s => { s with phase := .flying, cycle := cycle, slot := slot }).ptyCount 0 1
    | _ => h
  let bytes := (b.ops.filter (·.status.isNone)).length * h.opBytes b
  let port := h.shelfPort b.shelf
  let h := h.modMnd fun m => { m with
    portLoad := match b.kind with
      | .rebuildUnit _ => m.portLoad
      | _ => assocSet port (assocGet port 0 m.portLoad + bytes) m.portLoad
    appendLoad := if b.cls = clsCprog then assocSet port (assocGet port 0 m.appendLoad + bytes) m.appendLoad else m.appendLoad }
  let late := orIfZero 1 (h.fld Adr.PTY_CFG 23 16) * 10000
  let h := h.modPty fun p => { p with bundles := p.bundles.map fun x =>
    if x.id = b.id then { x with launched := some (cycle, slot, start), lateAfter := late } else x }
  (h.emit (.launch b.id cycle slot)).sendData b

/-- Launch what the slot admits and has room for; `used` counts operations by class. -/
def Head.launchAll (cycle slot start : Nat) : List Bundle → Nat → List (Nat × Nat) → Head → Head × List (Nat × Nat) × Nat
  | [], _, used, h => (h, used, 0)
  | b :: l, room, used, h =>
    if !h.admitsBundle slot b || !h.shelfTakes b || !h.troupeTakes b then h.launchAll cycle slot start l room used
    else
      let n := (b.ops.filter (·.status.isNone)).length
      if room < n then
        let (h, used, over_) := h.launchAll cycle slot start l room used
        (h, used, over_ + n)
      else
        match h.prepare b cycle slot with
        | (h, false) => h.launchAll cycle slot start l room used
        | (h, true) => (h.launch b cycle slot start).launchAll cycle slot start l (room - n) (assocSet b.cls (assocGet b.cls 0 used + n) used)

/-- The plan of a slot as Calliope takes it (R306): operations by class, with the transitions of POWER; booths starting work, the change
in D and rings waking since the last seal. -/
def Head.planCounts (h : Head) (n : Nat) (used : List (Nat × Nat)) : List Int :=
  let moves := (h.shelvesOn.filter fun s => ((h.shf.shelf s).armed.map (·.1)) == some n).length
  let (booths, duty, rings) := h.cal.planned
  let nowB := (h.dp.booths.filter (·.holder.isSome)).length
  let nowR := h.runningRings.length
  (List.range 7).map (fun c => ((if c = clsPower then moves else assocGet c 0 used : Nat) : Int)) ++
    [((nowB - booths : Nat) : Int), (h.pwr.duty : Int) - (duty : Int), ((nowR - rings : Nat) : Int)]

/-- SLOT_SEAL (R231): 2 µs before the next slot. -/
def Head.sealSlot (h : Head) : Head :=
  let n := h.whl.slotCount + 1
  let last := h.whl.slot = 255
  if !h.whl.running ∨ h.whl.sealedFor = n ∨ h.now < h.whl.slotAt + 14 + (if last then h.whl.stretch else 0) then h
  else
    let start := h.whl.slotAt + 16 + (if last then h.whl.stretch else 0)
    let max_ := (h.plan (n % 256)).maxOps
    let free := 32768 - h.inFlightOps
    let room := if max_ = 0 then free else min max_ free
    let list := (h.pty.bundles.filter (·.launched.isNone)).foldr insertBundle []
    let (h, used, moved) := Head.launchAll (n / 256) (n % 256) start list room [] h
    let beat := h.whl.beat
    let first := decide (0 < moved) && h.whl.overrunBeat != some beat
    let h := h.modWhl fun w => { w with
      sealedFor := n
      launching := (n, (used.map (·.2)).sum) :: w.launching
      overrun := w.overrun + moved
      overrunBeat := if 0 < moved then some beat else w.overrunBeat }
    let h := h.when first fun h => h.raise 677
    let plan := h.planCounts n used
    let now := ((h.dp.booths.filter (·.holder.isSome)).length, h.pwr.duty, h.runningRings.length)
    h.modCal fun c => { c with nextPlan := plan, planned := now }

def execSlotSeal (s : State) : Host.Outcome State Fault Refusal := s.act Head.sealSlot

/-! ## Locks and offsets (R232 to R234) -/

/-- LOCK without drift: the driver's PTP or HOLDOVER, the follower's REF or TICK, FREE before any lock. -/
def Head.baseLock (h : Head) : Nat :=
  let w := h.whl
  if w.driver then (if w.ptpLocked && h.bit Adr.WHL_CFG 0 then 1 else if w.everLocked then 2 else 0)
  else if w.refSeen then 3 else if w.tickSeen then 4 else 0

/-- Report a lock state. -/
def Head.relock (h : Head) (drift : Bool) : Head :=
  let base := h.baseLock
  h.modWhl fun w => { w with lock := if drift then 5 else base, everLocked := w.everLocked || base == 1 || 3 ≤ base }

/-- PEER_OFFSET_CHECK (R234): the offset measured at a slot edge, on `WHEEL_TICK_IN` by the driver and on `WHEEL_REF` by the follower. -/
def Head.checkOffset (h : Head) (ofs : Option Int) : Head :=
  let was := (h.whl.peerOfs.map Int.natAbs).getD 0
  match ofs with
  | none =>
    let h := h.modWhl fun w => { w with peerOfs := none, tickSeen := if w.driver then false else w.tickSeen }
    if h.whl.lock = 5 then h.relock false else h
  | some o =>
    let n := o.natAbs
    let h := h.modWhl fun w =>
      if w.driver then { w with peerOfs := some o, tickSeen := true, refSeen := true }
      else { w with peerOfs := some o, refSeen := true, refMissing := 0 }
    if n ≤ 50 then h.relock false
    else if n ≤ 2000 then
      let due := match h.whl.driftMinute with | none => true | some t => decide (t + 60000000 ≤ h.now)
      (h.relock true).when due fun h => (h.modWhl fun w => { w with driftMinute := some h.now }).raise 673
    else
      let h := (h.relock true).modWhl fun w => { w with stepDue := w.stepDue || !w.driver }
      h.when (decide (was ≤ 2000)) fun h => h.raise 678

/-- The signed offset of the Wheel's edge from the grid of 4,096,000 ns of PTP time. -/
def Head.ptpOffset (h : Head) : Int :=
  let o := (h.whl.ptpBase + 1000 * (h.whl.slotAt - 16 * h.whl.slot)) % 4096000
  if o ≤ 2048000 then (o : Int) else (o : Int) - 4096000

/-! ## Edges -/

/-- The kind of the edge at which the slot in hand began, as a pulse width (R232). -/
def Whl.pulse (w : Whl) : Nat := if w.slot = 0 then 400 else if w.slot % 16 = 0 then 200 else 100

/-- SLOT_START (R232, R243): the count advances; a heartbeat and the head's own update conditions (R354) go to the peer; `WHEEL_TICK_OUT`, and `WHEEL_REF` on the driver, are pulsed; a new power master drives from the
slot after a cycle edge; the plan goes to Calliope; Mend takes a slot's credit. -/
def Head.slotStart (h : Head) (peerOfs : Option Int) : Head :=
  let w := h.whl
  let last := w.slot = 255
  if !w.running ∨ h.now < w.slotAt + 16 + (if last then w.stretch else 0) then h
  else
    let h := h.modWhl fun w => { w with
      slot := (w.slot + 1) % 256
      cycle := if last then (w.cycle + 1) % 2 ^ 40 else w.cycle
      slotAt := h.now
      driver := w.driver && !w.dropDrive
      dropDrive := false }
    let takes := h.whl.slot == 1 && h.pair.spareMaster && !h.whl.driver
    let h := h.when takes fun h => (h.modWhl fun w => { w with driver := true }).raise 675
    let h := h.emit (.pulse h.whl.pulse false)
    let h := h.when h.whl.driver fun h => h.emit (.pulse h.whl.pulse true)
    let h := h.checkOffset peerOfs
    let h := h.when h.pair.icl fun h => (h.modPair fun p => { p with heartbeats := p.heartbeats + 1 }).emit (.control .heartbeat)
        |>.emit (.control (.updateConditions (h.ownConditions.foldr (fun b v => 2 * v + b.toNat) 0)))
    let h := h.modCal fun c => { c with plan := c.nextPlan, nextPlan := List.replicate 10 0 }
    (h.addCredit).domainsSettle

def execSlotStart (peerOfs : Option Int) (s : State) : Host.Outcome State Fault Refusal := s.act fun h => h.slotStart peerOfs

/-- RWS_SET_APPLY (R39) and RACK_BUDGET_APPLY (R223): RACK_W is the one staged field. -/
def Head.applyStaged (h : Head) : Head :=
  let due := h.tsi.staged.filter fun x => decide (x.2.2 + 16 ≤ h.whl.slotAt)
  match due.find? (·.1 == Adr.SHF_BUDGET) with
  | none => h
  | some (_, v, _) =>
    let w := v.toNat % 2 ^ 24
    if h.bit Adr.TSI_CTRL 8 then h
    else if (List.range 256).any (fun i => decide (w < (h.plan i).budgetW)) ∨ w < h.leastDraw then
      let h := h.setFld Adr.TSI_STATUS 7 7 1
      h.when (!h.tsi.disagreed) fun h => (h.modTsi fun t => { t with disagreed := true }).report 930 sevNotice []
    else
      let h := (h.setFld Adr.TSI_STATUS 7 7 0).setFld Adr.SHF_BUDGET 23 0 w
      let h := h.modTsi fun t => { t with disagreed := false, staged := t.staged.filter (·.1 != Adr.SHF_BUDGET) }
      let h := h.modShf fun f => { f with rackW := w }
      h.when h.pair.spareMaster fun h => (h.checkArms).fitBudget 128

/-- The edge of a troupe that this head flies: the beat closes, with the Marker to an in-step Catcher or to the beat log when alone;
a finished resync pairs the troupe; the releases due are issued (R17, R100, R247, R248, R263). -/
def Head.beatTroupe (h : Head) (t : Troupe) : Head :=
  let p := h.pair.trp t
  let given := (p.handover.map fun x => x.giving && x.committed).getD false
  if p.role ≠ 1 then h.joined t
  else if given ∨ !(p.state == 1 || p.state == 2 || p.state == 5) then h
  else
    let beat := p.openBeat
    let h :=
      if beat < h.whl.beat then
        if p.state = 2 then
          let h := h.closeBeat t
          match (h.pair.trp t).beats.find? (·.beat == beat) with
          | none => h
          | some b => h.logBeat t b
        else ((h.sendMarker t).closeBeat t).exchangeDigest t beat
      else h
    let h := (h.modTrp t fun x => { x with openBeat := max x.openBeat h.whl.beat }).joined t
    if (h.pair.trp t).state = 3 then h else h.releases t

/-- The mirror traffic of the beat just closed against the payload rate of the link (R5, R264). -/
def Head.beatLink (h : Head) : Head :=
  let cap := h.iclBytes
  let n := h.pair.mirrorBytes
  let over_ := h.pair.icl && decide (cap ≤ n)
  let due := over_ && (!h.pair.pacing || decide (h.pair.lastPacing + 1000000 ≤ h.now))
  let h := h.modPair fun p => { p with
    loadPct := if cap = 0 then 0 else min 100 (n * 100 / cap)
    mirrorBytes := 0
    pacing := over_
    lastPacing := if due then h.now else p.lastPacing }
  h.when due fun h => h.raise 627

/-- The shelf state table and the demands go to the peer (R224). -/
def Head.tellShelves (h : Head) : Head :=
  h.when h.pair.icl fun h =>
    let h := h.when h.pair.spareMaster fun h =>
      h.emit (.control (.shelves (h.shelvesOn.map fun s => (s, (h.shf.shelf s).state)) h.shf.figures))
    h.emit (.control (.demands (h.shf.demands.map fun d => (d.kind, d.shelf, d.deadline.getD 0))))

/-- BEAT_EDGE (R17): the beats close, then what takes effect at a beat edge does: rates, governor, flush volume, staged registers,
placements that waited, an activation that goes on. -/
def Head.beatEdge (h : Head) : Head :=
  if !h.whl.running ∨ h.whl.slot % 16 ≠ 0 ∨ h.whl.edgeDone = some h.whl.beat then h
  else
    let h := h.modWhl fun w => { w with edgeDone := some w.beat }
    let h := (h.beatTroupe .a).beatTroupe .b
    let h := ((h.setRates).governBeat).beatLink
    let h := h.modCal fun c => { c with volume := h.flushVolume }
    let h := ((h.applyStaged).placeWaiting).tellShelves
    (h.tryAcks).activationStep

def execBeatEdge (s : State) : Host.Outcome State Fault Refusal := s.act Head.beatEdge

/-- What a step of the Wheel does at the edge that begins the cycle it lengthens: source 674 with its record, and learning stops (R233,
R305). -/
def Head.startStep (h : Head) (ofs : Int) : Head :=
  let ns := ((-ofs) % 4096000).toNat
  let h := (h.modWhl fun w => { w with stretch := ceilDiv ns 1000, stepDue := false }).report 674 sevNotice []
  (h.modCal fun c => { c with stepped := true }).raise 818

/-- CYCLE_EDGE (R233): counts are reserved ahead, an old driver stops, the offset is slewed by at most 1 µs or stepped, and Calliope starts
a new cycle. -/
def Head.cycleEdge (h : Head) : Head :=
  let w := h.whl
  if !w.running ∨ w.slot ≠ 0 ∨ w.cycleDone = some w.cycle then h
  else
    let stepped := decide (w.stretch ≠ 0)
    let h := h.modWhl fun w => { w with
      cycleDone := some w.cycle
      reserved := if w.reserved ≤ w.cycle + 1 then w.reserved + 65536 else w.reserved
      launched := (w.launching.filter fun x => x.1 / 256 + 1 == w.cycle).map fun x => (x.1 % 256, x.2)
      launching := w.launching.filter fun x => decide (w.cycle ≤ x.1 / 256)
      driver := w.driver && h.pair.spareMaster
      stretch := 0
      ptpOfs := if stepped && w.driver then some 0 else w.ptpOfs }
    let h := h.modCal fun c => { c with stepped := false, learn := h.bit Adr.CAL_CTRL 1, ff := h.bit Adr.CAL_CTRL 2 }
    let h := h.when (stepped && h.pair.spareMaster) fun h =>
      h.emits ((h.shelvesOn.filter fun s => (h.shf.shelf s).linked).map fun s => .shelfBus s 0x13 [(h.whl.cycle + 1) % 2 ^ 40])
    let locked := h.whl.driver && h.whl.ptpLocked && h.bit Adr.WHL_CFG 0
    let h :=
      if locked then
        match h.whl.ptpOfs with
        | none => h
        | some o =>
          if o.natAbs ≤ 100000 then
            h.modWhl fun w => { w with ptpOfs := some (if 1000 < o then o - 1000 else if o < -1000 then o + 1000 else 0) }
          else h.startStep o
      else if !h.whl.driver && h.whl.stepDue then
        (match h.whl.peerOfs with
         | none => h
         | some o => h.startStep o)
      else h
    h.relock (h.whl.lock == 5)

def execCycleEdge (s : State) : Host.Outcome State Fault Refusal := s.act Head.cycleEdge

/-! ## Losses of a source -/

/-- WHEEL_REF_MISSING (R232): no pulse for 1 beat; a head that is not the driver takes the drive over when the peer is absent or it is
itself the power master. -/
def execWheelRefMissing (s : State) : Host.Outcome State Fault Refusal :=
  s.act fun h =>
    if h.whl.driver ∨ !h.whl.running then h
    else
      let h := h.modWhl fun w => { w with refSeen := false }
      if h.pair.absent ∨ h.pair.spareMaster then ((h.modWhl fun w => { w with driver := true }).raise 675).relock false else h

/-- WHEEL_REF_CONTENTION (R376): source 679 on a driver; head 1 stops at its next slot edge. -/
def execWheelRefContention (s : State) : Host.Outcome State Fault Refusal :=
  s.act fun h =>
    if !h.whl.driver then h
    else (h.raise 679).modWhl fun w => { w with dropDrive := w.dropDrive || h.headId == 1 }

/-- PTP_LOCK_LOST (R234): the driver goes on in HOLDOVER; source 672. -/
def execPtpLockLost (s : State) : Host.Outcome State Fault Refusal :=
  s.act fun h =>
    if !h.whl.ptpLocked then h
    else
      let h := h.modWhl fun w => { w with ptpLocked := false, ptpOfs := none }
      h.when h.whl.driver fun h => (h.raise 672).relock false

/-- PTP_LOCK_ACQUIRED (R233): the servo locks, and with PTP_EN the driver's phase follows it. -/
def execPtpLockAcquired (s : State) : Host.Outcome State Fault Refusal :=
  s.act fun h =>
    if !h.whl.running ∨ h.whl.ptpLocked then h
    else (h.modWhl fun w => { w with ptpLocked := true, ptpOfs := some h.ptpOffset }).relock (h.whl.lock == 5)

/-- REF_MISSING (R233): `WHEEL_REF` is missing for 2 slots; the follower locks to `WHEEL_TICK_IN`, and source 676 is raised. -/
def execRefMissing (s : State) : Host.Outcome State Fault Refusal :=
  s.act fun h =>
    if h.whl.driver ∨ !h.whl.running then h
    else ((h.modWhl fun w => { w with refSeen := false, tickSeen := true, refMissing := 2 }).raise 676).relock false

end Sys2Proof.Machine
end

