-- ==== Sys2Proof/Machine/Tsi.lean ====
section
/-!
DEFINITION. Commands of the image loader (02_thiez_structural_image.md R32 to R45): load, check, arm, commit point, application, and the
microcode of a spare site.
-/

namespace Sys2Proof.Machine

open Sys2Proof

/-! ## Load and check (R32 to R34) -/

/-- Refuse a LOAD: LOAD_REFUSED and source 931. -/
def Head.loadRefused (h : Head) : Head := (h.orReg Adr.TSI_STATUS 0x10).raise 931

/-- TSI_LOAD: the bytes at TSI_SRC are copied; a CHECK under way ends with code 0x10. -/
def State.tsiLoad (s : State) : State :=
  let h := s.head
  let len := h.fld Adr.TSI_SRC_LEN 23 0
  let bytes := s.dmaBytes (h.fld Adr.TSI_SRC_LO 31 6 * 64 + h.fld Adr.TSI_SRC_HI 15 0 * 2 ^ 32) (min len 0x800000)
  let merges := (parseImage bytes).kind == 1 && (h.tsi.staging.map (·.kind)) == some 0
  if h.tsi.state = 6 ∨ h.tsi.state = 7 ∨ 0x800000 < len ∨ merges then { s with head := h.loadRefused }
  else
    let h := h.when (h.tsi.state == 3) fun h =>
      (h.modTsi fun t => { t with check := (0x10, 0, 0) }).report 932 sevNotice (leBytes 1 0x10 ++ zeros 3)
    { s with head := h.modTsi fun t => { t with state := 1, loading := some bytes, checked := none } }

def execTsiLoad (s : State) : Host.Outcome State Fault Refusal := .next s.tsiLoad

/-- TSI_LOAD_DONE: the copy is complete, or its source failed. -/
def execTsiLoadDone (sourceError : Bool) (s : State) : Host.Outcome State Fault Refusal :=
  s.act fun h =>
    match h.tsi.state, h.tsi.loading with
    | 1, some bytes => h.modTsi fun t =>
        if sourceError then { t with state := 5, loading := none }
        else { t with state := 2, loading := none, staging := some (mergeStaged t.staging (parseImage bytes)) }
    | _, _ => h

/-- TSI_CHECK: a loaded image is checked. -/
def Head.tsiCheck (h : Head) : Head := if h.tsi.state = 2 then h.modTsi fun t => { t with state := 3 } else h

def execTsiCheck (s : State) : Host.Outcome State Fault Refusal := s.act Head.tsiCheck

/-- TSI_CHECK_DONE (R32): `xmssRoot` is the root computed from the image's signature. -/
def Head.checkDone (h : Head) (xmssRoot : Bytes) : Head :=
  match h.tsi.state, h.tsi.staging with
  | 3, some i =>
    let c := h.checkImage i xmssRoot
    if c.1 = 0 then h.modTsi fun t => { t with state := 4, check := c, checked := some (h.merged i) }
    else
      (h.modTsi fun t => { t with state := 5, check := c, checked := none }).report 932 sevNotice
        (leBytes 1 c.1 ++ leBytes 1 c.2.1 ++ leBytes 2 c.2.2)
  | _, _ => h

def execTsiCheckDone (xmssRoot : Bytes) (s : State) : Host.Outcome State Fault Refusal := s.act fun h => h.checkDone xmssRoot

/-! ## Arm, cancel, discard (R33, R35, R36) -/

/-- TSI_ARM: accepted in CHECKED for an edge at least 3 slots ahead; a cycle edge when the WHEEL section changes. -/
def Head.tsiArm (h : Head) : Head :=
  match h.tsi.state, h.tsi.checked, h.tsi.staging with
  | 4, some raw, some i =>
    let n := (h.reg Adr.TSI_ARM_BEAT).toNat
    let isPair := pairDigest raw != pairDigest h.tsi.raw
    let beat := if n = 0 then h.firstEdge else h.fullBeat n
    let beat := if rawOf raw 9 ≠ rawOf h.tsi.raw 9 then (beat + 15) / 16 * 16 else beat
    if isPair ∧ h.pair.icl ∧ n = 0 then h
    else if !h.edgeOk beat then h.orReg Adr.TSI_STATUS 0x20
    else h.modTsi fun t => { t with
      state := 6
      armed := some { imageId := i.imageId, raw := raw, beat := beat, pairScoped := isPair, derived := false, affected := affectedSites t.raw raw } }
  | _, _, _ => h

def execTsiArm (s : State) : Host.Outcome State Fault Refusal := s.act Head.tsiArm

/-- TSI_CANCEL: until the commit point. -/
def Head.tsiCancel (h : Head) : Head := if h.tsi.state = 6 ∧ !h.tsi.pastCommit then h.modTsi fun t => { t with state := 4, armed := none } else h

def execTsiCancel (s : State) : Host.Outcome State Fault Refusal := s.act Head.tsiCancel

/-- TSI_DISCARD: staging is emptied; ignored in ARMED and APPLYING. -/
def Head.tsiDiscard (h : Head) : Head :=
  if h.tsi.state = 6 ∨ h.tsi.state = 7 then h
  else h.modTsi fun t => { t with state := 0, staging := none, loading := none, checked := none }

def execTsiDiscard (s : State) : Host.Outcome State Fault Refusal := s.act Head.tsiDiscard

/-! ## The commit point (R36, R37) -/

/-- The pair digests and target beats are exchanged when a pair-scoped section changes: this head offers its own once and settles when the
peer's are here. The first image of a start applies alone, and so does one of a head that holds both troupes with no peer. -/
def Head.commitImage (h : Head) (a : Armed) : Head :=
  if !a.pairScoped ∨ h.tsi.active.isNone then h.commitArm a
  else if h.pair.icl then
    if a.offered then h.settleArm a
    else
      let a := { a with offered := true }
      ((h.emit (.control (.imageArm (pairDigest a.raw) a.beat))).modTsi fun t => { t with armed := some a }).settleArm a
  else if h.flies .a && h.flies .b then h.commitArm a
  else h.armAbort 2

/-- IMAGE_COMMIT_POINT: 2 slots before the target edge of the armed image, else of the derived one. -/
def Head.commitPoint (h : Head) : Head :=
  let due (o : Option Armed) := o.filter fun a => !a.committed && decide (a.beat * 16 ≤ h.whl.slotCount + 2)
  match due h.tsi.armed with
  | some a => h.commitImage a
  | none =>
    match due h.tsi.derivedArm with
    | some a => if h.tsi.pastCommit then h else h.commitArm a
    | none => h

def execImageCommitPoint (s : State) : Host.Outcome State Fault Refusal := s.act Head.commitPoint

/-! ## The edge (R37, R41 to R43) -/

/-- Where the streams of a site go: the site that now holds its logical position, else the least-loaded live site of the ring. -/
def Head.homeOf (h : Head) (old new : Sections) (site : Nat) : Option Nat :=
  let pos := (((old.site.getD [])[site]?).map (·.position)).getD 0xFF
  let ring := (List.range 9).map (9 * (site / 9) + ·)
  let live := ring.filter new.live
  match live.find? fun n => (((new.site.getD [])[n]?).map (·.position)) == some pos with
  | some n => some n
  | none => (live.insertionSort fun a b => decide (h.queued a ≤ h.queued b)).head?

/-- Move what a site runs to another site. -/
def Head.moveSite (h : Head) (src dst : Nat) : Head :=
  if src = dst then h
  else
    let streams := (h.dp.booth src).streams
    let h := h.modBooth dst fun b => { b with streams := b.streams ++ streams }
    let h := h.modBooth src fun b => { b with streams := [], holder := none, stalled := false, outUsed := 0 }
    let h := h.modDp fun d => { d with
      tasks := d.tasks.map fun t => if t.site = src then { t with site := dst } else t
      pchunks := d.pchunks.map fun p => if p.site = src then { p with site := dst } else p }
    let h := h.modCmp fun c => { c with segs := c.segs.map fun x => if x.site = src then { x with site := dst } else x }
    let h := h.modStg fun g => { g with leases := g.leases.filter (·.site != src) }
    h.modHqe fun q => { q with ctxs := q.ctxs.map fun c => if c.site = src ∧ c.inFlight then { c with site := dst } else c }

/-- The contexts of an affected site are saved to the 4,096 places of the Cupboard, the others to the spill pool; open segments of its streams
close (R37 step 2, R109, R112). -/
def Head.saveStreams (h : Head) (site : Nat) : Head :=
  let h := h.forEach (h.cmp.segs.filter (·.site == site)) fun h x => h.nextSegment x.id
  let saved := (h.dp.booths.map fun b => (b.streams.filter (·.place == 2)).length).sum
  let sids := ((h.dp.booth site).streams.filter (·.place == 0)).map (·.sid)
  let h := h.countSpills (sids.length - (4096 - saved))
  h.modBooth site fun b => { b with holder := none, streams := b.streams.map fun x =>
    if x.place = 0 then { x with place := if (sids.take (4096 - saved)).contains x.sid then 2 else 1 } else x }

/-- Saved contexts come back to the slots of the sites that hold them now, 64 a booth; the others stay in the spill pool (R37 step 4). -/
def Head.restoreStreams (h : Head) : Head :=
  h.modDp fun d => { d with booths := d.booths.map fun b =>
    let room := 64 - (b.streams.filter (·.place == 0)).length
    let back := (((b.streams.filter (·.place == 2)).map (·.sid)).take room)
    { b with streams := b.streams.map fun x => if x.place = 2 then { x with place := if back.contains x.sid then 0 else 1 } else x } }

/-- The streams of affected sites go to their homes under the new image; sites that have become off or retired are powered down, and new live
ones are powered. -/
def Head.moveStreams (h : Head) (old new : Sections) (affected : List Nat) : Head :=
  let h := h.forEach affected Head.saveStreams
  let h := h.forEach affected fun h s => match h.homeOf old new s with
    | some d => h.moveSite s d
    | none => h
  h.forEach (List.range 36) fun h s =>
    let off := (((new.site.getD [])[s]?).map fun e => e.state == 0 || e.state == 3).getD true
    if new.live s then (if old.live s then h else h.wakeDomain s false)
    else h.when off fun h => h.modDomain s fun x => { x with state := 0 }

/-- A substitution has come into force: source 935 with its FAULT record, the spare counted, the fence lifted. -/
def Head.substituted (h : Head) : Head :=
  match h.tsi.substitutions with
  | [] => h
  | x :: rest =>
    let h := h.modTsi fun t => { t with substitutions := rest, fenced := if x.kind = 1 then t.fenced.filter (· != x.part) else t.fenced }
    let h := h.report 935 sevFault
      (leBytes 2 x.part ++ leBytes 2 (x.replacement.getD 0xFFFF) ++ leBytes 8 h.tsi.appliedBeat)
    let h := h.when (x.replacement.isSome && x.kind == 1) fun h => h.spareUsed 1
    if x.replacement.isSome then h.partState x.kind x.part 3 else h

/-- A launch class that no slot of a plan admits (R230). -/
def classWithoutSlot (s : Sections) : Bool :=
  (List.range 7).any fun c => !(s.wheel.getD []).any fun p => bitAt c p.classMask

/-- The configuration switches to an armed image at its edge. -/
def Head.switchTo (h : Head) (a : Armed) : Head :=
  let old := h.tsi.sections
  let new := parseSections a.raw
  let wheel := rawOf a.raw 9 != rawOf h.tsi.raw 9
  let h := h.modTsi fun t => { t with
    active := some ((if a.derived then t.active else t.staging).getD { kind := 0, imageId := a.imageId })
    raw := a.raw, sections := new, digest := rawDigest a.raw, appliedBeat := a.beat, firstArm := true }
  let h := h.moveStreams old new a.affected
  let h := h.when (wheel && classWithoutSlot new) fun h => h.raise 680
  let h := h.when wheel Head.checkArms
  let h := h.when h.stg.unsealed Head.createSalts
  h.when a.derived Head.substituted

/-- IMAGE_APPLY (R37 step 3): at the target edge. -/
def State.imageApply (s : State) : State :=
  let h := s.head
  let due (o : Option Armed) := o.filter fun a => a.committed && decide (a.beat * 16 ≤ h.whl.slotCount) &&
    !(h.tsi.appliedBeat == a.beat && h.tsi.raw == a.raw)
  match (due h.tsi.armed).orElse fun _ => due h.tsi.derivedArm with
  | none => s
  | some a =>
    let s : State := { s with head := h.switchTo a }
    let f := (s.head.tsi.sections.bank.map (·.1)).getD []
    s.newSlices ((List.range 64).filter fun b => f.getD b 4 == 0)

def execImageApply (s : State) : Host.Outcome State Fault Refusal := .next s.imageApply

/-- IMAGE_STREAMS_RESTORED (R37 steps 4 and 5): one slot after the edge affected sites take bursts again; source 933 with an INFO
record; a staged image leaves EMPTY; the next substitution is armed, built from the image now in force (R45). -/
def Head.streamsRestored (h : Head) : Head :=
  let done (o : Option Armed) := (o.map fun a => a.committed && h.tsi.appliedBeat == a.beat && h.tsi.raw == a.raw &&
    decide (a.beat * 16 + 1 ≤ h.whl.slotCount)).getD false
  let derived := !done h.tsi.armed && done h.tsi.derivedArm
  if !done h.tsi.armed ∧ !derived then h
  else
    let h := h.modTsi fun t =>
      if derived then { t with derivedArm := none, restoring := [] }
      else { t with armed := none, restoring := [], state := 0, staging := none, checked := none, derivedArm := none }
    let h := h.report 933 sevInfo (leBytes 4 ((h.tsi.active.map (·.imageId)).getD 0) ++ leBytes 8 h.tsi.appliedBeat)
    let h := h.restoreStreams.forEach (List.range 36) Head.kick
    (h.placeWaiting).armDerived

def execImageStreamsRestored (s : State) : Host.Outcome State Fault Refusal := s.act Head.streamsRestored

/-- BOOTH_MICROCODE_LOADED (R41 step 5): the site can become live; substitutions that waited for it are armed. -/
def Head.microcodeLoaded (h : Head) (site : Nat) : Head :=
  if h.sitesPresent ≤ site then h
  else
    (h.modTsi fun t => { t with
      microcode := site :: t.microcode.filter (· != site)
      substitutions := t.substitutions.map fun x => if x.kind = 1 ∧ x.replacement = some site then { x with waitMicrocode := false } else x }).armDerived

def execBoothMicrocodeLoaded (site : Nat) (s : State) : Host.Outcome State Fault Refusal := s.act fun h => h.microcodeLoaded site

end Sys2Proof.Machine
end

