-- ==== Sys2Proof/Machine/Pins.lean ====
section
/-!
DEFINITION. Commands of the links and the test port: host ports (03_host_queues_and_ordering.md R46), back-end ports (10_shelves_and_the_wheel.md
R217), modules inserted (09_rebuild_and_reshape.md R187) and the TAP (17_package_pins_electrical.md R368).
-/

namespace Sys2Proof.Machine

open Sys2Proof

/-! ## The test port -/

/-- JTAG_INSTRUCTION_LOAD (R368): a boundary-scan instruction acts as RESET_N asserted. -/
def execJtagInstructionLoad (instr : JtagInstr) (s : State) : Host.Outcome State Fault Refusal :=
  s.act fun h =>
    let h := if tapHolds (some instr) then h.holdReset else h
    { h with pins := { h.pins with tap := some instr } }

/-- TAP_TEST_LOGIC_RESET (R368): a head that such an instruction held starts again, and finds outside what its last start found
(log 41). -/
def execTapTestLogicReset (s : State) : Host.Outcome State Fault Refusal :=
  s.act fun h =>
    let held := tapHolds h.pins.tap
    let h := { h with pins := { h.pins with tap := none } }
    if held ∧ !h.heldReset then
      match h.fwu.found with
      | some i => h.start 5 i
      | none => h
    else h

/-! ## Links -/

/-- HOST_PORT_LINK_DOWN (R46): the port's connections are lost, and source 288 + p is raised. -/
def Head.hostPortDown (h : Head) (port : Nat) : Head :=
  if 8 ≤ port then h
  else
    let lost := (h.hqe.qpairs.filter (·.port == port)).map fun q => (q.cntlid, q.qid)
    let h := h.modHqe fun q => { q with portsUp := q.portsUp &&& ~~~(BitVec.ofNat 8 (2 ^ port)) }
    (h.forEach lost fun h k => h.loseConnection k.1 k.2).raise (288 + port)

def execHostPortLinkDown (port : Nat) (s : State) : Host.Outcome State Fault Refusal := s.act fun h => h.hostPortDown port

/-- A shelf of a port that has its link back: FAULT is left; with its rails on, the bridge and modules are enumerated again as from
step 2 of R226 (DEDUCED). -/
def Head.portBack (h : Head) (s : Nat) : Head :=
  let x := h.shf.shelf s
  if x.state ≠ 6 then h
  else if x.railsOff then h.setShelfState s 1
  else (h.setShelfState s 2).modShelf s fun x => { x with linked := false, failed := 0 }

/-- BACKEND_PORT_LINK_UP (R217): width and rate take effect; PORT NARROW is left when no port is narrow any more. -/
def Head.backendUp (h : Head) (port width speed : Nat) : Head :=
  if 16 ≤ port ∨ width = 0 ∨ 8 < width ∨ speed = 0 ∨ 6 < speed ∨ !h.fwu.running then h
  else
    let wasLost := (h.shf.port port).lost
    let wasNarrow := (h.shf.port port).narrow
    let h := h.modPort port fun p =>
      { p with width := width, speed := speed, lost := false, retrain := 0, narrow := p.narrow && decide (width < 8) }
    let h := if wasLost then h.forEach (h.shelvesOn.filter fun s => h.shelfPort s == port) Head.portBack else h
    if wasNarrow ∧ !(h.shf.ports.any (·.narrow)) then h.leaveReduced 1 else h

def execBackendPortLinkUp (port width speed : Nat) (s : State) : Host.Outcome State Fault Refusal :=
  s.act fun h => h.backendUp port width speed

/-! ## Modules -/

/-- MODULE_INSERTED (R187): the slot's module is ABSENT until head firmware admits it; the history of what stood there is not the new
module's. -/
def Head.moduleInserted (h : Head) (s n : Nat) : Head :=
  if 128 ≤ s ∨ 48 ≤ n then h
  else
    match h.mnd.modules.find? fun m => m.shelf == s && m.mdl == n with
    | none => h.modMnd fun m => { m with modules := m.modules ++ [{ shelf := s, mdl := n }] }
    | some m => if m.state = 4 ∨ m.state = 5 then h.modModule s n fun _ => { shelf := s, mdl := n } else h

def execModuleInserted (shelf mdl : Nat) (s : State) : Host.Outcome State Fault Refusal :=
  s.act fun h => h.moduleInserted shelf mdl

end Sys2Proof.Machine
end

