-- ==== Sys2Proof/Machine/Control.lean ====
section
/-!
DEFINITION. Accesses of the control cores to the control space (00_scope.md R7 to R9, 02_thiez_structural_image.md R39, R40,
07_digest_engine.md R149): a write takes effect as each field's access type says, and the action bits and the registers that
do something start what their own rows do.
-/

namespace Sys2Proof.Machine

open Sys2Proof

/-! ## Fields (R7, R8) -/

/-- Every block but the booth sites is armed from the first arm after reset (R40); no booth-site or ring register has an RWA field. -/
def Head.armed (h : Head) : Bool := h.tsi.firstArm

/-- The new value of a register's writable fields. -/
def RegRow.written (r : RegRow) (armed : Bool) (old v : Word) : Word :=
  let set := r.rw ||| (if armed then 0 else r.rwa)
  (old &&& ~~~set &&& ~~~(r.w1c &&& v)) ||| (v &&& set)

/-- A write to the RW, W1C and RWA fields; an armed block refuses a changed RWA field with source 928 and a NOTICE record (R8). -/
def Head.storeFields (h : Head) (r : RegRow) (a : Nat) (v : Word) : Head :=
  let key := h.keyOf a
  let old := h.reg key
  let refused := h.armed && (v &&& r.rwa) != (old &&& r.rwa)
  let h := h.setReg key (r.written h.armed old v)
  h.when refused fun h => h.report 928 sevNotice (leBytes 4 a ++ leBytes 4 v.toNat)

/-- A write to the RWS fields sets the staged value; a later write replaces it (R7, R39). -/
def Head.stageFields (h : Head) (r : RegRow) (a : Nat) (v : Word) : Head :=
  if r.rws = 0 then h
  else h.modTsi fun t => { t with staged := (t.staged.filter fun x => x.1 != a) ++ [(a, v &&& r.rws, h.now)] }

/-! ## Registers that act (the register tables of each chapter) -/

/-- What an action bit starts. -/
def Head.onBit (v : Word) (i : Nat) (f : Head → Head) (h : Head) : Head := if v.getLsbD i then f h else h

/-- The channel of the shared digest engine whose register is at an address, and the register's offset; the key and state windows
have offsets 0x100 and 0x200 here. -/
def dgtChan (a : Nat) : Option (Nat × Nat) :=
  if 0x170100 ≤ a ∧ a < 0x170500 then some ((a - 0x170100) / 0x100, (a - 0x170100) % 0x100)
  else if 0x170800 ≤ a ∧ a < 0x170A00 then some ((a - 0x170800) / 0x80, 0x100 + (a - 0x170800) % 0x80)
  else if 0x171000 ≤ a ∧ a < 0x171400 then some ((a - 0x171000) / 0x100, 0x200 + (a - 0x171000) % 0x100)
  else none

/-- A word of the state record window. -/
def Head.windowWrite (h : Head) (n k : Nat) (v : Word) : Head :=
  h.modChan n fun c =>
    let w := (c.window ++ zeros 256).take 256
    { c with window := w.take (4 * k) ++ leBytes 4 v.toNat ++ w.drop (4 * k + 4) }

/-- A write to a channel's register (R149): CTRL acts, EXPECT and LASTWORD have their own rows, the rest hold what is written. -/
def Head.chanWrite (h : Head) (core n ofs : Nat) (r : RegRow) (a : Nat) (v : Word) : Head :=
  if ofs = 0 then
    ((((((h.onBit v 0 fun h => h.chanClaim core n).onBit v 1 fun h => h.chanRelease core n).onBit v 2 fun h => h.chanBegin core n).onBit
      v 3 fun h => h.chanRestore core n).onBit v 4 fun h => h.chanGo core n).onBit v 5 fun h => h.chanSuspend core n).onBit
      v 6 fun h => h.chanSqueeze core n
  else if 0x80 ≤ ofs ∧ ofs < 0xC0 then h.chanExpect core n ((ofs - 0x80) / 4) v
  else
    match h.dgt.chans.find? (·.ch == n) with
    | none => h
    | some c =>
      if c.state ≠ 0 ∧ c.owner ≠ core then h.raise 882
      else
        let h := h.storeFields r a v
        if ofs = 0x20 then h.chanLastWord core n v
        else if 0x200 ≤ ofs then h.windowWrite n ((ofs - 0x200) / 4) v
        else h

/-- What a write to a register of the blocks up to 0x06 starts. -/
def Head.actLow (h : Head) (a : Nat) (v : Word) : Head :=
  if a = Adr.GLB_PARADE_CTRL then h.onBit v 0 Head.paradeBuild
  else if a = Adr.CEL_CAL_HI then h.calendarSet v
  else if a = Adr.PWR_CLK then h.onBit v 4 Head.clkSwitch
  else if a = Adr.PWR_DOM_CTRL then h.onBit v 0 Head.domOn
  else if a = Adr.PWR_THERM then h.onBit v 14 fun h => h.modCel fun c => { c with tripped := false }
  else if a = Adr.CAL_CTRL then h.onBit v 0 Head.calSwap
  else if a = Adr.CAL_COEF_DATA then h.coefWrite v
  else if a = Adr.BRK_RAISE then h.doorbell (bits 10 0 v.toNat)
  else if 0x400C0 ≤ a ∧ a < 0x40100 then
    let n := bits 10 0 v.toNat
    if n < 1152 then h.done n else h
  else if 0x40100 ≤ a ∧ a < 0x40190 then h.dismiss ((a - 0x40100) / 4) v
  else if a = Adr.ATC_READ_SLOT then h.readSlot (bits 13 0 v.toNat)
  else if a = Adr.ATC_SET_CTRL then h.onBit v 0 Head.commitSet
  else if a = Adr.TSI_CTRL then
    (((h.onBit v 1 Head.tsiCheck).onBit v 2 Head.tsiArm).onBit v 3 Head.tsiCancel).onBit v 4 Head.tsiDiscard
  else h

/-- What a write to a register of the blocks from 0x08 starts. -/
def Head.actHigh (h : Head) (a : Nat) (old v : Word) : Head :=
  if a = Adr.HQE_PEAK then h.onBit v 31 Head.peakClear
  else if a = Adr.LDR_CNT_SEL then h.onBit v 31 Head.ldrClear
  else if a = Adr.CMP_JOB_CTRL then (h.onBit v 1 Head.jobResume).onBit v 2 Head.jobAbandon
  else if a = Adr.CMP_STAT_SEL then h.onBit v 31 Head.cmpStatClear
  else if a = Adr.CPH_STAT_SEL then h.onBit v 31 Head.cphClear
  else if a = Adr.STG_TOKEN_CMD then (h.onBit v 0 Head.submit).onBit v 1 Head.takeOwnership
  else if a = Adr.PTY_CNT_SEL then h.onBit v 31 Head.ptyClear
  else if a = Adr.MND_MEMBER_CTRL then h.onBit v 0 fun h => h.admitModule (h.fld Adr.MND_MEMBER_SEL 6 0) (h.fld Adr.MND_MEMBER_SEL 13 8)
  else if a = Adr.MND_RSH_CTRL then
    (((h.onBit v 0 Head.reshapeStart).onBit v 1 Head.reshapePause).onBit v 2 Head.reshapeResume).onBit v 3 Head.reshapeAbort
  else if a = Adr.MND_LOSS_READ then h.lossRead v
  else if a = Adr.TRP_CTRL then (h.onBit v 0 Head.trpHandback).onBit v 2 Head.trpRejoin
  else if a = Adr.PAN_CTRL then
    if v.getLsbD 0 = old.getLsbD 0 then h else if v.getLsbD 0 then h.drainStop else h.drainStart
  else if a = Adr.PAN_STAT_SEL then h.onBit v 31 Head.panClear
  else if a = Adr.MEM_ERR_SEL then h.onBit v 31 Head.memClear
  else if a = Adr.FWU_CTRL then
    (((h.onBit v 0 Head.confirmTrial).onBit v 1 Head.raiseSvn).onBit v 2 Head.fwuCancel).onBit v 3 Head.fieldRecovery
  else if a = Adr.FWU_ATT_CTRL then h.onBit v 0 Head.attStart
  else h

/-- Selected entries that do not exist: sources from 1152 up and class 0x7 of the fault windows (R316, R322). -/
def Head.noEntry (h : Head) (a : Nat) : Bool :=
  (a == Adr.BRK_SRC_CFG && decide (1152 ≤ h.fld Adr.BRK_SRC_SEL 10 0)) || (a == Adr.BRK_FLT_CFG && h.fld Adr.BRK_FLT_SEL 3 0 == 7)

/-- A write to a register that exists: values first, then what the write starts, action bits from the lowest up (DEDUCED, log 50). -/
def Head.regWrite (h : Head) (core : Nat) (r : RegRow) (a : Nat) (v : Word) : Head :=
  if h.disabled a ∨ h.noEntry a then h
  else
    match dgtChan a with
    | some (n, ofs) => h.chanWrite core n ofs r a v
    | none =>
      let old := h.reg (h.keyOf a)
      (((h.storeFields r a v).stageFields r a v).actLow a v).actHigh a old v

/-- The address holds no register (R8): the access is discarded, source 929. -/
def Head.strayAccess (h : Head) (a : Nat) : Head := if (regRow a).isNone then h.raise 929 else h

/-- The actions that read head memory: TSI_CTRL.LOAD and CMP_JOB_CTRL.START. -/
def State.regLoads (s : State) (a : Nat) (v : Word) : State :=
  if a = Adr.TSI_CTRL ∧ v.getLsbD 0 then s.tsiLoad
  else if a = Adr.CMP_JOB_CTRL ∧ v.getLsbD 0 then s.jobStart
  else s

/-- REGISTER_WRITE (R7, R8): while the control cores run. The actions on memory come before the other action bits, whose bits stand
above theirs. -/
def execRegisterWrite (core addr : Nat) (value : Word) (s : State) : Host.Outcome State Fault Refusal :=
  if 16 ≤ core ∨ !s.head.awake then .next s
  else
    match regRow addr with
    | none => .next { s with head := s.head.raise 929 }
    | some r =>
      if addr = Adr.TSI_CTRL ∨ addr = Adr.CMP_JOB_CTRL then
        let s := State.regLoads { s with head := s.head.storeFields r addr value } addr value
        .next { s with head := (s.head.actLow addr value).actHigh addr 0 value }
      else .next { s with head := s.head.regWrite core r addr value }

/-- UNMAPPED_ACCESS (R8). -/
def execUnmappedAccess (addr : Nat) (_write : Bool) (s : State) : Host.Outcome State Fault Refusal :=
  s.act fun h => if h.awake then h.strayAccess addr else h

end Sys2Proof.Machine
end

