-- ==== Sys2Proof/Machine/Dedup.lean ====
section
/-!
DEFINITION. Commands of deduplication (04_chunking_and_dedup.md R87 to R101).
-/

namespace Sys2Proof.Machine

open Sys2Proof

/-- Run `f` on a chunk of a Write that stands at a stage. -/
def Head.atStage (h : Head) (n : Nat) (ok : Stage → Bool) (f : PChunk → Head) : Head :=
  match h.dp.pchunk? n with
  | none => h
  | some p => if ok p.stage then f p else h

/-! ## Lookup -/

/-- The fingerprint of a chunk: SHA-256 over the domain's salt and the chunk's bytes (R87). -/
def Head.fingerprint (h : Head) (p : PChunk) : Bytes :=
  let i := ((h.domain p.domain).map (·.saltIndex)).getD 0
  sha256 (((h.stg.salts.find? (·.1 == i)).map (·.2)).getD [] ++ p.data)

/-- Step 1 of R88: the pending table and the Larder. -/
def Head.lookup (h : Head) (p : PChunk) : Head :=
  let p := { p with fp := h.fingerprint p }
  let h := (h.modPchunk p.id fun _ => p).ldrCount 0 1
  match h.ldr.pending.find? fun e => e.1 == p.domain && e.2.1 == p.fp with
  | some e => (h.ldrCount 3 1).tentative p (.pendingWait e.2.2)
  | none =>
    if h.bit Adr.LDR_CTRL 0 && h.ldr.larderHit p.fp then (h.ldrCount 1 1).askIndex p
    else h.modPchunk p.id fun x => { x with stage := .farWait }

/-- FINGERPRINT_READY (R87, R88). -/
def execFingerprintReady (chunk : Nat) (s : State) : Host.Outcome State Fault Refusal :=
  s.act fun h => h.atStage chunk (· == .cut) fun p => if h.verifyMode p.domain = 0 then h else h.lookup p

/-- Step 2 of R88: the far filter and its stash. Without VALID every probe misses, and source 791 is raised once (R94). -/
def Head.farAnswer (h : Head) (p : PChunk) : Head :=
  if !h.farValid then
    (h.when (!h.ldr.noFarRaised) fun h => (h.modLdr fun l => { l with noFarRaised := true }).raise 791).decideUnique p
  else if h.farHit p.fp then (h.ldrCount 2 1).askIndex p
  else h.decideUnique p

/-- FAR_FILTER_ANSWER (R93); probes wait while DDR5 is in self-refresh in HOLD (14 R303). -/
def execFarFilterAnswer (chunk : Nat) (s : State) : Host.Outcome State Fault Refusal :=
  s.act fun h => h.atStage chunk (· == .farWait) fun p => if h.pwr.level = 3 then h else h.farAnswer p

/-! ## Index pages (R95, R97, R101) -/

/-- An index page has been read, or cannot be read. -/
def Head.pageArrived (h : Head) (t : Troupe) (page : Nat) (readable : Bool) : Head :=
  let waiting := h.dp.pchunks.filter fun p => p.troupe == t && p.stage == .pageWait page
  let h := h.modLdr fun l => { l with fetching := l.fetching.filter (· != (t, page)) }
  let h := h.ldrCount 0xB 1
  if readable then
    let h := h.modLdr fun l => { l with cached := if l.cached.contains (t, page) then l.cached else l.cached ++ [(t, page)] }
    h.forEach waiting fun h p => h.askIndex p
  else
    let h := (h.modLdr fun l => { l with unreadable := l.unreadable + 1 }).report 790 sevFault (leBytes 1 (troupeBit t) ++ leBytes 4 page)
    h.forEach waiting fun h p => h.refute p true

/-- INDEX_PAGE_ARRIVAL: of a page that a read was queued for. -/
def execIndexPageArrival (t : Troupe) (page : Nat) (readable : Bool) (s : State) : Host.Outcome State Fault Refusal :=
  s.act fun h => if h.ldr.fetching.contains (t, page) then h.pageArrived t page readable else h

/-! ## Byte comparison (R98) -/

/-- A collision: NODEDUP on the index entry, the new chunk stored without one, source 789 and the CRITICAL record. -/
def Head.collision (h : Head) (p : PChunk) (u : Nat) : Head :=
  let h := (h.ldrCount 9 1).modChunk u fun c => { c with noDedup := true }
  let h := h.refute p true
  let new := match h.dp.chunks.getLast? with | some c => if c.fp = p.fp ∧ c.uid ≠ u then c.location else 0 | none => 0
  h.report 789 sevCritical (leBytes 2 p.domain ++ p.fp ++ leBytes 8 (h.dp.locationOf (some u)) ++ leBytes 8 new)

def Head.compared (h : Head) (p : PChunk) (u : Nat) (stored : StoredCopy) : Head :=
  match stored with
  | .notPowered => (h.ldrCount 8 1).confirmDup p u
  | .failed => ((h.refute p false).startTask u .verify none).1
  | .plain bytes => if bytes = p.data then (h.ldrCount 7 1).confirmDup p u else (h.ldrCount 7 1).collision p u

/-- BYTE_COMPARE_DONE: both copies have been decoded, so the tentative copy is sealed. -/
def execByteCompareDone (chunk : Nat) (stored : StoredCopy) (s : State) : Host.Outcome State Fault Refusal :=
  s.act fun h =>
    match h.dp.pchunk? chunk with
    | none => h
    | some p =>
      match p.stage with
      | .compareWait u => if p.sealed then h.compared p u stored else h
      | _ => h

/-! ## Larder generations (R91) -/

/-- LARDER_GENERATION_TURN: at GEN_FILL_PCT of its slots the oldest generation is marked clearing and leaves the probes. -/
def Head.turnLarder (h : Head) : Head :=
  if h.ldr.clearing.isSome ∨ h.ldr.genOcc h.ldr.curGen * 100 < h.genFillPct * 12582912 then h
  else h.modLdr fun l => { l with clearing := some ((l.curGen + 1) % 4) }

def execLarderGenerationTurn (s : State) : Host.Outcome State Fault Refusal := s.act fun h => h.turnLarder

/-- LARDER_GENERATION_CLEARED: its banks are zero and it is current; source 784. -/
def Head.larderTurned (h : Head) : Head :=
  match h.ldr.clearing with
  | none => h
  | some g => (h.modLdr fun l => { l with curGen := g, clearing := none, larder := l.larder.filter fun e => e.1 / 3145728 != g }).raise 784

def execLarderGenerationCleared (s : State) : Host.Outcome State Fault Refusal := s.act fun h => h.larderTurned

end Sys2Proof.Machine
end

