-- ==== Sys2Proof/Machine/HostIo.lean ====
section
/-!
DEFINITION. I/O commands: Read, Write, Compare, Write Zeroes, Dataset Management, Flush, the staging of ranges, and the bursts of
Writes (01 R13 to R21; 03 R59, R64, R68, R80; 08 R164; 10 R236 to R238).
-/

namespace Sys2Proof.Machine

open Sys2Proof

/-! ## Reads and Compares -/

/-- READ (R15, R20, R21). -/
def execRead (ctx : Nat) (s : State) : Host.Outcome State Fault Refusal :=
  s.act fun h => h.ready ctx false opRead fun c => h.runRead c []

/-- The host data of a Compare is checked at the port as a Write's is, once nothing defers the command (R21, R59). -/
def Head.runCompare (h : Head) (c : Ctx) (host : Bytes) : Head :=
  let blocks := (splitBlocks c.cap.blockBytes (host.length + 1) host).zipIdx.map fun (b, i) => (c.cap.slba + i, b)
  let bad := blocks.findSome? fun (l, b) => portCheck c.cap l (rxBlock c.cap l b)
  let us := h.dp.chunksOf c.cap.nsid c.cap.slba (c.cap.nlb + 1)
  match bad with
  | some f => if h.darkShelves (h.dp.withHistory us) = [] then h.failAt c f else h.runRead c host
  | none => h.runRead c host

/-- COMPARE (R59): in-capsule data, or the data pulled from the host. -/
def execCompare (ctx : Nat) (host : Bytes) (s : State) : Host.Outcome State Fault Refusal :=
  s.act fun h => h.ready ctx false opCompare fun c =>
    match c.cap.inCapsule with
    | some d => h.runCompare c d
    | none => if host.length = c.cap.required then h.runCompare c host else h

/-! ## Writers -/

/-- WRITE (R13, R205). -/
def execWrite (ctx : Nat) (s : State) : Host.Outcome State Fault Refusal :=
  s.act fun h => h.ready ctx false opWrite fun c =>
    match h.hqe.ns? c.cap.nsid with
    | none => h
    | some ns => if h.noSpace ns.troupe ns.domain then h.complete c stCapacity 0 else h.dispatchWrite c

/-- A writer without data: its ranges map to the zero extent, and it waits for its beat (R18, R59, R60). -/
def Head.zeroWriter (h : Head) (c : Ctx) (ns : Namespace) (ranges : List (Nat × Nat)) : Head :=
  let h := h.describe ns.troupe c
  let h := h.forEach (ranges.filter fun r => r.2 != 0) fun h r => h.zeroRange ns.troupe ns.domain ns.nsid r.1 r.2
  let beat := (h.pair.trp ns.troupe).openBeat
  (h.modCtx c.id fun x => { x with phase := .waitAck, issued := true, lastBeat := some beat }).tryAck c.id

/-- WRITE_ZEROES (R59). -/
def execWriteZeroes (ctx : Nat) (s : State) : Host.Outcome State Fault Refusal :=
  s.act fun h => h.ready ctx false opWriteZeroes fun c =>
    match h.hqe.ns? c.cap.nsid with
    | none => h
    | some ns =>
      if h.noSpace ns.troupe ns.domain then h.complete c stCapacity 0
      else if !h.mayIssue ns.troupe then h
      else h.zeroWriter c ns [(c.cap.slba, c.cap.nlb + 1)]

/-- Dataset Management: nothing without AD; with it the ranges are deallocated, once they are known, in range and past the fence. -/
def Head.deallocate (h : Head) (c : Ctx) (ranges : List (Nat × Nat)) : Head :=
  if !c.cap.dw11.getLsbD 2 then h.complete c stSuccess 0
  else
    match h.hqe.ns? c.cap.nsid with
    | none => h
    | some ns =>
      let rs := if c.cap.inCapsule.isSome then c.ranges else ranges
      match lengthRefuses ns c.cap rs with
      | some (st, dw0) => h.complete c st dw0
      | none =>
        let h := h.modCtx c.id fun x => { x with ranges := rs }
        if h.mustWait { c with ranges := rs } then h.modCtx c.id fun x => { x with phase := .fence }
        else if h.noSpace ns.troupe ns.domain then h.complete c stCapacity 0
        else if !h.mayIssue ns.troupe then h
        else h.zeroWriter c ns rs

/-- DATASET_MANAGEMENT (R59): `ranges` are those of the data that came, when they were not in the capsule. -/
def execDatasetManagement (ctx : Nat) (ranges : List (Nat × Nat)) (s : State) : Host.Outcome State Fault Refusal :=
  s.act fun h => h.ready ctx false opDsm fun c => h.deallocate c (ranges.take (c.cap.dw10.toNat % 256 + 1))

/-! ## Flush (R80) -/

/-- Namespaces that a Flush names: one, or those of the troupes this head flies. -/
def Head.flushNames (h : Head) (nsid n : Nat) : Bool :=
  if nsid = 0xFFFFFFFF then ((h.hqe.ns? n).map fun x => h.flies x.troupe).getD false else n == nsid

/-- Arrival numbers of the older writers of a Flush, fetched or not. -/
def Head.olderWriters (h : Head) (c : Ctx) : List Nat :=
  ((h.hqe.ctxs.filter fun x => x.inFlight && !x.admin && x.cap.isWriter && h.flushNames c.cap.nsid x.cap.nsid &&
      decide (x.arrival < c.arrival)).map (·.arrival)) ++
    ((h.hqe.qpairs.filter (·.qid != 0)).flatMap fun q => (q.entries.filter fun e => e.cap.isWriter && h.flushNames c.cap.nsid e.cap.nsid &&
      decide (e.arrival < c.arrival)).map (·.arrival))

/-- A writer of an arrival number has neither completed nor ended. -/
def Head.unended (h : Head) (n : Nat) : Bool :=
  h.hqe.ctxs.any (fun c => c.inFlight && !c.admin && c.arrival == n) || h.hqe.qpairs.any fun q => q.entries.any (·.arrival == n)

/-- FLUSH (R80). -/
def execFlush (ctx : Nat) (s : State) : Host.Outcome State Fault Refusal :=
  s.act fun h => h.ready ctx false opFlush fun c =>
    match h.olderWriters c with
    | [] => h.complete c stSuccess 0
    | ws => h.modCtx c.id fun x => { x with phase := .running, waits := ws }

/-- FLUSH_COMPLETE (R80). -/
def execFlushComplete (ctx : Nat) (s : State) : Host.Outcome State Fault Refusal :=
  s.act fun h => h.withCtx ctx fun c =>
    if c.phase = .running ∧ !c.admin ∧ c.cap.opcode = opFlush ∧ !c.waits.any h.unended then h.complete c stSuccess 0 else h

/-! ## Staging of ranges (R236 to R238) -/

/-- Cold shelves that can be OPEN together besides the landing shelves and the fill shelves: those that draw least first, each woken
at its WAKE_W. -/
def Head.openable (h : Head) : Nat :=
  let adds := ((h.shelvesOn.filter fun s => !h.landing s).map fun s => (h.openW s - h.darkW s, h.wakeAdds s)).insertionSort fun a b => decide (a.1 ≤ b.1)
  let room := h.shf.rackW - h.leastDraw
  (adds.foldl (fun (n, left) (w : Nat × Nat) => if max w.1 w.2 ≤ left then (n + 1, left - w.1) else (n, 0)) (0, room)).1 - h.shelfPolicy 15 12

/-- Hold time of a STAGE-IN in seconds (R237). -/
def Head.holdTime (h : Head) (asked : Nat) : Nat :=
  min (if asked = 0 then h.fld Adr.SHF_HOLD 15 0 else asked) (h.fld Adr.SHF_HOLD 31 16)

/-- Complete a STAGE-IN: its hold entries are granted, or none when the table has no room (source 439). -/
def Head.stageDone (h : Head) (c : Ctx) : Head :=
  let t := h.holdTime (c.cap.dw13.toNat % 65536)
  let isNew (s : Nat) : Bool := !h.shf.holds.any fun x => x.shelf == s && x.cntlid == c.cntlid
  if 8192 < h.shf.holds.length + (c.shelves.filter isNew).length then (h.raise 439).complete c stSuccess 0
  else
    let h := h.forEach c.shelves fun h s => h.modShf fun f =>
      let expiry := h.now + t * 1000000
      if f.holds.any fun x => x.shelf == s && x.cntlid == c.cntlid then
        { f with holds := f.holds.map fun x => if x.shelf = s ∧ x.cntlid = c.cntlid then { x with expiry := max x.expiry expiry } else x }
      else { f with holds := f.holds ++ [{ shelf := s, cntlid := c.cntlid, expiry := expiry }] }
    h.complete c stSuccess t

/-- Shelves that hold a stored chunk of a command's range. -/
def Head.rangeShelves (h : Head) (c : Ctx) (skipStaged : Bool) : List Nat :=
  let us := h.dp.withHistory (h.dp.chunksOf c.cap.nsid c.cap.slba (c.cap.stageNlb + 1))
  (((us.filter fun u => !skipStaged || (h.dp.stagedCopy u).isNone).filterMap h.chunkShelf).dedup).filter fun s => !h.landing s

/-- Without the link, a head that is not power master raises no demand (R260). -/
def Head.cannotWake (h : Head) : Bool := !h.pair.spareMaster && !h.pair.icl

/-- Run a STAGE-IN (R236). -/
def Head.stageIn (h : Head) (c : Ctx) : Head :=
  let cold := h.rangeShelves c true
  let c := { c with shelves := cold }
  if h.openable < cold.length then h.complete c stInvalidField h.openable
  else if cold.any fun s => (h.shf.shelf s).state == 6 || (h.shf.shelf s).state == 0 then h.complete c stNotReady 0
  else
    let h := h.modCtx c.id fun x => { x with shelves := cold }
    match cold.filter fun s => (h.shf.shelf s).state != 3 with
    | [] => h.stageDone c
    | dark =>
      if h.cannotWake then h.complete c stNotReady 0
      else
      let due := h.now + orIfZero 1 (h.shelfPolicy 23 16) * 1000000
      let h := h.modCtx c.id fun x => { x with phase := .held }
      h.forEach dark fun h s => h.demand { kind := .stage, shelf := s, deadline := some due, ctxs := [c.id] }

/-- STAGE_IN (R236). -/
def execStageIn (ctx : Nat) (s : State) : Host.Outcome State Fault Refusal :=
  s.act fun h => h.ready ctx false opStageIn h.stageIn

/-- STAGE_IN_COMPLETE (R237, R260): the last shelf of the set is OPEN, or one is FAULT or can no longer be woken. -/
def execStageInComplete (ctx : Nat) (s : State) : Host.Outcome State Fault Refusal :=
  s.act fun h => h.withCtx ctx fun c =>
    if c.phase ≠ .held ∨ c.powerHeld ∨ c.admin ∨ c.cap.opcode ≠ opStageIn then h
    else if c.shelves.any fun s => (h.shf.shelf s).state == 6 then h.complete c stNotReady 0
    else if c.shelves.all fun s => (h.shf.shelf s).state == 3 then h.stageDone c
    else if h.cannotWake then h.complete c stNotReady 0
    else h

/-- STAGE_RELEASE (R238). -/
def execStageRelease (ctx : Nat) (s : State) : Host.Outcome State Fault Refusal :=
  s.act fun h => h.ready ctx false opStageRelease fun c =>
    let shelves := h.rangeShelves c false
    (h.modShf fun f => { f with holds := f.holds.filter fun x => !(x.cntlid == c.cntlid && shelves.contains x.shelf) }).complete c stSuccess 0

/-! ## Bursts (R14, R64, R164) -/

/-- WRITE_BURST_REQUEST (R14). -/
def execWriteBurstRequest (ctx : Nat) (s : State) : Host.Outcome State Fault Refusal := s.act (·.requestBurst ctx)

/-- WRITE_BURST_ARRIVAL (R164): the burst that was granted. -/
def execWriteBurstArrival (ctx : Nat) (data : Bytes) (s : State) : Host.Outcome State Fault Refusal :=
  s.act fun h => h.withCtx ctx fun c =>
    match c.grant with
    | none => h
    | some (_, len) => if c.phase = .running ∧ data.length = len then h.receive ctx data else h

/-- A connection error of TCP: the C2HTermReq, source 299, and the connection closes (R64). -/
def Head.termConnection (h : Head) (c : Ctx) (outOfRange : Bool) : Head :=
  (((h.emit (.termReq c.cntlid c.qid outOfRange)).transferError c.cntlid c.qid).emit (.closed c.cntlid c.qid)).loseConnection c.cntlid c.qid

/-- H2CDATA_PDU (R64). -/
def execH2cdataPdu (ctx offset : Nat) (data : Bytes) (digestOk inSequence : Bool) (s : State) : Host.Outcome State Fault Refusal :=
  s.act fun h => h.withCtx ctx fun c =>
    if c.phase ≠ .running ∨ ((h.hqe.qpair? c.cntlid c.qid).map (·.transport)) ≠ some .tcp then h
    else if !inSequence then h.termConnection c false
    else if c.grant ≠ some (offset, data.length) then h.termConnection c true
    else if !digestOk then ((h.transferError c.cntlid c.qid).complete c stTransport 0).dropWrite c.id
    else h.receive ctx data

end Sys2Proof.Machine
end

