-- ==== Sys2Proof/Machine/HostAdmin.lean ====
section
/-!
DEFINITION. Admin commands of the hosts (03_host_queues_and_ordering.md R48, R55 to R58, R67 to R80; 06 R143, R144; 15 R332 to R334;
16 R354 to R357).
-/

namespace Sys2Proof.Machine

open Sys2Proof

/-! ## Authentication, log pages, Identify -/

/-- AUTHENTICATION_SEND (R48): a message of the exchange; the control cores compute it. -/
def execAuthenticationSend (ctx : Nat) (msg : Bytes) (s : State) : Host.Outcome State Fault Refusal :=
  s.act fun h => h.fabrics ctx 5 fun c => (h.modCtrl c.cntlid fun k => { k with auth := k.auth ++ [msg] }).complete c stSuccess 0

/-- AUTHENTICATION_RECEIVE (R48). -/
def execAuthenticationReceive (ctx : Nat) (s : State) : Host.Outcome State Fault Refusal :=
  s.act fun h => h.fabrics ctx 6 fun c =>
    let msgs := ((h.hqe.ctrl? c.cntlid).map (·.auth)).getD []
    (h.emit (.adminData ctx (Config.authReply msgs))).complete c stSuccess 0

/-- Log 0xC0 (R334): a new summary at offset 0; at another offset the one of this controller, for 1 s. -/
def Head.summaryRead (h : Head) (k : Ctrl) (off n : Nat) : Head × Bytes :=
  let kept := match k.summary with
    | some (t, bs) => if 0 < off ∧ h.now ≤ t + 1000000 then some bs else none
    | none => none
  match kept with
  | some bs => (h, fit n (bs.drop off))
  | none =>
    let (h, bs) := h.buildSummary
    (h.modCtrl k.cntlid fun k => { k with summary := if off = 0 then some (h.now, bs) else k.summary }, fit n (bs.drop off))

/-- GET_LOG_PAGE (R55, R57, R70): offsets are multiples of 4; RAE clear ends the retention of the page's events (R75). -/
def Head.getLog (h : Head) (c : Ctx) : Head :=
  match h.hqe.ctrl? c.cntlid with
  | none => h
  | some k =>
    let lid := c.cap.dw10.toNat % 256
    let n := (c.cap.dw10.toNat / 2 ^ 16 + c.cap.dw11.toNat % 2 ^ 16 * 2 ^ 16 + 1) * 4
    let off := c.cap.dw12.toNat + c.cap.dw13.toNat * 2 ^ 32
    if off % 4 ≠ 0 then h.complete c stInvalidField 0
    else
      let r := if lid = 0xC0 then some (h.summaryRead k off n) else (h.logPage k lid off n).map fun bs => (h, bs)
      match r with
      | none => h.complete c stInvalidLog 0
      | some (h, bs) =>
        let h := h.when (!c.cap.dw10.getLsbD 15) fun h =>
          h.modCtrl k.cntlid fun k => { k with retained := k.retained.filter (·.page != lid) }
        (h.emit (.adminData c.id bs)).complete c stSuccess 0

def execGetLogPage (ctx : Nat) (s : State) : Host.Outcome State Fault Refusal :=
  s.act fun h => h.ready ctx true 0x02 fun c => h.getLog c

/-- Put fields into the bytes that the spec does not state (log 7). -/
def withFields (base : Bytes) (l : List (Nat × Bytes)) : Bytes := l.foldl (fun b x => patch x.1 x.2 b) (fit 4096 base)

/-- Identify Controller: the values of R58, at the places that NVMe gives these fields (PRESUMED, log 24). -/
def identifyController (k : Ctrl) : Bytes :=
  withFields (Config.identifyRest 1)
    [(77, leBytes 1 0x0B), (78, leBytes 2 k.cntlid), (80, leBytes 4 0x00020000), (259, leBytes 1 7), (260, leBytes 1 0x04),
     (263, leBytes 1 0), (316, leBytes 2 20), (319, leBytes 1 0x10), (320, leBytes 2 1), (328, leBytes 4 1), (342, leBytes 1 10),
     (343, leBytes 1 0x55), (344, leBytes 4 2), (348, leBytes 4 2), (516, leBytes 4 4096), (520, leBytes 2 0x000D), (525, leBytes 1 0),
     (1792, leBytes 4 518), (1796, leBytes 4 1), (1803, leBytes 1 16)]

/-- Identify Namespace: size, capacity, the one extended LBA format with Type 1 protection (R61), DLFEAT 001b (R60) and the ANA
group of a namespace, group 1 being troupe A; at the places that NVMe gives these fields (PRESUMED, log 24). -/
def identifyNamespace (n : Namespace) : Bytes :=
  withFields (Config.identifyRest 0)
    [(0, leBytes 8 n.size), (8, leBytes 8 n.size), (25, leBytes 1 0), (26, leBytes 1 0x10), (29, leBytes 1 1), (33, leBytes 1 1),
     (92, leBytes 4 (troupeBit n.troupe + 1)), (128, leBytes 4 0x000C0010)]

/-- IDENTIFY (R55, R58). -/
def Head.identify (h : Head) (c : Ctx) : Head :=
  match h.hqe.ctrl? c.cntlid with
  | none => h
  | some k =>
    let ids := ((h.hqe.namespaces.map (·.nsid)).filter fun n => decide (c.cap.nsid < n)).insertionSort fun a b => decide (a ≤ b)
    let data := match c.cap.dw10.toNat % 256 with
      | 0 => (h.hqe.ns? c.cap.nsid).map identifyNamespace
      | 1 => some (identifyController k)
      | 2 => some (fit 4096 ((ids.take 1024).flatMap (leBytes 4)))
      | 3 => (h.hqe.ns? c.cap.nsid).map fun _ => fit 4096 (Config.identifyRest 3)
      | _ => none
    match data with
    | some bs => (h.emit (.adminData c.id bs)).complete c stSuccess 0
    | none => h.complete c (if c.cap.dw10.toNat % 256 < 4 then stInvalidNs else stInvalidField) 0

def execIdentify (ctx : Nat) (s : State) : Host.Outcome State Fault Refusal :=
  s.act fun h => h.ready ctx true 0x06 fun c => h.identify c

/-- ABORT (R55): never aborts. -/
def execAbort (ctx : Nat) (s : State) : Host.Outcome State Fault Refusal :=
  s.act fun h => h.ready ctx true 0x08 fun c => h.complete c stSuccess 1

/-! ## Features (R56) -/

/-- Dword 0 of Number of Queues: queues granted, less 1, of each kind. -/
def queuesDw0 (n : Nat) : Nat := (n - 1) + (n - 1) * 2 ^ 16

def Head.setFeature (h : Head) (c : Ctx) : Head :=
  let v := c.cap.dw11
  let bad := h.complete c stInvalidField 0
  match c.cap.dw10.toNat % 256 with
  | 0x02 => if v.toNat % 32 ≠ 0 then bad else h.complete c stSuccess 0
  | 0x07 =>
    if v.toNat % 2 ^ 16 = 0xFFFF ∨ v.toNat / 2 ^ 16 = 0xFFFF then bad
    else
      let n := min (max (v.toNat % 2 ^ 16) (v.toNat / 2 ^ 16) + 1) h.maxIoq
      (h.modCtrl c.cntlid fun k => { k with queues := n }).complete c stSuccess (queuesDw0 n)
  | 0x0B => (h.modCtrl c.cntlid fun k => { k with feat0B := v }).complete c stSuccess 0
  | 0x0F =>
    if v.toNat = 0 ∨ 3600000 < v.toNat then bad
    else (h.modCtrl c.cntlid fun k => { k with kato := v.toNat }).complete c stSuccess 0
  | 0xC0 =>
    match h.hqe.ns? c.cap.nsid with
    | none => h.complete c stInvalidNs 0
    | some _ =>
      (h.modHqe fun q => { q with
        namespaces := q.namespaces.map fun n => if n.nsid = c.cap.nsid then { n with strict := v.getLsbD 0 } else n }).complete c stSuccess 0
  | 0xC1 => if 8 ≤ v.toNat then bad else (h.modCtrl c.cntlid fun k => { k with featC1 := v }).complete c stSuccess 0
  | _ => bad

/-- SET_FEATURES (R56). -/
def execSetFeatures (ctx : Nat) (s : State) : Host.Outcome State Fault Refusal :=
  s.act fun h => h.ready ctx true 0x09 fun c => h.setFeature c

/-- The current value of a feature. -/
def Head.featureNow (h : Head) (k : Ctrl) (nsid fid : Nat) : Option Nat :=
  match fid with
  | 0x02 => some 0
  | 0x07 => some (queuesDw0 (h.ioqs k))
  | 0x0B => some k.feat0B.toNat
  | 0x0F => some k.kato
  | 0xC0 => (h.hqe.ns? nsid).map fun n => flag n.strict
  | 0xC1 => some k.featC1.toNat
  | _ => none

/-- The default value of a feature; that of the Keep Alive Timer is not stated, so free (log 7). -/
def Head.featureDefault (h : Head) (fid : Nat) : Nat :=
  match fid with
  | 0x07 => queuesDw0 h.maxIoq
  | 0x0B => 0x0B00
  | 0x0F => h.freeNat % 2 ^ 32
  | 0xC1 => 7
  | _ => 0

/-- Get Features: SEL 0 current, 1 default, 3 capabilities (changeable; 0xC0 by namespace); SEL 2 is refused. -/
def Head.getFeature (h : Head) (c : Ctx) : Head :=
  let fid := c.cap.dw10.toNat % 256
  match h.hqe.ctrl? c.cntlid with
  | none => h
  | some k =>
    let known := fid == 0x02 || fid == 0x07 || fid == 0x0B || fid == 0x0F || fid == 0xC0 || fid == 0xC1
    if !known then h.complete c stInvalidField 0
    else
      match c.cap.dw10.toNat / 256 % 8, h.featureNow k c.cap.nsid fid with
      | 0, some v => h.complete c stSuccess v
      | 0, none => h.complete c stInvalidNs 0
      | 1, _ => (h.complete c stSuccess (h.featureDefault fid)).spend
      | 3, _ => h.complete c stSuccess (if fid = 0xC0 then 6 else 4)
      | _, _ => h.complete c stInvalidField 0

/-- GET_FEATURES (R56). -/
def execGetFeatures (ctx : Nat) (s : State) : Host.Outcome State Fault Refusal :=
  s.act fun h => h.ready ctx true 0x0A fun c => h.getFeature c

/-! ## Events and keep-alive -/

/-- ASYNCHRONOUS_EVENT_REQUEST (R55, R75): 8 may be outstanding; an event that waits is posted at once. A ninth completes with the NVMe
status Asynchronous Event Request Limit Exceeded (PRESUMED). -/
def Head.eventRequest (h : Head) (c : Ctx) : Head :=
  match h.hqe.ctrl? c.cntlid with
  | none => h
  | some k =>
    if 8 ≤ k.aers.length then h.complete c ⟨1, 0x05, false⟩ 0
    else
      let h := (h.modCtx c.id fun x => { x with phase := .running }).modCtrl k.cntlid fun k => { k with aers := k.aers ++ [(c.cap.cid, c.id)] }
      match k.events with
      | [] => h
      | e :: rest => (h.modCtrl k.cntlid fun k => { k with events := rest }).postOn k.cntlid c.id e

def execAsynchronousEventRequest (ctx : Nat) (s : State) : Host.Outcome State Fault Refusal :=
  s.act fun h => h.ready ctx true 0x0C fun c => h.eventRequest c

/-- KEEP_ALIVE (R53): the timer restarts. -/
def execKeepAlive (ctx : Nat) (s : State) : Host.Outcome State Fault Refusal :=
  s.act fun h => h.ready ctx true 0x18 fun c => (h.modCtrl c.cntlid fun k => { k with kaStart := h.now }).complete c stSuccess 0

/-! ## Self-tests (R76, R77) -/

/-- The running test ends with a result of log 0x06: 0 passed, 1 aborted by command, 7 failed (NVMe's codes, PRESUMED). -/
def Head.testOver (h : Head) (t : SelfTest) (result : Nat) : Head :=
  h.modHqe fun q => { q with selfTest := none, testLog := ((t.kind, result) :: q.testLog).take 20 }

/-- DEVICE_SELF_TEST. -/
def Head.selfTest (h : Head) (c : Ctx) : Head :=
  match c.cap.dw10.toNat % 16, h.hqe.selfTest with
  | 0xF, some t => (h.testOver t 1).complete c stSuccess 0
  | 0xF, none => h.complete c stSuccess 0
  | k, running =>
    if k ≠ 1 ∧ k ≠ 2 then h.complete c stInvalidField 0
    else if running.isSome then h.complete c stSelfTest 0
    else (h.modHqe fun q => { q with selfTest := some { kind := k, since := some h.now } }).complete c stSuccess 0

def execDeviceSelfTest (ctx : Nat) (s : State) : Host.Outcome State Fault Refusal :=
  s.act fun h => h.ready ctx true 0x14 fun c => h.selfTest c

/-- A host I/O command is held in a submission queue buffer or in flight. -/
def Head.hostIo (h : Head) : Bool :=
  (h.hqe.qpairs.any fun q => q.qid != 0 && !q.entries.isEmpty) || (h.hqe.ctxs ++ h.hqe.holdCtxs).any fun c => !c.admin && c.inFlight

/-- SELF_TEST_SUSPEND: at a 1 ms boundary of the running time, while host I/O is there. -/
def Head.testSuspend (h : Head) : Head :=
  match h.hqe.selfTest with
  | some { kind := k, ran := r, since := some t } =>
    if h.hostIo ∧ (r + (h.now - t)) % 1000 = 0 then
      h.modHqe fun q => { q with selfTest := some { kind := k, ran := r + (h.now - t), since := none } }
    else h
  | _ => h

def execSelfTestSuspend (s : State) : Host.Outcome State Fault Refusal := s.act fun h => h.testSuspend

/-- SELF_TEST_RESUME: after 10 ms without host I/O. -/
def Head.testResume (h : Head) : Head :=
  match h.hqe.selfTest with
  | some { kind := k, ran := r, since := none } =>
    if !h.hostIo ∧ h.hqe.lastIo + 10000 ≤ h.now then h.modHqe fun q => { q with selfTest := some { kind := k, ran := r, since := some h.now } }
    else h
  | _ => h

def execSelfTestResume (s : State) : Host.Outcome State Fault Refusal := s.act fun h => h.testResume

/-- SELF_TEST_FINISH: source 300. -/
def execSelfTestFinish (passed : Bool) (s : State) : Host.Outcome State Fault Refusal :=
  s.act fun h =>
    match h.hqe.selfTest with
    | some t => if t.since.isSome then (h.testOver t (if passed then 0 else 7)).raise 300 else h
    | none => h

/-! ## Sanitize (R143, R144) -/

/-- SANITIZE: a crypto erase, while SANITIZE ARM is in force. -/
def Head.sanitize (h : Head) (c : Ctx) : Head :=
  let armed := (h.stg.armedUntil.map fun t => decide (h.now < t)).getD false
  if c.cap.dw10.toNat % 8 ≠ 4 then h.complete c stInvalidField 0
  else if !armed then h.complete c stDenied 0
  else if h.stg.erasing then h.complete c stSanitizing 0
  else (h.complete c stSuccess 0).eraseStart true

def execSanitize (ctx : Nat) (s : State) : Host.Outcome State Fault Refusal :=
  s.act fun h => h.ready ctx true 0x84 fun c => h.sanitize c

/-- SANITIZE_COMPLETE: the steps left of a crypto erase on this head. -/
def execSanitizeComplete (s : State) : Host.Outcome State Fault Refusal :=
  s.act fun h => if h.stg.erasing ∨ h.stg.sanPhase ≠ 0 then h.eraseFinish else h

/-! ## Firmware (R354 to R357) -/

/-- The slot that is not ACTIVE. -/
def Bctl.other (b : Bctl) : Nat := if b.active = 1 then 2 else 1

/-- A slot no longer holds what a schedule or a selection named: they are cancelled with source 943. -/
def Head.withdrawSlot (h : Head) (slot : Nat) : Head :=
  let named := (h.fwu.schedule.map (·.1)) == some slot || h.fwu.bctl.trial == slot
  h.when named fun h =>
    ((h.modFwu fun f => { f with schedule := if (f.schedule.map (·.1)) = some slot then none else f.schedule }).putBctl fun b =>
      { b with trial := if b.trial = slot then 0 else b.trial, attempts := if b.trial = slot then 0 else b.attempts }).raise 943

/-- Open a download (R355). -/
def Head.openDownload (h : Head) (cntlid : Nat) : Head :=
  let slot := h.fwu.bctl.other
  let h := h.putBctl fun b => (b.setValid slot false).setDigest slot (zeros 32)
  (h.withdrawSlot slot).modFwu fun f => { f with dlOpen := true, dlSlot := slot, dlCtrl := cntlid, dlBlocks := [], dlExpected := 0 }

/-- Program one block of the slot; block 0 gives LENGTH. -/
def Head.putBlock (h : Head) (i : Nat) (bs : Bytes) : Head :=
  h.modFwu fun f => { f with
    flash := (f.dlSlot, i, bs) :: f.flash.filter fun (x : Nat × Nat × Bytes) => !(x.1 == f.dlSlot && x.2.1 == i)
    dlBlocks := if f.dlBlocks.contains i then f.dlBlocks else f.dlBlocks ++ [i]
    dlExpected := if i = 0 then min 2048 ((leAt 0x14 4 bs + 65535) / 65536) else f.dlExpected }

/-- FIRMWARE_IMAGE_DOWNLOAD (R355). -/
def Head.download (h : Head) (c : Ctx) (data : Bytes) : Head :=
  let n := (c.cap.dw10.toNat + 1) * 4
  let o := c.cap.dw11.toNat * 4
  let i := o / 65536
  let short := decide (n < 65536) && h.fwu.dlOpen && h.fwu.dlExpected != 0 && h.fwu.dlExpected != i + 1 && i != 0
  if o % 65536 ≠ 0 ∨ 65536 < n ∨ 2 ^ 27 < o + n ∨ short then h.complete c stInvalidField 0
  else if c.cap.sgl.sum < n then h.complete c stSglLength 0
  else if h.fwu.trial then h.complete c stSequence 0
  else
    match (if h.fwu.dlOpen then none else h.updateRefused) with
    | some r => (h.noteRefusal r).complete c stUpdateRefused r
    | none =>
      let h := if h.fwu.dlOpen then h else h.openDownload c.cntlid
      (h.putBlock i (fit n data)).complete c stSuccess 0

def execFirmwareImageDownload (ctx : Nat) (data : Bytes) (s : State) : Host.Outcome State Fault Refusal :=
  s.act fun h => h.ready ctx true 0x11 fun c => h.download c data

/-- Every block up to LENGTH is present in a slot: of the open download, else of what the slot holds. -/
def Head.slotComplete (h : Head) (slot : Nat) : Bool :=
  if h.fwu.dlOpen ∧ slot = h.fwu.dlSlot then h.fwu.dlExpected != 0 && (List.range h.fwu.dlExpected).all h.fwu.dlBlocks.contains
  else
    let bs := h.imageBytes slot
    bs != [] && leAt 0x14 4 bs == bs.length

/-- TRIAL is set; the next start of any cause takes it. -/
def Head.selectTrial (h : Head) (slot : Nat) : Head := h.putBctl fun b => { b with trial := slot, attempts := 0 }

/-- CA 000 and 001: the slot is checked and verified with SERVICE binding (R356, R346). -/
def Head.commitSlot (h : Head) (c : Ctx) (slot ca : Nat) (v : ImageVerdict) : Head :=
  let bs := h.imageBytes slot
  let whole := h.slotComplete slot
  let h := h.modFwu fun f => { f with dlOpen := false }
  if !whole then h.complete c stFirmwareImage 0
  else
    let (code, _) := h.verifyBoot bs v.root 0
    let h := h.modFwu fun f => { f with verifyCode := code }
    if code ≠ 0 then
      (h.unlisted sevNotice (leBytes 1 slot ++ leBytes 1 code)).complete c stUpdateRefused (if code = 4 then 5 else 7)
    else
      let h := (h.putBctl fun b => (b.setValid slot true).setDigest slot (sha3_256 bs)).raise 940
      (h.when (ca == 1) fun h => h.selectTrial slot).complete c stSuccess 0

/-- FIRMWARE_COMMIT (R356). CA 010 on a slot that is not VALID completes with Invalid Firmware Image (DESIGN CHOICE, log 24). -/
def Head.firmwareCommit (h : Head) (c : Ctx) (v : ImageVerdict) : Head :=
  let fs := c.cap.dw10.toNat % 8
  let ca := c.cap.dw10.toNat / 8 % 8
  let b := h.fwu.bctl
  let slot := if fs = 0 then b.other else fs
  if 3 ≤ ca then h.complete c stInvalidField 0
  else
    match h.updateRefused with
    | some r => (h.noteRefusal r).complete c stUpdateRefused r
    | none =>
      if 2 < slot then h.complete c stFirmwareSlot 0
      else if ca = 2 then
        if slot = b.active then h.complete c stSuccess 0
        else if b.isValid slot then (h.selectTrial slot).complete c stSuccess 0
        else h.complete c stFirmwareImage 0
      else if slot = b.active then h.complete c stFirmwareSlot 0
      else h.commitSlot c slot ca v

def execFirmwareCommit (ctx : Nat) (v : ImageVerdict) (s : State) : Host.Outcome State Fault Refusal :=
  s.act fun h => h.ready ctx true 0x10 fun c => h.firmwareCommit c v

/-- The cycle count of the first cycle edge at or after a PTP time in ns (R233, R357). -/
def Head.edgeAt (h : Head) (p : Nat) : Nat :=
  let start := h.whl.ptpBase + 1000 * (h.whl.slotAt - 16 * h.whl.slot)
  h.whl.cycle + (p - start + 4095999) / 4096000

/-- SCHEDULE_ACTIVATION (R357). -/
def Head.schedule (h : Head) (c : Ctx) (peerConfirms : Bool) : Head :=
  let slot := c.cap.dw10.toNat % 4
  let p := (c.cap.dw11.toNat + c.cap.dw12.toNat * 2 ^ 32) * 1000000000 + c.cap.dw13.toNat
  let b := h.fwu.bctl
  if slot = 0 ∨ slot = 3 ∨ slot = b.active ∨ !b.isValid slot then h.complete c stInvalidField 0
  else if h.whl.lock = 0 ∨ p < h.ptpNs + 10000000000 ∨ h.fwu.schedule.isSome then h.complete c stSequence 0
  else
    match h.updateRefused with
    | some r => (h.noteRefusal r).complete c stUpdateRefused r
    | none =>
      if !h.peerAllows peerConfirms then h.complete c stUpdateRefused 6
      else
        let e := h.edgeAt p
        ((h.modFwu fun f => { f with schedule := some (slot, e) }).raise 942).complete c stSuccess (e % 2 ^ 32)

def execScheduleActivation (ctx : Nat) (peerConfirms : Bool) (s : State) : Host.Outcome State Fault Refusal :=
  s.act fun h => h.ready ctx true 0xC6 fun c => h.schedule c peerConfirms

/-! ## Vendor commands (R68, R69) -/

/-- PARADE (R334). -/
def Head.paradeCmd (h : Head) (c : Ctx) : Head :=
  let (h, bs) := h.buildSummary
  (h.emit (.adminData c.id bs)).complete c stSuccess h.paradeSeq

def execParade (ctx : Nat) (s : State) : Host.Outcome State Fault Refusal :=
  s.act fun h => h.ready ctx true 0xC0 fun c => h.paradeCmd c

/-- Complete the entries of a queue's buffer with Queue frozen, in queue order. -/
def Head.discardEntries (h : Head) (q : QPair) (f : Freeze) : Head :=
  let h := h.forEach q.entries fun h e =>
    let h := h.unqueue q e false
    let sqhd := ((h.hqe.qpair? q.cntlid q.qid).map (·.sqhd)).getD 0
    let h := h.emit (.completion q.cntlid q.qid e.cap.cid stFrozen f.seq false sqhd)
    if e.cap.inCapsule.isSome then h.freeSlots q.cntlid q.qid 1 else h
  h

/-- The entries left in a thawed queue re-enter the fence with new arrival numbers, in queue order (R66). -/
def Head.renumber (h : Head) (c s : Nat) : Head :=
  match h.hqe.qpair? c s with
  | none => h
  | some q =>
    let n := h.hqe.nextArrival
    let h := h.modQpair c s fun q => { q with entries := q.entries.zipIdx.map fun (e, i) => { e with arrival := n + i } }
    h.modHqe fun t => { t with nextArrival := n + q.entries.length }

/-- THAW_QUEUE (R66, R69). -/
def Head.thaw (h : Head) (c : Ctx) : Head :=
  let sq := c.cap.dw10.toNat % 2 ^ 16
  match h.hqe.qpair? c.cntlid sq with
  | none => h.complete c stInvalidField 0
  | some q =>
    match q.frozen with
    | none => h.complete c stInvalidField 0
    | some f =>
      if f.seq % 2 ^ 32 ≠ c.cap.dw11.toNat then h.complete c stInvalidField (f.seq % 2 ^ 32)
      else
        let n := if c.cap.dw12.getLsbD 0 then q.entries.length else 0
        let h := if c.cap.dw12.getLsbD 0 then h.discardEntries q f else h
        let h := (h.modQpair q.cntlid q.qid fun q => { q with frozen := none }).modCtrl c.cntlid fun k => { k with freezeGen := k.freezeGen + 1 }
        (h.renumber q.cntlid q.qid).complete c stSuccess n

def execThawQueue (ctx : Nat) (s : State) : Host.Outcome State Fault Refusal :=
  s.act fun h => h.ready ctx true 0xC1 fun c => h.thaw c

/-- ATTIC_CLEAR (R332): an owner token with OP 0x07; a token of another operation is malformed here, result 0x01 (DESIGN CHOICE, log 24). -/
def Head.atticClear (h : Head) (c : Ctx) (token : Bytes) : Head :=
  if c.cap.sgl.sum < 64 then h.complete c stSglLength 0
  else
    let tok := fit 64 token
    let (h, r) := if tokenOp tok = 7 then h.giveToken tok
      else ((h.report 868 sevNotice (leBytes 2 (tokenOp tok) ++ leBytes 1 1)).raise 998, 1)
    if r = 0 then h.complete c stSuccess (h.atc.clearSeq % 2 ^ 32) else h.complete c stDenied r

def execAtticClear (ctx : Nat) (token : Bytes) (s : State) : Host.Outcome State Fault Refusal :=
  s.act fun h => h.ready ctx true 0xC3 fun c => h.atticClear c token

/-- BATON_HANDBACK (R262). -/
def Head.batonHandback (h : Head) (c : Ctx) : Head :=
  let t : Troupe := if c.cap.dw10.getLsbD 0 then .b else .a
  match h.handback t c.cap.dw11.toNat false (some c.id) with
  | (h, 1) => h.modCtx c.id fun x => { x with phase := .running }
  | (h, 2) => h.complete c stSequence 0
  | (h, _) => h.complete c stInvalidField 0

def execBatonHandback (ctx : Nat) (s : State) : Host.Outcome State Fault Refusal :=
  s.act fun h => h.ready ctx true 0xC5 fun c => h.batonHandback c

/-- ENTER_POWER_STATE (R78, R286). -/
def execEnterPowerState (ctx : Nat) (s : State) : Host.Outcome State Fault Refusal :=
  s.act fun h => h.ready ctx true 0xC7 fun c => h.enterState c

/-- POWER_ENTRY_REVERSAL (R79, R291). -/
def execPowerEntryReversal (ctx : Nat) (s : State) : Host.Outcome State Fault Refusal := s.act fun h => h.reverse ctx

end Sys2Proof.Machine
end

