-- ==== Sys2Proof/Machine/Dispatch.lean ====
section
/-!
DEFINITION. The meaning of every command: one arm for each constructor of Instr.
-/

namespace Sys2Proof.Machine

open Sys2Proof

/-- The effect of a command on everything but the queue. -/
def exec (i : Instr) (s : State) : Host.Outcome State Fault Refusal :=
  match i with
  | .registerWrite core addr value => Sys2Proof.Machine.execRegisterWrite core addr value s
  | .unmappedAccess addr write => Sys2Proof.Machine.execUnmappedAccess addr write s
  | .capsuleAccept cntlid qid c => Sys2Proof.Machine.execCapsuleAccept cntlid qid c s
  | .inCapsuleSlotFreed port => Sys2Proof.Machine.execInCapsuleSlotFreed port s
  | .commandFetch => Sys2Proof.Machine.execCommandFetch s
  | .commandContextFreed ctx => Sys2Proof.Machine.execCommandContextFreed ctx s
  | .fenceRelease ctx => Sys2Proof.Machine.execFenceRelease ctx s
  | .read ctx => Sys2Proof.Machine.execRead ctx s
  | .write ctx => Sys2Proof.Machine.execWrite ctx s
  | .compare ctx host => Sys2Proof.Machine.execCompare ctx host s
  | .writeZeroes ctx => Sys2Proof.Machine.execWriteZeroes ctx s
  | .datasetManagement ctx ranges => Sys2Proof.Machine.execDatasetManagement ctx ranges s
  | .flush ctx => Sys2Proof.Machine.execFlush ctx s
  | .flushComplete ctx => Sys2Proof.Machine.execFlushComplete ctx s
  | .stageIn ctx => Sys2Proof.Machine.execStageIn ctx s
  | .stageInComplete ctx => Sys2Proof.Machine.execStageInComplete ctx s
  | .stageRelease ctx => Sys2Proof.Machine.execStageRelease ctx s
  | .writeBurstRequest ctx => Sys2Proof.Machine.execWriteBurstRequest ctx s
  | .writeBurstArrival ctx data => Sys2Proof.Machine.execWriteBurstArrival ctx data s
  | .h2cdataPdu ctx offset data digestOk inSequence => Sys2Proof.Machine.execH2cdataPdu ctx offset data digestOk inSequence s
  | .rdmaTransferError cntlid qid => Sys2Proof.Machine.execRdmaTransferError cntlid qid s
  | .transportLoss cntlid qid => Sys2Proof.Machine.execTransportLoss cntlid qid s
  | .keepAliveExpiry cntlid => Sys2Proof.Machine.execKeepAliveExpiry cntlid s
  | .connect c => Sys2Proof.Machine.execConnect c s
  | .disconnect cntlid qid cid => Sys2Proof.Machine.execDisconnect cntlid qid cid s
  | .propertySet ctx => Sys2Proof.Machine.execPropertySet ctx s
  | .propertyGet ctx => Sys2Proof.Machine.execPropertyGet ctx s
  | .controllerResetDone cntlid => Sys2Proof.Machine.execControllerResetDone cntlid s
  | .authenticationSend ctx msg => Sys2Proof.Machine.execAuthenticationSend ctx msg s
  | .authenticationReceive ctx => Sys2Proof.Machine.execAuthenticationReceive ctx s
  | .getLogPage ctx => Sys2Proof.Machine.execGetLogPage ctx s
  | .identify ctx => Sys2Proof.Machine.execIdentify ctx s
  | .abort ctx => Sys2Proof.Machine.execAbort ctx s
  | .setFeatures ctx => Sys2Proof.Machine.execSetFeatures ctx s
  | .getFeatures ctx => Sys2Proof.Machine.execGetFeatures ctx s
  | .asynchronousEventRequest ctx => Sys2Proof.Machine.execAsynchronousEventRequest ctx s
  | .keepAlive ctx => Sys2Proof.Machine.execKeepAlive ctx s
  | .deviceSelfTest ctx => Sys2Proof.Machine.execDeviceSelfTest ctx s
  | .selfTestSuspend => Sys2Proof.Machine.execSelfTestSuspend s
  | .selfTestResume => Sys2Proof.Machine.execSelfTestResume s
  | .selfTestFinish passed => Sys2Proof.Machine.execSelfTestFinish passed s
  | .sanitize ctx => Sys2Proof.Machine.execSanitize ctx s
  | .sanitizeComplete => Sys2Proof.Machine.execSanitizeComplete s
  | .firmwareImageDownload ctx data => Sys2Proof.Machine.execFirmwareImageDownload ctx data s
  | .firmwareCommit ctx v => Sys2Proof.Machine.execFirmwareCommit ctx v s
  | .parade ctx => Sys2Proof.Machine.execParade ctx s
  | .thawQueue ctx => Sys2Proof.Machine.execThawQueue ctx s
  | .atticClear ctx token => Sys2Proof.Machine.execAtticClear ctx token s
  | .batonHandback ctx => Sys2Proof.Machine.execBatonHandback ctx s
  | .scheduleActivation ctx peerConfirms => Sys2Proof.Machine.execScheduleActivation ctx peerConfirms s
  | .enterPowerState ctx => Sys2Proof.Machine.execEnterPowerState ctx s
  | .powerEntryReversal ctx => Sys2Proof.Machine.execPowerEntryReversal ctx s
  | .fingerprintReady chunk => Sys2Proof.Machine.execFingerprintReady chunk s
  | .farFilterAnswer chunk => Sys2Proof.Machine.execFarFilterAnswer chunk s
  | .indexPageArrival t page readable => Sys2Proof.Machine.execIndexPageArrival t page readable s
  | .byteCompareDone chunk stored => Sys2Proof.Machine.execByteCompareDone chunk stored s
  | .larderGenerationTurn => Sys2Proof.Machine.execLarderGenerationTurn s
  | .larderGenerationCleared => Sys2Proof.Machine.execLarderGenerationCleared s
  | .zEngineBoundary site cellarOk => Sys2Proof.Machine.execZEngineBoundary site cellarOk s
  | .outputStallRelease site => Sys2Proof.Machine.execOutputStallRelease site s
  | .segmentIdleExpiry stream => Sys2Proof.Machine.execSegmentIdleExpiry stream s
  | .cmpJobStart => Sys2Proof.Machine.execCmpJobStart s
  | .cmpJobResume => Sys2Proof.Machine.execCmpJobResume s
  | .cmpJobAbandon => Sys2Proof.Machine.execCmpJobAbandon s
  | .cmpJobEnd r => Sys2Proof.Machine.execCmpJobEnd r s
  | .cmpStatClear => Sys2Proof.Machine.execCmpStatClear s
  | .chunkDecodeDone task r => Sys2Proof.Machine.execChunkDecodeDone task r s
  | .slotRetired slot => Sys2Proof.Machine.execSlotRetired slot s
  | .takeOwnership => Sys2Proof.Machine.execTakeOwnership s
  | .unseal => Sys2Proof.Machine.execUnseal s
  | .keyCreate => Sys2Proof.Machine.execKeyCreate s
  | .keyDestroy => Sys2Proof.Machine.execKeyDestroy s
  | .domainMap => Sys2Proof.Machine.execDomainMap s
  | .ownerLockSet => Sys2Proof.Machine.execOwnerLockSet s
  | .ownerLockClear => Sys2Proof.Machine.execOwnerLockClear s
  | .atticClearToken => Sys2Proof.Machine.execAtticClearToken s
  | .retirementListClear => Sys2Proof.Machine.execRetirementListClear s
  | .zeroise => Sys2Proof.Machine.execZeroise s
  | .releaseOwnership => Sys2Proof.Machine.execReleaseOwnership s
  | .sanitizeArm => Sys2Proof.Machine.execSanitizeArm s
  | .sanitizeArmExpiry => Sys2Proof.Machine.execSanitizeArmExpiry s
  | .peerUnseal => Sys2Proof.Machine.execPeerUnseal s
  | .pairKeyAgreement p => Sys2Proof.Machine.execPairKeyAgreement p s
  | .strongroomAlarm cause => Sys2Proof.Machine.execStrongroomAlarm cause s
  | .dgtClaim core ch => Sys2Proof.Machine.execDgtClaim core ch s
  | .dgtRelease core ch => Sys2Proof.Machine.execDgtRelease core ch s
  | .dgtBegin core ch => Sys2Proof.Machine.execDgtBegin core ch s
  | .dgtRestore core ch => Sys2Proof.Machine.execDgtRestore core ch s
  | .dgtGo core ch => Sys2Proof.Machine.execDgtGo core ch s
  | .dgtRunEnd ch => Sys2Proof.Machine.execDgtRunEnd ch s
  | .dgtSuspend core ch => Sys2Proof.Machine.execDgtSuspend core ch s
  | .dgtSqueeze core ch => Sys2Proof.Machine.execDgtSqueeze core ch s
  | .dgtLastWord core ch word => Sys2Proof.Machine.execDgtLastWord core ch word s
  | .dgtExpectWrite core ch k word => Sys2Proof.Machine.execDgtExpectWrite core ch k word s
  | .stripeCloseTimer stripe => Sys2Proof.Machine.execStripeCloseTimer stripe s
  | .landingWriteRequest r => Sys2Proof.Machine.execLandingWriteRequest r s
  | .rowLockGrant stripe row => Sys2Proof.Machine.execRowLockGrant stripe row s
  | .memberCompletion c => Sys2Proof.Machine.execMemberCompletion c s
  | .memberLate op => Sys2Proof.Machine.execMemberLate op s
  | .journalAreaRoom t => Sys2Proof.Machine.execJournalAreaRoom t s
  | .ptyCntClear => Sys2Proof.Machine.execPtyCntClear s
  | .moduleStatusReport shelf mdl cause => Sys2Proof.Machine.execModuleStatusReport shelf mdl cause s
  | .moduleAdmit => Sys2Proof.Machine.execModuleAdmit s
  | .rebuildUnitLaunch rebuild pointer => Sys2Proof.Machine.execRebuildUnitLaunch rebuild pointer s
  | .journalCopyMoved t => Sys2Proof.Machine.execJournalCopyMoved t s
  | .zoneGroupReclaim group => Sys2Proof.Machine.execZoneGroupReclaim group s
  | .reshapeStart => Sys2Proof.Machine.execReshapeStart s
  | .reshapePause => Sys2Proof.Machine.execReshapePause s
  | .reshapeResume => Sys2Proof.Machine.execReshapeResume s
  | .reshapeAbort => Sys2Proof.Machine.execReshapeAbort s
  | .reshapeBoundaryMove => Sys2Proof.Machine.execReshapeBoundaryMove s
  | .patrolVisitStep f => Sys2Proof.Machine.execPatrolVisitStep f s
  | .patrolVisitComplete shelf => Sys2Proof.Machine.execPatrolVisitComplete shelf s
  | .patrolOverdue shelf => Sys2Proof.Machine.execPatrolOverdue shelf s
  | .mndLossRead index => Sys2Proof.Machine.execMndLossRead index s
  | .backendPortLost port peerReaches => Sys2Proof.Machine.execBackendPortLost port peerReaches s
  | .shelfBusStuck bus cleared => Sys2Proof.Machine.execShelfBusStuck bus cleared s
  | .shelfDemand kind shelf deadline => Sys2Proof.Machine.execShelfDemand kind shelf deadline s
  | .powerSlot failed => Sys2Proof.Machine.execPowerSlot failed s
  | .shelfStripesSettled shelf => Sys2Proof.Machine.execShelfStripesSettled shelf s
  | .shelfShutdownDone shelf => Sys2Proof.Machine.execShelfShutdownDone shelf s
  | .shelfLinkUp shelf => Sys2Proof.Machine.execShelfLinkUp shelf s
  | .shelfOpen shelf notReady => Sys2Proof.Machine.execShelfOpen shelf notReady s
  | .shelfWakeTimeout shelf => Sys2Proof.Machine.execShelfWakeTimeout shelf s
  | .stageHoldExpiry shelf cntlid => Sys2Proof.Machine.execStageHoldExpiry shelf cntlid s
  | .bridgeFencedReport shelf t programmed => Sys2Proof.Machine.execBridgeFencedReport shelf t programmed s
  | .bridgeBatonRefusal op => Sys2Proof.Machine.execBridgeBatonRefusal op s
  | .lateDoorbellReport op => Sys2Proof.Machine.execLateDoorbellReport op s
  | .slotSeal => Sys2Proof.Machine.execSlotSeal s
  | .slotStart peerOfs => Sys2Proof.Machine.execSlotStart peerOfs s
  | .beatEdge => Sys2Proof.Machine.execBeatEdge s
  | .cycleEdge => Sys2Proof.Machine.execCycleEdge s
  | .wheelRefMissing => Sys2Proof.Machine.execWheelRefMissing s
  | .wheelRefContention => Sys2Proof.Machine.execWheelRefContention s
  | .ptpLockLost => Sys2Proof.Machine.execPtpLockLost s
  | .descriptorMessage t opcode nsid slba nlb arrival ctx => Sys2Proof.Machine.execDescriptorMessage t opcode nsid slba nlb arrival ctx s
  | .chunkMessage t handle stored guard => Sys2Proof.Machine.execChunkMessage t handle stored guard s
  | .confirmMessage t handle held => Sys2Proof.Machine.execConfirmMessage t handle held s
  | .orderMessage t o => Sys2Proof.Machine.execOrderMessage t o s
  | .markerMessage t beat count last => Sys2Proof.Machine.execMarkerMessage t beat count last s
  | .digestMessage t beat digest => Sys2Proof.Machine.execDigestMessage t beat digest s
  | .journalMessage t entry => Sys2Proof.Machine.execJournalMessage t entry s
  | .controlMessage m => Sys2Proof.Machine.execControlMessage m s
  | .catcherDigestTimeout t => Sys2Proof.Machine.execCatcherDigestTimeout t s
  | .freezeVerdictMessage v => Sys2Proof.Machine.execFreezeVerdictMessage v s
  | .freezeOutcome t => Sys2Proof.Machine.execFreezeOutcome t s
  | .keeperBeatExpiry => Sys2Proof.Machine.execKeeperBeatExpiry s
  | .batonClaim t => Sys2Proof.Machine.execBatonClaim t s
  | .batonConfirmWindowEnd t seeRose => Sys2Proof.Machine.execBatonConfirmWindowEnd t seeRose s
  | .batonSeeFall t => Sys2Proof.Machine.execBatonSeeFall t s
  | .takeoverComplete t found => Sys2Proof.Machine.execTakeoverComplete t found s
  | .handoverGate t => Sys2Proof.Machine.execHandoverGate t s
  | .handoverCommitPoint t => Sys2Proof.Machine.execHandoverCommitPoint t s
  | .handoverEnd t => Sys2Proof.Machine.execHandoverEnd t s
  | .handoverStart t => Sys2Proof.Machine.execHandoverStart t s
  | .iclinLinkDown => Sys2Proof.Machine.execIclinLinkDown s
  | .iclinLinkUp peerHead lanes peerCount => Sys2Proof.Machine.execIclinLinkUp peerHead lanes peerCount s
  | .resyncStart t => Sys2Proof.Machine.execResyncStart t s
  | .resyncCopyEnd t => Sys2Proof.Machine.execResyncCopyEnd t s
  | .trpHandback => Sys2Proof.Machine.execTrpHandback s
  | .trpRejoin => Sys2Proof.Machine.execTrpRejoin s
  | .pantryAccess cls stream addr write => Sys2Proof.Machine.execPantryAccess cls stream addr write s
  | .pantryLineFill addr => Sys2Proof.Machine.execPantryLineFill addr s
  | .dmaSnoop addr len write => Sys2Proof.Machine.execDmaSnoop addr len write s
  | .pantryDrainStart => Sys2Proof.Machine.execPantryDrainStart s
  | .pantryDrainStop => Sys2Proof.Machine.execPantryDrainStop s
  | .pantryDrained => Sys2Proof.Machine.execPantryDrained s
  | .panStatClear => Sys2Proof.Machine.execPanStatClear s
  | .sramEccError bank ue held => Sys2Proof.Machine.execSramEccError bank ue held s
  | .hbmEccError stack pc ue held => Sys2Proof.Machine.execHbmEccError stack pc ue held s
  | .ddrEccError channel addr ue => Sys2Proof.Machine.execDdrEccError channel addr ue s
  | .hbmSpareCopyDone stack => Sys2Proof.Machine.execHbmSpareCopyDone stack s
  | .memoryScrubPass ddr => Sys2Proof.Machine.execMemoryScrubPass ddr s
  | .memErrClear => Sys2Proof.Machine.execMemErrClear s
  | .unmappedMemoryAccess addr => Sys2Proof.Machine.execUnmappedMemoryAccess addr s
  | .powerStateReached => Sys2Proof.Machine.execPowerStateReached s
  | .portsPowerDown => Sys2Proof.Machine.execPortsPowerDown s
  | .ringDemandWake ring => Sys2Proof.Machine.execRingDemandWake ring s
  | .ringRegate ring => Sys2Proof.Machine.execRingRegate ring s
  | .calendarAlarm => Sys2Proof.Machine.execCalendarAlarm s
  | .mgmtAddressMatch addr command => Sys2Proof.Machine.execMgmtAddressMatch addr command s
  | .cellarStatus => Sys2Proof.Machine.execCellarStatus s
  | .mgmtWake => Sys2Proof.Machine.execMgmtWake s
  | .samplerTick r => Sys2Proof.Machine.execSamplerTick r s
  | .vinRestored => Sys2Proof.Machine.execVinRestored s
  | .vinBelowCellar => Sys2Proof.Machine.execVinBelowCellar s
  | .vinAboveCellar => Sys2Proof.Machine.execVinAboveCellar s
  | .vinApplied info => Sys2Proof.Machine.execVinApplied info s
  | .resetAssert => Sys2Proof.Machine.execResetAssert s
  | .resetRelease info => Sys2Proof.Machine.execResetRelease info s
  | .wakePartTimeout part => Sys2Proof.Machine.execWakePartTimeout part s
  | .wakeGroupReady group signatures info => Sys2Proof.Machine.execWakeGroupReady group signatures info s
  | .domainFirstAccess domain => Sys2Proof.Machine.execDomainFirstAccess domain s
  | .domainNotReady domain => Sys2Proof.Machine.execDomainNotReady domain s
  | .pwrDomOn => Sys2Proof.Machine.execPwrDomOn s
  | .pwrClkSwitch => Sys2Proof.Machine.execPwrClkSwitch s
  | .calendarSet value => Sys2Proof.Machine.execCalendarSet value s
  | .calendarCrystalStopped => Sys2Proof.Machine.execCalendarCrystalStopped s
  | .powerSample p => Sys2Proof.Machine.execPowerSample p s
  | .railOutOfRegulation rail => Sys2Proof.Machine.execRailOutOfRegulation rail s
  | .calSwap => Sys2Proof.Machine.execCalSwap s
  | .calCoefWrite value => Sys2Proof.Machine.execCalCoefWrite value s
  | .holdupUpdate vhMv => Sys2Proof.Machine.execHoldupUpdate vhMv s
  | .flushTrigger earlyWarning => Sys2Proof.Machine.execFlushTrigger earlyWarning s
  | .thermalTrip => Sys2Proof.Machine.execThermalTrip s
  | .faultCount cls part atOnce => Sys2Proof.Machine.execFaultCount cls part atOnce s
  | .faultAgeOut cls part => Sys2Proof.Machine.execFaultAgeOut cls part s
  | .brkClaim core => Sys2Proof.Machine.execBrkClaim core s
  | .brkDone core source => Sys2Proof.Machine.execBrkDone core source s
  | .brkPendDismiss k mask => Sys2Proof.Machine.execBrkPendDismiss k mask s
  | .brkRaise source => Sys2Proof.Machine.execBrkRaise source s
  | .atticRecordWrite => Sys2Proof.Machine.execAtticRecordWrite s
  | .atcReadSlot slot => Sys2Proof.Machine.execAtcReadSlot slot s
  | .atcSetCommit => Sys2Proof.Machine.execAtcSetCommit s
  | .paradeBuild => Sys2Proof.Machine.execParadeBuild s
  | .hqePeakClear => Sys2Proof.Machine.execHqePeakClear s
  | .ldrCntClear => Sys2Proof.Machine.execLdrCntClear s
  | .cphStatClear => Sys2Proof.Machine.execCphStatClear s
  | .tsiLoad => Sys2Proof.Machine.execTsiLoad s
  | .tsiLoadDone sourceError => Sys2Proof.Machine.execTsiLoadDone sourceError s
  | .tsiCheck => Sys2Proof.Machine.execTsiCheck s
  | .tsiCheckDone xmssRoot => Sys2Proof.Machine.execTsiCheckDone xmssRoot s
  | .tsiArm => Sys2Proof.Machine.execTsiArm s
  | .tsiCancel => Sys2Proof.Machine.execTsiCancel s
  | .tsiDiscard => Sys2Proof.Machine.execTsiDiscard s
  | .imageCommitPoint => Sys2Proof.Machine.execImageCommitPoint s
  | .imageApply => Sys2Proof.Machine.execImageApply s
  | .imageStreamsRestored => Sys2Proof.Machine.execImageStreamsRestored s
  | .boothMicrocodeLoaded site => Sys2Proof.Machine.execBoothMicrocodeLoaded site s
  | .bridgeFirmwareLoad shelf => Sys2Proof.Machine.execBridgeFirmwareLoad shelf s
  | .firmwareActivationEdge peerConfirms => Sys2Proof.Machine.execFirmwareActivationEdge peerConfirms s
  | .fwuConfirm => Sys2Proof.Machine.execFwuConfirm s
  | .fwuSvnRaise => Sys2Proof.Machine.execFwuSvnRaise s
  | .fwuCancel => Sys2Proof.Machine.execFwuCancel s
  | .fwuFieldRecovery => Sys2Proof.Machine.execFwuFieldRecovery s
  | .trialTimeout => Sys2Proof.Machine.execTrialTimeout s
  | .attestationStart => Sys2Proof.Machine.execAttestationStart s
  | .attestationQuoteDone signature => Sys2Proof.Machine.execAttestationQuoteDone signature s
  | .jtagInstructionLoad instr => Sys2Proof.Machine.execJtagInstructionLoad instr s
  | .tapTestLogicReset => Sys2Proof.Machine.execTapTestLogicReset s
  | .ptpLockAcquired => Sys2Proof.Machine.execPtpLockAcquired s
  | .refMissing => Sys2Proof.Machine.execRefMissing s
  | .backendPortLinkUp port width speed => Sys2Proof.Machine.execBackendPortLinkUp port width speed s
  | .hostPortLinkDown port => Sys2Proof.Machine.execHostPortLinkDown port s
  | .moduleInserted shelf mdl => Sys2Proof.Machine.execModuleInserted shelf mdl s
  | .startWaitExpiry => Sys2Proof.Machine.execStartWaitExpiry s
  | .lossOfBothSupplies => Sys2Proof.Machine.execLossOfBothSupplies s

end Sys2Proof.Machine
end

