-- ==== Sys2Proof/Safety.lean ====
section
/-!
DEFINITION. What counts as a safe run of the head: no step stops, and memory keeps its canonical form.
-/

namespace Sys2Proof.Machine

open Sys2Proof

/-- The step goes on. -/
def State.goesOn (s : State) : Bool := match step s with | .next _ => true | _ => false

/-- The invariant of every state that a run reaches: head memory is in its canonical form (12_pantry_and_memory.md R266). -/
def State.Inv (s : State) : Prop := Memory.wf s.mem = true

/-- A command keeps the package's absolute limits (17_package_pins_electrical.md R369), outside of which the spec states no behaviour. -/
def withinLimits : Instr → Bool
  | .powerSample p => !limitsExceeded p
  | .holdupUpdate v => decide (v ≤ 65000)
  | _ => true

/-- The command completes: it answers a next state, and `P` holds of it. -/
def Runs (i : Instr) (s : State) (P : State → Prop) : Prop := ∃ t, exec i s = .next t ∧ P t

/-- The command completes and acts on the head's record alone: head memory and the waiting commands stay. -/
def RunsHead (i : Instr) (s : State) (P : Head → Prop) : Prop := ∃ h, exec i s = .next { s with head := h } ∧ P h

/-- Context `n` holds command `c`, past the fence and the checks, of a queue kind and opcode; I/O commands wait in HOLD (R303). -/
def State.holdsReady (s : State) (n : Nat) (c : Ctx) (admin : Bool) (op : Nat) : Prop :=
  s.head.hqe.ctx? n = some c ∧ c.phase = .ready ∧ c.admin = admin ∧ c.cap.opcode = op ∧ (admin = true ∨ s.head.pwr.level < 3)

/-- Context `n` holds a command of that kind which still answers its host. -/
def State.holdsCmd (s : State) (n : Nat) (c : Ctx) (admin : Bool) (op : Nat) : Prop := s.holdsReady n c admin op ∧ c.silent = false

/-- The control cores run, and the token mailbox holds a token of an operation that the Strongroom accepts (R127). -/
def State.holdsToken (s : State) (op : Nat) : Prop :=
  s.head.awake = true ∧ tokenOp s.head.mailbox = op ∧ s.head.judgeToken s.head.mailbox = 0

/-- The newest output is the completion of a command. -/
def Head.justCompleted (h : Head) (c : Ctx) (st : Status) (dw0 : Nat) : Prop :=
  ∃ more sq, h.out.head? = some (.completion c.cntlid c.qid c.cap.cid st dw0 more sq)

/-- The newest output is the completion of a command; before it came what a list names, newest first, and then what was there. -/
def Head.completedAfter (h : Head) (c : Ctx) (st : Status) (dw0 : Nat) (l before : List Out) : Prop :=
  h.justCompleted c st dw0 ∧ h.out.tail = l ++ before

/-- The row completes command `c` with a status and a Dword 0, and changes nothing but the queues and the outputs. -/
def Completes (i : Instr) (s : State) (c : Ctx) (st : Status) (dw0 : Nat) : Prop :=
  RunsHead i s fun h => h.completedAfter c st dw0 [] s.head.out ∧ h.hqe.ctrls = s.head.hqe.ctrls ∧ h = { s.head with hqe := h.hqe, out := h.out }

/-- The same, and data goes to the host first. -/
def CompletesWith (i : Instr) (s : State) (c : Ctx) (data : Bytes) (dw0 : Nat) : Prop :=
  RunsHead i s fun h => h.completedAfter c stSuccess dw0 [.adminData c.id data] s.head.out ∧ h = { s.head with hqe := h.hqe, out := h.out }

/-- The commands whose effect reaches head memory (12_pantry_and_memory.md R266): accesses and fills of the Pantry, engine runs that
read or write memory, the loads of the Thiez loader and the boot core, and the power events that end what memory holds. -/
def reachesMemory : Instr → Bool
  | .registerWrite _ _ _ | .pantryAccess _ _ _ _ | .pantryLineFill _ | .dmaSnoop _ _ _ | .pantryDrained | .cmpJobStart | .cmpJobEnd _
  | .dgtRunEnd _ | .attestationQuoteDone _ | .tsiLoad | .imageApply | .memberCompletion _ | .memberLate _ | .flushTrigger _ | .thermalTrip
  | .portsPowerDown | .vinBelowCellar | .lossOfBothSupplies => true
  | _ => false

end Sys2Proof.Machine
end

