-- ==== Sys2Proof/Certificates/Slice0/Obligations.lean ====
section
/-!
DEFINITION. The statements put to the provers: what the commands of the head do, family by family, and what every step keeps.
-/

open Sys2Proof Sys2Proof.Machine

/-- A claim by a control core marks the source it returns IN_SERVICE; a BRK_DONE for a source IN_SERVICE clears PENDING, IN_SERVICE and REPEAT and leaves it pending again only if it was raised meanwhile; a write of ones to BRK_PEND_k clears the sources it names. Each changes the sources alone, and no other source. (R323, 15_faults_barker_attic.md) -/
def Obligations.BarkerSourceServiceCycle : Prop :=
  (∀ (s : State) (core n : Nat), core < 16 → s.head.topSource (s.head.claimable core) = some n →
    RunsHead (.brkClaim core) s fun h => h = { s.head with brk := h.brk } ∧
      h.src n = { s.head.src n with inService := true } ∧ ∀ m, m ≠ n → h.src m = s.head.src m) ∧
  (∀ (s : State) (core n : Nat), core < 16 → n < 1152 → (s.head.src n).inService = true →
    RunsHead (.brkDone core n) s fun h => h = { s.head with brk := h.brk } ∧
      h.src n = { src := n, pending := (s.head.src n).again } ∧ ∀ m, m ≠ n → h.src m = s.head.src m) ∧
  (∀ (s : State) (k : Nat) (mask : Word),
    RunsHead (.brkPendDismiss k mask) s fun h => h = { s.head with brk := h.brk } ∧
      ∀ m, h.src m = if m / 32 = k ∧ mask.getLsbD (m % 32) then { src := m } else s.head.src m)

/-- For a number from 1056 to 1151 the source is raised as R323 raises a source; no record is entered while its SET is 0, and with another SET one record of severity INFO with the doorbell's number, CODE 0, no payload and the set's snapshot words is entered while the queue has room. Any other number leaves every source but 1000 alone, sets BRK_STATUS.RAISE_REFUSED and raises source 1000. (R325) -/
def Obligations.DoorbellRaise : Prop :=
  (∀ (s : State) (n : Nat), 1056 ≤ n → n ≤ 1151 →
    RunsHead (.brkRaise n) s fun h => h.src n = (s.head.src n).raised ∧ (∀ m, m ≠ n → m ≠ 996 → h.src m = s.head.src m) ∧
      (s.head.srcSet n = 0 → h = { s.head with brk := h.brk }) ∧
      (s.head.srcSet n ≠ 0 → s.head.atc.queue.length < 256 →
        h = { s.head with brk := h.brk, atc := h.atc } ∧
        ∃ r, h.atc.queue = s.head.atc.queue ++ [r] ∧ r.severity = 0 ∧ r.source = n ∧ r.code = 0 ∧ r.payload = [] ∧
          r.set = s.head.srcSet n ∧ r.snaps = ((((s.head.raise n).atc.set (s.head.srcSet n)).2.take 23).map (s.head.raise n).readReg))) ∧
  (∀ (s : State) (n : Nat), n < 2048 → (n < 1056 ∨ 1151 < n) →
    RunsHead (.brkRaise n) s fun h => h.src 1000 = (s.head.src 1000).raised ∧ (∀ m, m ≠ 1000 → h.src m = s.head.src m) ∧
      h.bit Adr.BRK_STATUS 18 = true ∧ h = { s.head with brk := h.brk, regs := h.regs })

/-- While the ports are open and the submission queue has room, a capsule without in-capsule data is appended to its queue with the next arrival number. A capsule with in-capsule data also takes a slot of the queue pair when both the queue pair and the port have one free and the queue pair holds no capsule back, and is held back when no slot is free, keeping the arrival number for later. A freed slot lets the port accept the first capsule that it held back. Only the host queue engine, the Barker sources and their condition bits, and the outputs can change. (R51, R65, 03_host_queues_and_ordering.md) -/
def Obligations.CapsuleTakesArrivalNumberAndSlot : Prop :=
  (∀ (s : State) (c q : Nat) (cap : Capsule) (p : QPair), s.head.portsOpen = true → s.head.hqe.qpair? c q = some p →
    p.entries.length < p.size → cap.inCapsule = none →
    RunsHead (.capsuleAccept c q cap) s fun h => h = { s.head with hqe := h.hqe } ∧
      h.hqe.nextArrival = s.head.hqe.nextArrival + 1 ∧
      h.hqe.qpair? c q = some { p with entries := p.entries ++ [⟨cap, s.head.hqe.nextArrival⟩] }) ∧
  (∀ (s : State) (c q : Nat) (cap : Capsule) (p : QPair), s.head.portsOpen = true → s.head.hqe.qpair? c q = some p →
    p.entries.length < p.size → cap.inCapsule.isSome = true → s.head.slotFree p = true → p.heldBack = [] →
    RunsHead (.capsuleAccept c q cap) s fun h => h = { s.head with hqe := h.hqe, brk := h.brk, regs := h.regs } ∧
      h.hqe.nextArrival = s.head.hqe.nextArrival + 1 ∧
      h.hqe.qpair? c q = some { p with entries := p.entries ++ [⟨cap, s.head.hqe.nextArrival⟩], slots := p.slots + 1 }) ∧
  (∀ (s : State) (c q : Nat) (cap : Capsule) (p : QPair), s.head.portsOpen = true → s.head.hqe.qpair? c q = some p →
    p.entries.length < p.size → cap.inCapsule.isSome = true → s.head.slotFree p = false →
    RunsHead (.capsuleAccept c q cap) s fun h => h = { s.head with hqe := h.hqe, out := .heldBack c q :: s.head.out } ∧
      h.hqe.nextArrival = s.head.hqe.nextArrival ∧ h.hqe.qpair? c q = some { p with heldBack := p.heldBack ++ [cap] }) ∧
  (∀ (s : State) (port : Nat) (cap : Capsule) (rest : List Capsule) (p : QPair), s.head.portsOpen = true → s.head.heldQueue port = some p →
    s.head.hqe.qpair? p.cntlid p.qid = some p → p.heldBack = cap :: rest →
    RunsHead (.inCapsuleSlotFreed port) s fun h => h = { s.head with hqe := h.hqe, brk := h.brk, regs := h.regs } ∧
      h.hqe.nextArrival = s.head.hqe.nextArrival + 1 ∧
      h.hqe.qpair? p.cntlid p.qid =
        some { p with heldBack := rest, entries := p.entries ++ [⟨cap, s.head.hqe.nextArrival⟩], slots := p.slots + 1 })

/-- When the queue engine has a command to take and a context is free for it, COMMAND_FETCH puts it into a new context that carries its capsule and arrival number, and takes it out of its queue. An ended command's context returns to its pool and the pool is no longer full. A command at the overlap fence that no older overlapping command holds and that the checks of R380 pass becomes ready, and nothing else changes. (R54, R65, R72, R380, 03_host_queues_and_ordering.md) -/
def Obligations.FetchContextAndFence : Prop :=
  (∀ (s : State) (p : QPair) (e : Entry), s.head.pick = some (p, e) → (p.qid = 0 ∨ e.cap.opcode ≠ opStageIn) →
    s.head.ctxFree (p.qid == 0) = true →
    RunsHead .commandFetch s fun h => h.hqe.nextCtx = s.head.hqe.nextCtx + 1 ∧
      ∃ c ∈ h.hqe.ctxs, c.id = s.head.hqe.nextCtx ∧ c.cap = e.cap ∧ c.arrival = e.arrival ∧ c.cntlid = p.cntlid ∧ c.qid = p.qid) ∧
  (∀ (s : State) (n : Nat) (c : Ctx), s.head.hqe.ctx? n = some c → c.phase = .done →
    RunsHead (.commandContextFreed n) s fun h => h = { s.head with hqe := h.hqe } ∧ h.hqe.ctx? n = none ∧ h.hqe.poolFull = false) ∧
  (∀ (s : State) (n : Nat) (c : Ctx), s.head.hqe.ctx? n = some c → c.phase = .fence → c.admin = false → s.head.mustWait c = false →
    s.head.ioRefusal c.cap (checkRanges c.cap) = none →
    RunsHead (.fenceRelease n) s fun h => h = { s.head with hqe := h.hqe } ∧ h.hqe.ctx? n = some { c with phase := .ready })

/-- After a Disconnect, a transport loss or an RDMA transfer error of an I/O queue pair that exists, the queue pair is gone. After any of them on the admin queue, and when the keep-alive timer of a controller with a KATO has run KATO rounded up to 100 ms plus 100 ms, the controller is gone. (R53, R64, R80, 03_host_queues_and_ordering.md) -/
def Obligations.ConnectionsEndAndTheirQueuesGo : Prop :=
  (∀ (s : State) (c q cid : Nat) (p : QPair), s.head.hqe.qpair? c q = some p → q ≠ 0 →
    (RunsHead (.disconnect c q cid) s fun h => h.hqe.qpair? c q = none) ∧
    (RunsHead (.transportLoss c q) s fun h => h.hqe.qpair? c q = none) ∧
    (RunsHead (.rdmaTransferError c q) s fun h => h.hqe.qpair? c q = none)) ∧
  (∀ (s : State) (c cid : Nat) (p : QPair), s.head.hqe.qpair? c 0 = some p →
    (RunsHead (.disconnect c 0 cid) s fun h => h.hqe.ctrl? c = none) ∧
    (RunsHead (.transportLoss c 0) s fun h => h.hqe.ctrl? c = none) ∧
    (RunsHead (.rdmaTransferError c 0) s fun h => h.hqe.ctrl? c = none)) ∧
  (∀ (s : State) (n : Nat) (k : Ctrl), s.head.hqe.ctrl? n = some k → k.kato ≠ 0 →
    k.kaStart + ((k.kato + 99) / 100 * 100 + 100) * 1000 ≤ s.head.now →
    RunsHead (.keepAliveExpiry n) s fun h => h.hqe.ctrl? n = none)

/-- A Connect to the admin queue with a queue of at most 32 entries and, unless it asks for the discovery controller, a KATO, creates a controller whose CNTLID from 1 to 1,024 was not in use, with its admin queue pair of the size asked for, and answers success with that CNTLID; which free CNTLID it takes is a free value (log 7). With no CNTLID free, or 4,096 queue pairs, the answer is Connect Controller Busy and source 302. A Connect to an I/O queue of a controller that exists, within the limits, adds the queue pair. (R50, R52, 03_host_queues_and_ordering.md) -/
def Obligations.ConnectCreatesControllerOrQueue : Prop :=
  (∀ (s : State) (c : ConnectCmd), s.head.portsOpen = true → c.qid = 0 → c.sqsize ≤ 31 → (c.discovery = true ∨ c.kato ≠ 0) →
    s.head.freeCntlids ≠ [] → s.head.hqe.qpairs.length < 4096 →
    RunsHead (.connect c) s fun h => ∃ n k, 1 ≤ n ∧ n ≤ 1024 ∧ s.head.hqe.ctrl? n = none ∧
      h.hqe.ctrls = s.head.hqe.ctrls ++ [k] ∧ k.cntlid = n ∧ k.kato = c.kato ∧ k.discovery = c.discovery ∧ k.hostNqn = c.hostNqn ∧
      h.hqe.qpairs = s.head.hqe.qpairs ++ [{ cntlid := n, qid := 0, port := c.port, transport := c.transport, size := c.sqsize + 1 }] ∧
      h.out = .connectReply c.port c.cid stSuccess n :: s.head.out) ∧
  (∀ (s : State) (c : ConnectCmd), s.head.portsOpen = true → c.qid = 0 → c.sqsize ≤ 31 → (c.discovery = true ∨ c.kato ≠ 0) →
    (s.head.freeCntlids = [] ∨ 4096 ≤ s.head.hqe.qpairs.length) →
    RunsHead (.connect c) s fun h => h.hqe = s.head.hqe ∧ h.src 302 = (s.head.src 302).raised ∧
      h.out = .connectReply c.port c.cid stConnectBusy 0 :: s.head.out) ∧
  (∀ (s : State) (c : ConnectCmd) (k : Ctrl), s.head.portsOpen = true → c.qid ≠ 0 → s.head.hqe.ctrl? c.cntlid = some k →
    k.discovery = false → c.sqsize ≤ 1023 → c.qid ≤ s.head.ioqs k → s.head.hqe.qpair? c.cntlid c.qid = none →
    s.head.hqe.qpairs.length < 4096 →
    RunsHead (.connect c) s fun h => h = { s.head with hqe := h.hqe, out := .connectReply c.port c.cid stSuccess c.cntlid :: s.head.out } ∧
      h.hqe.ctrls = s.head.hqe.ctrls ∧ h.hqe.qpairs = s.head.hqe.qpairs ++
        [{ cntlid := c.cntlid, qid := c.qid, port := c.port, transport := c.transport, size := c.sqsize + 1 }])

/-- A Property Set of CC that sets EN, without a shutdown notification, puts the value into CC, sets CSTS.RDY and completes with success. A Property Get of CC, CSTS or VS completes with the property's value. Once every fetched command of a controller under reset has ended, the reset is over, and CSTS.RDY is clear, or SHST is complete after a shutdown. (R58, R80, 03_host_queues_and_ordering.md) -/
def Obligations.PropertiesAndControllerReset : Prop :=
  (∀ (s : State) (n : Nat) (c : Ctx) (k : Ctrl), s.head.hqe.ctx? n = some c → c.phase = .ready → c.admin = true → c.cap.opcode = 0x7F →
    c.cap.nsid % 256 = 0x00 → c.cap.dw11 = 0x14#32 → c.silent = false → c.cap.inCapsule = none → s.head.hqe.ctrl? c.cntlid = some k →
    k.cc.getLsbD 0 = false → c.cap.dw12.getLsbD 0 = true → bits 15 14 c.cap.dw12.toNat = 0 →
    RunsHead (.propertySet n) s fun h => h = { s.head with hqe := h.hqe, out := h.out } ∧
      (∃ sq, h.out = .completion c.cntlid c.qid c.cap.cid stSuccess 0 false sq :: s.head.out) ∧
      ∃ k', h.hqe.ctrl? c.cntlid = some k' ∧ k'.cc = c.cap.dw12 ∧ k'.csts.getLsbD 0 = true ∧ k'.resetting = none) ∧
  (∀ (s : State) (n : Nat) (c : Ctx) (k : Ctrl), s.head.hqe.ctx? n = some c → c.phase = .ready → c.admin = true → c.cap.opcode = 0x7F →
    c.cap.nsid % 256 = 0x04 → c.silent = false → s.head.hqe.ctrl? c.cntlid = some k →
    RunsHead (.propertyGet n) s fun h =>
      (c.cap.dw11 = 0x14#32 → ∃ sq, h.out = .completion c.cntlid c.qid c.cap.cid stSuccess k.cc.toNat false sq :: s.head.out) ∧
      (c.cap.dw11 = 0x1C#32 → ∃ sq, h.out = .completion c.cntlid c.qid c.cap.cid stSuccess k.csts.toNat false sq :: s.head.out) ∧
      (c.cap.dw11 = 0x08#32 → ∃ sq, h.out = .completion c.cntlid c.qid c.cap.cid stSuccess 0x00020000 false sq :: s.head.out)) ∧
  (∀ (s : State) (n : Nat) (k : Ctrl) (shutdown : Bool), s.head.hqe.ctrl? n = some k → k.resetting = some shutdown →
    (∀ c ∈ s.head.hqe.ctxs ++ s.head.hqe.holdCtxs, c.cntlid = n → c.phase = .done) →
    RunsHead (.controllerResetDone n) s fun h => h = { s.head with hqe := h.hqe } ∧
      ∃ k', h.hqe.ctrl? n = some k' ∧ k'.resetting = none ∧
        (shutdown = false → k'.csts.getLsbD 0 = false) ∧ (shutdown = true → bits 3 2 k'.csts.toNat = 2))

/-- A ready Flush with no older writer of the namespaces it names completes with success at once. Otherwise it waits, its data and every other context unchanged, for the arrival numbers of the older writers, and it completes with success when none of them is left. (R80, 03_host_queues_and_ordering.md) -/
def Obligations.FlushWaitsForOlderWriters : Prop :=
  (∀ (s : State) (n : Nat) (c : Ctx), s.holdsReady n c false opFlush → c.silent = false → s.head.olderWriters c = [] →
    RunsHead (.flush n) s fun h => h.justCompleted c stSuccess 0 ∧ h = { s.head with hqe := h.hqe, out := h.out }) ∧
  (∀ (s : State) (n : Nat) (c : Ctx), s.holdsReady n c false opFlush → s.head.olderWriters c ≠ [] →
    RunsHead (.flush n) s fun h => h = { s.head with hqe := h.hqe } ∧
      h.hqe.ctx? c.id = (s.head.hqe.ctx? c.id).map (fun x => { x with phase := .running, waits := s.head.olderWriters c })) ∧
  (∀ (s : State) (n : Nat) (c : Ctx), s.head.hqe.ctx? n = some c → c.phase = .running → c.admin = false → c.cap.opcode = opFlush →
    c.silent = false → (∀ a ∈ c.waits, s.head.unended a = false) →
    RunsHead (.flushComplete n) s fun h => h.justCompleted c stSuccess 0 ∧ h = { s.head with hqe := h.hqe, out := h.out })

/-- When no extent of the range is poisoned, every port that a needed shelf is behind has its link and no needed shelf is dark, a ready Read (and a Compare whose host data passes the port's check) starts a read of each chunk at a booth that serves it and answers every block it already can; the state in between carries the chunks it refers to and the blocks that remain. When a needed shelf is dark, the command completes with Access Deferred and the estimate, and nothing is started. (R15, R20, R21, R59, R235, 01_head_architecture.md, 03_host_queues_and_ordering.md) -/
def Obligations.ReadAndCompareRunOnStoredChunks : Prop :=
  (∀ (s : State) (n : Nat) (c : Ctx) (h₁ : Head), s.holdsReady n c false opRead →
    (s.head.dp.extentsOf c.cap.nsid (c.cap.slba * 4096) ((c.cap.nlb + 1) * 4096)).find? (·.poisoned) = none →
    (((s.head.dp.withHistory (s.head.dp.chunksOf c.cap.nsid c.cap.slba (c.cap.nlb + 1))).filter
      fun u => (s.head.dp.stagedCopy u).isNone).filterMap s.head.chunkShelf).any (fun x => (s.head.shf.port (s.head.shelfPort x)).lost) = false →
    s.head.darkShelves (s.head.dp.withHistory (s.head.dp.chunksOf c.cap.nsid c.cap.slba (c.cap.nlb + 1))) = [] →
    s.head.startAll c.id (s.head.dp.chunksOf c.cap.nsid c.cap.slba (c.cap.nlb + 1)) = some h₁ →
    RunsHead (.read n) s fun h => h = (h₁.modCtx c.id fun x => { x with
      phase := .running, resolved := true, refs := s.head.dp.withHistory (s.head.dp.chunksOf c.cap.nsid c.cap.slba (c.cap.nlb + 1))
      hostData := [], view := s.head.dp.extentsOf c.cap.nsid (c.cap.slba * 4096) ((c.cap.nlb + 1) * 4096)
      remaining := (List.range (c.cap.nlb + 1)).map (c.cap.slba + ·) }).serveBlocks c.id) ∧
  (∀ (s : State) (n : Nat) (c : Ctx) (host d : Bytes), s.holdsReady n c false opCompare →
    (c.cap.inCapsule = some d → RunsHead (.compare n host) s fun h => h = s.head.runCompare c d) ∧
    (c.cap.inCapsule = none → host.length = c.cap.required → RunsHead (.compare n host) s fun h => h = s.head.runCompare c host)) ∧
  (∀ (s : State) (n : Nat) (c : Ctx) (x : Nat) (xs : List Nat), s.holdsReady n c false opRead → c.silent = false →
    (s.head.dp.extentsOf c.cap.nsid (c.cap.slba * 4096) ((c.cap.nlb + 1) * 4096)).find? (·.poisoned) = none →
    (((s.head.dp.withHistory (s.head.dp.chunksOf c.cap.nsid c.cap.slba (c.cap.nlb + 1))).filter
      fun u => (s.head.dp.stagedCopy u).isNone).filterMap s.head.chunkShelf).any (fun x => (s.head.shf.port (s.head.shelfPort x)).lost) = false →
    s.head.darkShelves (s.head.dp.withHistory (s.head.dp.chunksOf c.cap.nsid c.cap.slba (c.cap.nlb + 1))) = x :: xs →
    RunsHead (.read n) s fun h => h.justCompleted c stDeferred (s.head.estimate (x :: xs)) ∧ h = { s.head with hqe := h.hqe, out := h.out })

/-- A ready Write of a namespace with room for it, without in-capsule data, that a booth accepts runs at that booth, which its context records. A ready Write Zeroes of a troupe whose map updates this head may issue maps its range to the zero extent and then waits for its beat. A Dataset Management command without the AD attribute completes with success and changes nothing else; with it and its ranges in the capsule, unfenced, the ranges that are not empty are mapped to the zero extent. (R13, R18, R59, R60, 01_head_architecture.md, 03_host_queues_and_ordering.md) -/
def Obligations.WritersDispatchAndMapZeroes : Prop :=
  (∀ (s : State) (n : Nat) (c : Ctx) (ns : Namespace) (h₁ : Head) (site : Nat), s.holdsReady n c false opWrite →
    s.head.hqe.ns? c.cap.nsid = some ns → s.head.noSpace ns.troupe ns.domain = false → c.cap.inCapsule = none →
    s.head.dispatchSite c ns = (h₁, some site) →
    RunsHead (.write n) s fun h => h.hqe.ctx? c.id = (h₁.hqe.ctx? c.id).map (fun x => { x with phase := .running, site := site }) ∧
      h = { h₁ with hqe := h.hqe, out := h.out }) ∧
  (∀ (s : State) (n : Nat) (c : Ctx) (ns : Namespace), s.holdsReady n c false opWriteZeroes →
    s.head.hqe.ns? c.cap.nsid = some ns → s.head.noSpace ns.troupe ns.domain = false → s.head.mayIssue ns.troupe = true →
    RunsHead (.writeZeroes n) s fun h => h = ((((s.head.describe ns.troupe c).zeroRange ns.troupe ns.domain ns.nsid c.cap.slba (c.cap.nlb + 1)).modCtx
      c.id fun x => { x with phase := .waitAck, issued := true, lastBeat := some ((((s.head.describe ns.troupe c).zeroRange ns.troupe ns.domain
        ns.nsid c.cap.slba (c.cap.nlb + 1)).pair.trp ns.troupe).openBeat) }).tryAck c.id)) ∧
  (∀ (s : State) (n : Nat) (c : Ctx) (rs : List (Nat × Nat)), s.holdsReady n c false opDsm → c.cap.dw11.getLsbD 2 = false → c.silent = false →
    RunsHead (.datasetManagement n rs) s fun h => h.justCompleted c stSuccess 0 ∧ h = { s.head with hqe := h.hqe, out := h.out }) ∧
  (∀ (s : State) (n : Nat) (c : Ctx) (ns : Namespace) (rs : List (Nat × Nat)), s.holdsReady n c false opDsm → c.cap.dw11.getLsbD 2 = true →
    c.cap.inCapsule.isSome = true → s.head.hqe.ns? c.cap.nsid = some ns → lengthRefuses ns c.cap c.ranges = none →
    (s.head.modCtx c.id fun x => { x with ranges := c.ranges }).mustWait c = false → s.head.noSpace ns.troupe ns.domain = false →
    s.head.mayIssue ns.troupe = true →
    RunsHead (.datasetManagement n rs) s fun h =>
      h = (s.head.modCtx c.id fun x => { x with ranges := c.ranges }).zeroWriter c ns c.ranges)

/-- A running Write with data still to ask for and no grant out, at a site with burst room that takes bursts, while writes are not paced, is granted its next burst: the lesser of 64 KiB and what is left, asked for at the offset reached. A burst of the granted length goes through the receive checks into the booth. An H2CData PDU in sequence that matches the grant does the same when its digest holds; with a bad digest the command completes with Transient Transport Error and its Write is dropped. (R14, R64, R164, 01_head_architecture.md, 03_host_queues_and_ordering.md) -/
def Obligations.WriteBurstsAreRequestedAndTaken : Prop :=
  (∀ (s : State) (n : Nat) (c : Ctx), s.head.hqe.ctx? n = some c → c.phase = .running → c.admin = false → c.cap.opcode = opWrite →
    c.grant = none → c.asked < c.cap.required → s.head.takesBursts c.site = true → s.head.burstRoom c.site = true → s.head.paced = false →
    RunsHead (.writeBurstRequest n) s fun h =>
      h.out = .pull n c.asked (min 65536 (c.cap.required - c.asked)) :: s.head.out ∧
      h.hqe.ctx? n = some { c with grant := some (c.asked, min 65536 (c.cap.required - c.asked)), asked := c.asked + min 65536 (c.cap.required - c.asked) } ∧
      h = { s.head with hqe := h.hqe, dp := h.dp, out := h.out }) ∧
  (∀ (s : State) (n : Nat) (c : Ctx) (o : Nat) (data : Bytes), s.head.hqe.ctx? n = some c → c.phase = .running → c.grant = some (o, data.length) →
    RunsHead (.writeBurstArrival n data) s fun h => h = s.head.receive n data) ∧
  (∀ (s : State) (n : Nat) (c : Ctx) (p : QPair) (o : Nat) (data : Bytes), s.head.hqe.ctx? n = some c → c.phase = .running →
    s.head.hqe.qpair? c.cntlid c.qid = some p → p.transport = .tcp → c.grant = some (o, data.length) →
    (RunsHead (.h2cdataPdu n o data true true) s fun h => h = s.head.receive n data) ∧
    (RunsHead (.h2cdataPdu n o data false true) s fun h =>
      h = ((s.head.transferError c.cntlid c.qid).complete c stTransport 0).dropWrite c.id))

/-- A ready STAGE-IN whose cold shelves fit the power budget and are all OPEN grants its holds at once and completes. One of whose shelves some are neither OPEN, FAULT nor ABSENT is held, on a head that can have them woken, and a Stage demand is made for each of them. A held STAGE-IN whose shelves have all opened grants its holds and completes. STAGE-RELEASE takes out the controller's holds on the shelves of its range and completes with success. (R236, R237, R238, 10_shelves_and_the_wheel.md) -/
def Obligations.StageInHoldsAndRelease : Prop :=
  (∀ (s : State) (n : Nat) (c : Ctx), s.holdsReady n c false opStageIn → (s.head.rangeShelves c true).length ≤ s.head.openable →
    (∀ x ∈ s.head.rangeShelves c true, (s.head.shf.shelf x).state = 3) →
    RunsHead (.stageIn n) s fun h => h = (s.head.modCtx c.id fun x => { x with shelves := s.head.rangeShelves c true }).stageDone
      { c with shelves := s.head.rangeShelves c true }) ∧
  (∀ (s : State) (n : Nat) (c : Ctx) (d : Nat) (ds : List Nat), s.holdsReady n c false opStageIn →
    (s.head.rangeShelves c true).length ≤ s.head.openable →
    (∀ x ∈ s.head.rangeShelves c true, (s.head.shf.shelf x).state ≠ 6 ∧ (s.head.shf.shelf x).state ≠ 0) →
    (s.head.rangeShelves c true).filter (fun x => (s.head.shf.shelf x).state != 3) = d :: ds → s.head.cannotWake = false →
    RunsHead (.stageIn n) s fun h => h = ((s.head.modCtx c.id fun x => { x with shelves := s.head.rangeShelves c true }).modCtx c.id
      fun x => { x with phase := .held }).forEach (d :: ds) fun h x => h.demand
        { kind := .stage, shelf := x, deadline := some (s.head.now + orIfZero 1 (s.head.shelfPolicy 23 16) * 1000000), ctxs := [c.id] }) ∧
  (∀ (s : State) (n : Nat) (c : Ctx), s.head.hqe.ctx? n = some c → c.phase = .held → c.powerHeld = false → c.admin = false →
    c.cap.opcode = opStageIn → (∀ x ∈ c.shelves, (s.head.shf.shelf x).state = 3) →
    RunsHead (.stageInComplete n) s fun h => h = s.head.stageDone c) ∧
  (∀ (s : State) (n : Nat) (c : Ctx), s.holdsReady n c false opStageRelease → c.silent = false →
    RunsHead (.stageRelease n) s fun h => h.justCompleted c stSuccess 0 ∧
      h.shf.holds = s.head.shf.holds.filter fun x => !(x.cntlid == c.cntlid && (s.head.rangeShelves c false).contains x.shelf))

/-- Identify Controller answers the controller's data structure and success; Identify Namespace of a namespace that does not exist completes with Invalid Namespace. Get Log Page at an offset that is a multiple of 4 answers the bytes of a supported page from that offset, with RAE set leaving everything else as it was; another offset is an Invalid Field, a page that does not exist an invalid log page. Abort never aborts and completes with Dword 0 of 1. Keep Alive restarts the timer of its controller. Authentication Send keeps the message for the exchange, and Authentication Receive answers what the control cores compute from the messages (log 7: a free value). (R48, R53, R55, R57, R58, 03_host_queues_and_ordering.md) -/
def Obligations.AdminQueriesAnswer : Prop :=
  (∀ (s : State) (n : Nat) (c : Ctx) (k : Ctrl), s.holdsCmd n c true 0x06 → s.head.hqe.ctrl? c.cntlid = some k →
    (c.cap.dw10.toNat % 256 = 1 → c.id = n → CompletesWith (.identify n) s c (identifyController k) 0) ∧
    (c.cap.dw10.toNat % 256 = 0 → s.head.hqe.ns? c.cap.nsid = none → Completes (.identify n) s c stInvalidNs 0)) ∧
  (∀ (s : State) (n : Nat) (c : Ctx) (k : Ctrl) (lid len off : Nat), s.holdsCmd n c true 0x02 → s.head.hqe.ctrl? c.cntlid = some k →
    lid = c.cap.dw10.toNat % 256 → off = c.cap.dw12.toNat + c.cap.dw13.toNat * 2 ^ 32 →
    len = (c.cap.dw10.toNat / 2 ^ 16 + c.cap.dw11.toNat % 2 ^ 16 * 2 ^ 16 + 1) * 4 →
    (off % 4 ≠ 0 → Completes (.getLogPage n) s c stInvalidField 0) ∧
    (off % 4 = 0 → lid ≠ 0xC0 → s.head.logPage k lid off len = none → Completes (.getLogPage n) s c stInvalidLog 0) ∧
    (∀ bs, off % 4 = 0 → lid ≠ 0xC0 → s.head.logPage k lid off len = some bs → c.cap.dw10.getLsbD 15 = true →
      CompletesWith (.getLogPage n) s c bs 0)) ∧
  (∀ (s : State) (n : Nat) (c : Ctx), s.holdsCmd n c true 0x08 → Completes (.abort n) s c stSuccess 1) ∧
  (∀ (s : State) (n : Nat) (c : Ctx) (k : Ctrl), s.holdsCmd n c true 0x18 → s.head.hqe.ctrl? c.cntlid = some k →
    RunsHead (.keepAlive n) s fun h => h.completedAfter c stSuccess 0 [] s.head.out ∧
      h.hqe.ctrl? c.cntlid = some { k with kaStart := s.head.now }) ∧
  (∀ (s : State) (n : Nat) (c : Ctx) (k : Ctrl) (msg : Bytes), s.holdsCmd n c true 0x7F → s.head.hqe.ctrl? c.cntlid = some k →
    (fctype c.cap = 5 → RunsHead (.authenticationSend n msg) s fun h => h.completedAfter c stSuccess 0 [] s.head.out ∧
      h.hqe.ctrl? c.cntlid = some { k with auth := k.auth ++ [msg] }) ∧
    (fctype c.cap = 6 → RunsHead (.authenticationReceive n) s fun h =>
      h.completedAfter c stSuccess 0 [.adminData n (Config.authReply k.auth)] s.head.out))

/-- Setting the Keep Alive Timer to 1 to 3,600,000 ms gives the controller that KATO; 0 or a greater value is an Invalid Field. Feature 0xC1 below 8 is kept for the controller. Number of Queues grants at most MAX_IOQ of each kind, and a value of FFFFh is an Invalid Field. Get Features with SEL 0 answers the present value, and with SEL 2 or an unsupported feature completes with Invalid Field. An Asynchronous Event Request waits among at most 8 of its controller when no event waits, and answers an event that waits at once. (R55, R56, R75, 03_host_queues_and_ordering.md) -/
def Obligations.FeaturesAndEventRequests : Prop :=
  (∀ (s : State) (n : Nat) (c : Ctx) (k : Ctrl), s.holdsCmd n c true 0x09 → s.head.hqe.ctrl? c.cntlid = some k →
    (c.cap.dw10.toNat % 256 = 0x0F → 0 < c.cap.dw11.toNat → c.cap.dw11.toNat ≤ 3600000 →
      RunsHead (.setFeatures n) s fun h => h.completedAfter c stSuccess 0 [] s.head.out ∧
        h.hqe.ctrl? c.cntlid = some { k with kato := c.cap.dw11.toNat }) ∧
    (c.cap.dw10.toNat % 256 = 0x0F → (c.cap.dw11.toNat = 0 ∨ 3600000 < c.cap.dw11.toNat) →
      Completes (.setFeatures n) s c stInvalidField 0) ∧
    (c.cap.dw10.toNat % 256 = 0xC1 → c.cap.dw11.toNat < 8 →
      RunsHead (.setFeatures n) s fun h => h.completedAfter c stSuccess 0 [] s.head.out ∧
        h.hqe.ctrl? c.cntlid = some { k with featC1 := c.cap.dw11 }) ∧
    (c.cap.dw10.toNat % 256 = 0x07 → (c.cap.dw11.toNat % 2 ^ 16 = 0xFFFF ∨ c.cap.dw11.toNat / 2 ^ 16 = 0xFFFF) →
      Completes (.setFeatures n) s c stInvalidField 0) ∧
    (∀ g, c.cap.dw10.toNat % 256 = 0x07 → c.cap.dw11.toNat % 2 ^ 16 ≠ 0xFFFF → c.cap.dw11.toNat / 2 ^ 16 ≠ 0xFFFF →
      g = min (max (c.cap.dw11.toNat % 2 ^ 16) (c.cap.dw11.toNat / 2 ^ 16) + 1) s.head.maxIoq →
      RunsHead (.setFeatures n) s fun h => h.completedAfter c stSuccess ((g - 1) + (g - 1) * 2 ^ 16) [] s.head.out ∧
        h.hqe.ctrl? c.cntlid = some { k with queues := g })) ∧
  (∀ (s : State) (n : Nat) (c : Ctx) (k : Ctrl), s.holdsCmd n c true 0x0A → s.head.hqe.ctrl? c.cntlid = some k →
    (c.cap.dw10.toNat / 256 % 8 = 0 → c.cap.dw10.toNat % 256 = 0xC1 → Completes (.getFeatures n) s c stSuccess k.featC1.toNat) ∧
    (c.cap.dw10.toNat / 256 % 8 = 0 → c.cap.dw10.toNat % 256 = 0x0F → Completes (.getFeatures n) s c stSuccess k.kato) ∧
    (c.cap.dw10.toNat / 256 % 8 = 2 → c.cap.dw10.toNat % 256 = 0x0F → Completes (.getFeatures n) s c stInvalidField 0) ∧
    (c.cap.dw10.toNat % 256 = 0x03 → Completes (.getFeatures n) s c stInvalidField 0)) ∧
  (∀ (s : State) (n : Nat) (c : Ctx) (k : Ctrl), s.holdsCmd n c true 0x0C → s.head.hqe.ctrl? c.cntlid = some k → c.id = n →
    k.aers.length < 8 →
    (k.events = [] → RunsHead (.asynchronousEventRequest n) s fun h => h = { s.head with hqe := h.hqe } ∧
      h.hqe.ctrl? c.cntlid = some { k with aers := k.aers ++ [(c.cap.cid, n)] } ∧
      h.hqe.ctx? n = some { c with phase := .running }) ∧
    (∀ e es, k.events = e :: es → RunsHead (.asynchronousEventRequest n) s fun h =>
      h.completedAfter c stSuccess e.dw0 [.event c.cntlid e.type e.info e.page] s.head.out ∧
      ∃ k', h.hqe.ctrl? c.cntlid = some k' ∧ k'.events = es ∧ k'.retained = e :: k.retained))

/-- A Device Self-test of kind 1 or 2 starts when none runs and is refused while one runs. At a millisecond boundary with host I/O present the test is suspended, after 10 ms without host I/O it resumes, and its finish raises source 300 and takes it off. A Sanitize that is no crypto erase is an Invalid Field, one that is not armed is denied, one during another is Sanitize In Progress; an armed one completes with success, and then the erase begins with the keys destroyed. The last step of the erase is its finish. (R76, R77, R143, R144, 03_host_queues_and_ordering.md, 06_cipher_and_strongroom.md) -/
def Obligations.SelfTestsAndSanitize : Prop :=
  (∀ (s : State) (n : Nat) (c : Ctx), s.holdsCmd n c true 0x14 → (c.cap.dw10.toNat % 16 = 1 ∨ c.cap.dw10.toNat % 16 = 2) →
    (s.head.hqe.selfTest = none → RunsHead (.deviceSelfTest n) s fun h => h.completedAfter c stSuccess 0 [] s.head.out ∧
      h.hqe.selfTest = some { kind := c.cap.dw10.toNat % 16, since := some s.head.now }) ∧
    (s.head.hqe.selfTest.isSome = true → Completes (.deviceSelfTest n) s c stSelfTest 0)) ∧
  (∀ (s : State) (k r t : Nat), s.head.hqe.selfTest = some { kind := k, ran := r, since := some t } → s.head.hostIo = true →
    (r + (s.head.now - t)) % 1000 = 0 →
    RunsHead .selfTestSuspend s fun h =>
      h = { s.head with hqe := { s.head.hqe with selfTest := some { kind := k, ran := r + (s.head.now - t), since := none } } }) ∧
  (∀ (s : State) (k r : Nat), s.head.hqe.selfTest = some { kind := k, ran := r, since := none } → s.head.hostIo = false →
    s.head.hqe.lastIo + 10000 ≤ s.head.now →
    RunsHead .selfTestResume s fun h =>
      h = { s.head with hqe := { s.head.hqe with selfTest := some { kind := k, ran := r, since := some s.head.now } } }) ∧
  (∀ (s : State) (passed : Bool) (t : SelfTest), s.head.hqe.selfTest = some t → t.since.isSome = true →
    RunsHead (.selfTestFinish passed) s fun h => h.src 300 = (s.head.src 300).raised ∧ h.hqe.selfTest = none ∧
      h.hqe.testLog = ((t.kind, if passed then 0 else 7) :: s.head.hqe.testLog).take 20) ∧
  (∀ (s : State) (n : Nat) (c : Ctx), s.holdsCmd n c true 0x84 →
    (c.cap.dw10.toNat % 8 ≠ 4 → Completes (.sanitize n) s c stInvalidField 0) ∧
    (c.cap.dw10.toNat % 8 = 4 → s.head.stg.armedUntil = none → Completes (.sanitize n) s c stDenied 0) ∧
    (∀ t, c.cap.dw10.toNat % 8 = 4 → s.head.stg.armedUntil = some t → s.head.now < t → s.head.stg.erasing = true →
      Completes (.sanitize n) s c stSanitizing 0) ∧
    (∀ t, c.cap.dw10.toNat % 8 = 4 → s.head.stg.armedUntil = some t → s.head.now < t → s.head.stg.erasing = false →
      RunsHead (.sanitize n) s fun h => h = (s.head.complete c stSuccess 0).eraseStart true)) ∧
  (∀ s : State, s.head.stg.erasing = true → RunsHead .sanitizeComplete s fun h => h = s.head.eraseFinish)

/-- A download block at an offset that is not a multiple of 64 KiB is an Invalid Field. A block of an open download is programmed at its place, named among the downloaded blocks, and the command completes with success; nothing of the control block changes. The first block of a download, when no condition of R354 refuses it, opens it on the slot that is not ACTIVE, which is no longer VALID. Firmware Commit with an action of 3 or more is an Invalid Field; with CA 010 on a VALID slot that is not ACTIVE the slot becomes the trial. Schedule Activation of a VALID slot that is not ACTIVE, at least 10 s ahead on a locked wheel, takes the first cycle edge at or after the time, raises source 942 and answers that cycle number. (R354, R355, R356, R357, 16_boot_trust_and_firmware.md) -/
def Obligations.FirmwareDownloadCommitSchedule : Prop :=
  (∀ (s : State) (n : Nat) (c : Ctx) (data : Bytes), s.holdsCmd n c true 0x11 → (c.cap.dw11.toNat * 4) % 65536 ≠ 0 →
    Completes (.firmwareImageDownload n data) s c stInvalidField 0) ∧
  (∀ (s : State) (n : Nat) (c : Ctx) (data : Bytes), s.holdsCmd n c true 0x11 → (c.cap.dw11.toNat * 4) % 65536 = 0 →
    (c.cap.dw10.toNat + 1) * 4 = 65536 → c.cap.dw11.toNat * 4 + 65536 ≤ 2 ^ 27 → 65536 ≤ c.cap.sgl.sum → s.head.fwu.trial = false →
    (s.head.fwu.dlOpen = true → RunsHead (.firmwareImageDownload n data) s fun h =>
      h = (s.head.putBlock (c.cap.dw11.toNat * 4 / 65536) (fit 65536 data)).complete c stSuccess 0 ∧
      h.fwu.bctl = s.head.fwu.bctl ∧ c.cap.dw11.toNat * 4 / 65536 ∈ h.fwu.dlBlocks) ∧
    (s.head.fwu.dlOpen = false → s.head.updateRefused = none → s.head.fwu.schedule = none → s.head.fwu.bctl.trial = 0 →
      RunsHead (.firmwareImageDownload n data) s fun h => h.completedAfter c stSuccess 0 [] s.head.out ∧ h.fwu.dlOpen = true ∧
        h.fwu.dlSlot = s.head.fwu.bctl.other ∧ h.fwu.dlCtrl = c.cntlid ∧ h.fwu.bctl.isValid s.head.fwu.bctl.other = false ∧
        h.fwu.dlBlocks = [c.cap.dw11.toNat * 4 / 65536])) ∧
  (∀ (s : State) (n : Nat) (c : Ctx) (v : ImageVerdict), s.holdsCmd n c true 0x10 →
    (3 ≤ c.cap.dw10.toNat / 8 % 8 → Completes (.firmwareCommit n v) s c stInvalidField 0) ∧
    (∀ slot, c.cap.dw10.toNat / 8 % 8 = 2 → s.head.updateRefused = none →
      slot = (if c.cap.dw10.toNat % 8 = 0 then s.head.fwu.bctl.other else c.cap.dw10.toNat % 8) → slot ≤ 2 → slot ≠ s.head.fwu.bctl.active →
      s.head.fwu.bctl.isValid slot = true → RunsHead (.firmwareCommit n v) s fun h =>
        h = (s.head.putBctl fun b => { b with trial := slot, attempts := 0 }).complete c stSuccess 0 ∧ h.fwu.bctl.trial = slot)) ∧
  (∀ (s : State) (n : Nat) (c : Ctx) (ok : Bool) (e p : Nat), s.holdsCmd n c true 0xC6 →
    p = (c.cap.dw11.toNat + c.cap.dw12.toNat * 2 ^ 32) * 1000000000 + c.cap.dw13.toNat →
    (c.cap.dw10.toNat % 4 = 1 ∨ c.cap.dw10.toNat % 4 = 2) → c.cap.dw10.toNat % 4 ≠ s.head.fwu.bctl.active →
    s.head.fwu.bctl.isValid (c.cap.dw10.toNat % 4) = true → s.head.whl.lock ≠ 0 → s.head.ptpNs + 10000000000 ≤ p →
    s.head.fwu.schedule = none → s.head.updateRefused = none → s.head.peerAllows ok = true → e = s.head.edgeAt p →
    RunsHead (.scheduleActivation n ok) s fun h => h.completedAfter c stSuccess (e % 2 ^ 32) [] s.head.out ∧
      h.fwu.schedule = some (c.cap.dw10.toNat % 4, e) ∧ h.src 942 = (s.head.src 942).raised)

/-- Parade answers a new summary and its sequence number. Thaw Queue of a queue that is frozen, with the number of its freeze and without discarding, ends the freeze and completes with 0; a queue that is not frozen is an Invalid Field. Attic Clear needs 64 bytes of data, and with a token that is accepted it completes with success and the clear sequence. Baton Handback of a troupe whose state does not allow it is a Command Sequence Error. Enter Power State with an unknown code is an Invalid Field and during an entry or an erase a Command Sequence Error; asking for DOZE in DOZE completes at once, and elsewhere begins an entry with every ring to be gated. The reversal does nothing when no entry is under way. (R68, R69, R78, R79, R262, R291, R332, R334, 03_host_queues_and_ordering.md, 14_calliope_power_delivery.md, 15_faults_barker_attic.md) -/
def Obligations.VendorAdminCommands : Prop :=
  (∀ (s : State) (n : Nat) (c : Ctx), s.holdsCmd n c true 0xC0 → RunsHead (.parade n) s fun h =>
    h = ((s.head.buildSummary.1).emit (.adminData c.id s.head.buildSummary.2)).complete c stSuccess s.head.buildSummary.1.paradeSeq) ∧
  (∀ (s : State) (n : Nat) (c : Ctx) (q : QPair) (f : Freeze), s.holdsCmd n c true 0xC1 →
    s.head.hqe.qpair? c.cntlid (c.cap.dw10.toNat % 2 ^ 16) = some q →
    (q.frozen = none → Completes (.thawQueue n) s c stInvalidField 0) ∧
    (q.frozen = some f → f.seq % 2 ^ 32 ≠ c.cap.dw11.toNat → Completes (.thawQueue n) s c stInvalidField (f.seq % 2 ^ 32)) ∧
    (q.frozen = some f → f.seq % 2 ^ 32 = c.cap.dw11.toNat → c.cap.dw12.getLsbD 0 = false →
      RunsHead (.thawQueue n) s fun h => h.completedAfter c stSuccess 0 [] s.head.out ∧
        ∃ q', h.hqe.qpair? c.cntlid (c.cap.dw10.toNat % 2 ^ 16) = some q' ∧ q'.frozen = none ∧ q'.entries.map (·.cap) = q.entries.map (·.cap))) ∧
  (∀ (s : State) (n : Nat) (c : Ctx) (token : Bytes), s.holdsCmd n c true 0xC3 →
    (c.cap.sgl.sum < 64 → Completes (.atticClear n token) s c stSglLength 0) ∧
    (64 ≤ c.cap.sgl.sum → tokenOp (fit 64 token) = 7 → (s.head.giveToken (fit 64 token)).2 = 0 →
      RunsHead (.atticClear n token) s fun h => h = (s.head.giveToken (fit 64 token)).1.complete c stSuccess
        ((s.head.giveToken (fit 64 token)).1.atc.clearSeq % 2 ^ 32))) ∧
  (∀ (s : State) (n : Nat) (c : Ctx), s.holdsCmd n c true 0xC5 →
    ((s.head.pair.trp (if c.cap.dw10.getLsbD 0 then .b else .a)).state ≠ 1 ∨ s.head.pair.icl = false →
      Completes (.batonHandback n) s c stSequence 0) ∧
    (∀ h' r, s.head.handback (if c.cap.dw10.getLsbD 0 then .b else .a) c.cap.dw11.toNat false (some c.id) = (h', r) → r = 1 →
      RunsHead (.batonHandback n) s fun h => h = h'.modCtx c.id fun x => { x with phase := .running })) ∧
  (∀ (s : State) (n : Nat) (c : Ctx), s.holdsCmd n c true 0xC7 →
    (6 ≤ c.cap.dw10.toNat % 8 → Completes (.enterPowerState n) s c stInvalidField 0) ∧
    (c.cap.dw10.toNat % 8 = 2 → (s.head.stg.erasing = true ∨ s.head.pwr.entry.isSome = true) →
      Completes (.enterPowerState n) s c stSequence 0) ∧
    (c.cap.dw10.toNat % 8 = 2 → s.head.stg.erasing = false → s.head.pwr.entry = none →
      s.head.pair.a.state ≤ 2 → s.head.pair.b.state ≤ 2 →
      (s.head.pwr.state = 2 → Completes (.enterPowerState n) s c stSuccess 2) ∧
      (s.head.pwr.state ≠ 2 → c.id = n → RunsHead (.enterPowerState n) s fun h => h = { s.head with pwr := h.pwr, hqe := h.hqe } ∧
        h.pwr.entry = some { target := 2, mask := 0, acceptedAt := s.head.now, ctx := some n } ∧
        h.hqe.ctx? n = some { c with phase := .running }))) ∧
  (∀ (s : State) (ctx : Nat), s.head.pwr.entry = none → RunsHead (.powerEntryReversal ctx) s fun h => h = s.head) ∧
  (∀ (s : State) (ctx : Nat) (e : PowerEntry), s.head.pwr.entry = some e → e.portsDown = false → s.head.heldCmds.any (·.id == ctx) = true →
    RunsHead (.powerEntryReversal ctx) s fun h => h.pwr.entry = none ∧ h.src 301 = (s.head.src 301).raised)

/-- A count of a part whose class is no module's, whose fault is not lasting and whose counts in the window stay below the threshold is kept with its time and raises source 1001, a count of a booth site n also source 8n, and no part is switched off. A fault that is not lasting closes when no count is left in its window. The oldest queued record is written to the slot that its severity gives it and leaves the queue. A slot read below 12,288 shows the slot's 128 bytes as 32 words. A set commit of set 1 to 31 takes the next generation and raises source 999. (R316, R329, R331, R333, R336, 15_faults_barker_attic.md) -/
def Obligations.FaultCountingAndAttic : Prop :=
  (∀ (s : State) (cls part : Nat) (p : FaultPart), 1 ≤ cls → cls ≤ 12 → cls ≠ 7 → s.head.partOut cls part = false →
    p = s.head.flt.part cls part → p.state ≤ 1 →
    (s.head.inWindow (s.head.windowH cls) ((s.head.opNow :: p.times).take (if deepClass cls then 256 else 15))).length < s.head.thresh cls →
    RunsHead (.faultCount cls part false) s fun h =>
      h = ((s.head.putPart { p with times := (s.head.opNow :: p.times).take (if deepClass cls then 256 else 15), state := 1, last := s.head.stamp }).raise 1001).when
        (cls == 1) fun h => h.raise (8 * part)) ∧
  (∀ (s : State) (cls part : Nat), (s.head.flt.part cls part).state ≤ 1 →
    s.head.inWindow (s.head.windowH cls) (s.head.flt.part cls part).times = [] →
    RunsHead (.faultAgeOut cls part) s fun h => h = { s.head with flt := h.flt } ∧
      ∀ x, x ∈ h.flt.parts ↔ x ∈ s.head.flt.parts ∧ (x.cls ≠ cls ∨ x.part ≠ part)) ∧
  (∀ (s : State) (r : AtticRec) (rest : List AtticRec) (n : Nat), s.head.atc.queue = r :: rest →
    ({ s.head.atc with queue := rest } : Attic).slotFor r.severity = some n →
    RunsHead .atticRecordWrite s fun h => h = { s.head with atc := h.atc } ∧ h.atc.queue = rest ∧
      h.atc.slots = putSlot n r s.head.atc.slots ∧ h.atc.buffer = some (n, r)) ∧
  (∀ (s : State) (slot : Nat), slot < 16384 → RunsHead (.atcReadSlot slot) s fun h =>
    h = { s.head with regs := h.regs, atc := h.atc } ∧
    h.atc.readData = leWords 32 (if slot < 12288 then s.head.atc.slotBytes slot else zeros 128)) ∧
  (∀ (s : State) (n : Nat), n = s.head.fld Adr.ATC_SET_SEL 4 0 → n ≠ 0 →
    RunsHead .atcSetCommit s fun h => h.src 999 = (s.head.src 999).raised ∧ (h.atc.set n).1 = ((s.head.atc.set n).1 + 1) % 256) ∧
  (∀ s : State, s.head.fld Adr.ATC_SET_SEL 4 0 = 0 → RunsHead .atcSetCommit s fun h => h = s.head)

/-- HQE_PEAK_CLEAR gives both peak marks the present values. The clears of the Larder, cipher, compression, parity, Pantry and memory-error counters set each of their counters to 0. A build of the PARADE summary shows its bytes and takes the next sequence number. Nothing outside the named fields changes, and for every clear nothing at all outside its counters. (R50, R103, R137, R334, 15_faults_barker_attic.md, 12_pantry_and_memory.md) -/
def Obligations.ClearsZeroTheirCountersAlone : Prop :=
  (∀ s : State, RunsHead .hqePeakClear s fun h =>
    h = { s.head with hqe := { s.head.hqe with peakCtrls := s.head.hqe.ctrls.length, peakCtxs := s.head.hqe.ctxs.length } }) ∧
  (∀ s : State, RunsHead .ldrCntClear s fun h => h = { s.head with ldr := { s.head.ldr with cnt := List.replicate 16 0, unreadable := 0 } }) ∧
  (∀ s : State, RunsHead .cphStatClear s fun h => h = { s.head with cph := { s.head.cph with stat := List.replicate 8 0 } }) ∧
  (∀ s : State, RunsHead .cmpStatClear s fun h =>
    h = { s.head with cmp := { s.head.cmp with stat := List.replicate 6 0, decErr := List.replicate 11 0 } }) ∧
  (∀ s : State, RunsHead .ptyCntClear s fun h => h = { s.head with pty := { s.head.pty with cnt := List.replicate 16 0, fillBytes := 0 } }) ∧
  (∀ s : State, RunsHead .panStatClear s fun h => h = { s.head with pan := { s.head.pan with stat := List.replicate 16 0 } }) ∧
  (∀ s : State, RunsHead .memErrClear s fun h => h = { s.head with memc := { s.head.memc with errs := List.replicate 16 0 } }) ∧
  (∀ s : State, RunsHead .paradeBuild s fun h => h.parade = s.head.buildSummary.2 ∧ h.paradeSeq = (s.head.paradeSeq + 1) % 2 ^ 32 ∧
    ∃ n, h = { s.head with parade := h.parade, paradeSeq := h.paradeSeq, free := n })

/-- A cut chunk whose domain deduplicates takes the SHA-256 of salt and bytes as its fingerprint; without a pending entry and without a Larder hit it goes to the far filter, and nothing is decided. A far answer of a filter that is valid and that misses decides it unique, one that hits asks the full index. An index page that arrived readable is cached once and the chunks that wait for it ask again; one that cannot be read is counted and raises source 790, and the chunks that wait are stored without index. A comparison of a sealed tentative copy with equal bytes confirms the duplicate, one with other bytes is a collision, one whose shelf is dark confirms without it. A chunk at another stage changes nothing. (R87, R88, R93, R98, R101, 04_chunking_and_dedup.md) -/
def Obligations.DedupDecidesByTheTables : Prop :=
  (∀ (s : State) (n : Nat) (p : PChunk), s.head.dp.pchunk? n = some p → p.stage = .cut → s.head.verifyMode p.domain ≠ 0 →
    s.head.ldr.pending.find? (fun e => e.1 == p.domain && e.2.1 == s.head.fingerprint p) = none →
    (s.head.ldr.larderHit (s.head.fingerprint p) = false ∨ s.head.bit Adr.LDR_CTRL 0 = false) →
    RunsHead (.fingerprintReady n) s fun h => h = { s.head with dp := h.dp, ldr := { s.head.ldr with cnt := bump 0 1 s.head.ldr.cnt } } ∧
      h.dp.pchunk? n = some { p with fp := s.head.fingerprint p, stage := .farWait }) ∧
  (∀ (s : State) (n : Nat) (p : PChunk), s.head.dp.pchunk? n = some p → p.stage = .cut → s.head.verifyMode p.domain = 0 →
    RunsHead (.fingerprintReady n) s fun h => h = s.head) ∧
  (∀ (s : State) (n : Nat) (p : PChunk), s.head.dp.pchunk? n = some p → p.stage = .farWait → s.head.pwr.level ≠ 3 → s.head.farValid = true →
    (s.head.farHit p.fp = false → RunsHead (.farFilterAnswer n) s fun h => h = s.head.decideUnique p) ∧
    (s.head.farHit p.fp = true → RunsHead (.farFilterAnswer n) s fun h => h = (s.head.ldrCount 2 1).askIndex p)) ∧
  (∀ (s : State) (t : Troupe) (page : Nat), s.head.ldr.fetching.contains (t, page) = true →
    (s.head.dp.pchunks.filter fun p => p.troupe == t && p.stage == .pageWait page) = [] →
    (RunsHead (.indexPageArrival t page true) s fun h => h = { s.head with ldr := h.ldr } ∧ (t, page) ∈ h.ldr.cached ∧ (t, page) ∉ h.ldr.fetching) ∧
    (RunsHead (.indexPageArrival t page false) s fun h => h.ldr.unreadable = s.head.ldr.unreadable + 1 ∧
      h.ldr.cached = s.head.ldr.cached ∧ (t, page) ∉ h.ldr.fetching ∧ h.src 790 = (s.head.src 790).raised)) ∧
  (∀ (s : State) (t : Troupe) (page : Nat) (r : Bool), s.head.ldr.fetching.contains (t, page) = false →
    RunsHead (.indexPageArrival t page r) s fun h => h = s.head) ∧
  (∀ (s : State) (n u : Nat) (p : PChunk) (bs : Bytes), s.head.dp.pchunk? n = some p → p.stage = .compareWait u → p.sealed = true →
    (bs = p.data → RunsHead (.byteCompareDone n (.plain bs)) s fun h => h = (s.head.ldrCount 7 1).confirmDup p u) ∧
    (bs ≠ p.data → RunsHead (.byteCompareDone n (.plain bs)) s fun h => h = (s.head.ldrCount 7 1).collision p u) ∧
    (RunsHead (.byteCompareDone n .notPowered) s fun h => h = (s.head.ldrCount 8 1).confirmDup p u))

/-- Below GEN_FILL_PCT of the current generation's slots, or while a generation clears, a turn changes nothing. At that fill the next generation of the four is marked clearing. Once cleared it is empty and current, none clears, and source 784 is raised; the entries of the others stay. (R91, 04_chunking_and_dedup.md) -/
def Obligations.LarderGenerationsTurn : Prop :=
  (∀ s : State, (s.head.ldr.clearing.isSome = true ∨ s.head.ldr.genOcc s.head.ldr.curGen * 100 < s.head.genFillPct * 12582912) →
    RunsHead .larderGenerationTurn s fun h => h = s.head) ∧
  (∀ s : State, s.head.ldr.clearing = none → s.head.genFillPct * 12582912 ≤ s.head.ldr.genOcc s.head.ldr.curGen * 100 →
    RunsHead .larderGenerationTurn s fun h => h = { s.head with ldr := { s.head.ldr with clearing := some ((s.head.ldr.curGen + 1) % 4) } }) ∧
  (∀ (s : State) (g : Nat), s.head.ldr.clearing = some g → RunsHead .larderGenerationCleared s fun h =>
    h.ldr.curGen = g ∧ h.ldr.clearing = none ∧ h.src 784 = (s.head.src 784).raised ∧ h.dp = s.head.dp ∧
    ∀ e, e ∈ h.ldr.larder ↔ e ∈ s.head.ldr.larder ∧ e.1 / 3145728 ≠ g)

/-- At a boundary of an engine that holds no piece, the next stream is chosen. A block that would overfill the output buffer stalls the engine and stays; a release moves the block of a stalled engine out, its piece staying with the holder, and changes nothing for an engine that is not stalled. A segment stream idle for longer than SEG_IDLE ends, one not that long stays. A job starts only from IDLE or DONE; a kind of 4 to 7 ends with code 7; one of kind 0 to 3 with a populated input samples its registers and reads its input in bursts. A resume is taken only in OUTPUT_FULL. An abandon frees the job's context and leaves IDLE. A run that ends at a site that is live, within the buffer and without a code, ends the job DONE with the bytes written at DST; a lost site ends it with code 0x0B. (R109, R114, R115, R116, R117, R118, 05_compression_engine.md) -/
def Obligations.CompressionEnginesAndJobs : Prop :=
  (∀ (s : State) (site : Nat) (ok : Bool), site < 36 → (s.head.dp.booth site).holding = none →
    RunsHead (.zEngineBoundary site ok) s fun h => h = s.head.choose site) ∧
  (∀ (s : State) (site : Nat) (ok : Bool) (x : ZStream) (u : ZUnit) (us : List ZUnit) (p : PChunk), site < 36 →
    (s.head.dp.booth site).holding = some x → x.units = u :: us → (s.head.dp.booth site).stalled = false → x.kind < 3 →
    s.head.dp.pchunk? u.chunk = some p → u.bytes ≠ 0 → s.head.outNow (s.head.dp.booth site) ≠ 0 →
    65536 < s.head.outNow (s.head.dp.booth site) + (s.head.blockOf p u).length →
    RunsHead (.zEngineBoundary site ok) s fun h => h = s.head.modBooth site fun b => { b with stalled := true }) ∧
  (∀ (s : State) (site : Nat), site < 36 → (s.head.dp.booth site).stalled = false →
    RunsHead (.outputStallRelease site) s fun h => h = s.head) ∧
  (∀ (s : State) (site : Nat) (u : ZUnit) (p : PChunk) (h₁ h₂ : Head), site < 36 → (s.head.dp.booth site).stalled = true →
    (s.head.dp.booth site).holding.bind (·.units.head?) = some u → s.head.dp.pchunk? u.chunk = some p →
    h₁ = s.head.modBooth site (fun b => { b with stalled := false }) →
    h₂ = h₁.moveBlock site p u (min (h₁.outNow (s.head.dp.booth site)) (65536 - (h₁.blockOf p u).length)) →
    RunsHead (.outputStallRelease site) s fun h => h = h₂.modBooth site fun b => { b with streams := b.streams.map fun x =>
      if (some x.sid = b.holder) then { x with units := x.units.modifyHead fun y => { y with bytes := 0 } } else x }) ∧
  (∀ (s : State) (n : Nat) (x : SegStream), s.head.cmp.segs.find? (·.id == n) = some x →
    (x.lastAt + s.head.segIdle < s.head.now → RunsHead (.segmentIdleExpiry n) s fun h =>
      h = { s.head with cmp := { s.head.cmp with segs := s.head.cmp.segs.filter (·.id != x.id) }, dp := h.dp }) ∧
    (s.head.now ≤ x.lastAt + s.head.segIdle → RunsHead (.segmentIdleExpiry n) s fun h => h = s.head)) ∧
  (∀ s : State, s.head.cmp.job.state ≠ 0 → s.head.cmp.job.state ≠ 2 → Runs .cmpJobStart s fun t => t = s) ∧
  (∀ (s : State) (site : Nat), (s.head.cmp.job.state = 0 ∨ s.head.cmp.job.state = 2) →
    ({ s.head with cmp := { s.head.cmp with job := s.head.jobSample } } : Head).jobSite s.head.jobSample.site = some site →
    3 < s.head.jobSample.kind → Runs .cmpJobStart s fun t => t.head.cmp.job.state = 4 ∧ t.head.cmp.job.code = 7 ∧ t.mem = s.mem) ∧
  (∀ (s : State) (site : Nat) (j : Job) (h₁ : Head), (s.head.cmp.job.state = 0 ∨ s.head.cmp.job.state = 2) →
    ({ s.head with cmp := { s.head.cmp with job := s.head.jobSample } } : Head).jobSite s.head.jobSample.site = some site →
    j = { s.head.jobSample with site := site } → h₁ = { s.head with cmp := { s.head.cmp with job := j } } →
    j.kind ≤ 3 → j.len ≠ 0 → h₁.rangePopulated j.src j.len = true →
    Runs .cmpJobStart s fun t => t = ({ s with head := h₁.jobStream j j.len } : State).dma j.src j.len none) ∧
  (∀ s : State, s.head.cmp.job.state ≠ 3 → RunsHead .cmpJobResume s fun h => h = s.head) ∧
  (∀ s : State, s.head.cmp.job.state = 3 → s.head.live s.head.cmp.job.site = true → RunsHead .cmpJobResume s fun h =>
    h.cmp.job.state = 1 ∧ h.cmp.job.out = 0 ∧ h.cmp.job.cap = s.head.fld Adr.CMP_JOB_CAP 31 0) ∧
  (∀ s : State, RunsHead .cmpJobAbandon s fun h => h.cmp.job.state = 0 ∧ h.cmp.job.code = 0 ∧ h = { s.head with cmp := h.cmp, dp := h.dp }) ∧
  (∀ (s : State) (r : JobResult), s.head.cmp.job.state = 1 → s.head.live s.head.cmp.job.site = false →
    RunsHead (.cmpJobEnd r) s fun h => h.cmp.job.state = 4 ∧ h.cmp.job.code = 0x0B) ∧
  (∀ (s : State) (r : JobResult), s.head.cmp.job.state = 1 → s.head.live s.head.cmp.job.site = true → r.code = 0 → r.outputFull = false →
    r.output ≠ [] → r.output.length ≤ s.head.cmp.job.cap → s.head.rangePopulated s.head.cmp.job.dst r.output.length = true →
    Runs (.cmpJobEnd r) s fun t => t.head.cmp.job.state = 2 ∧ t.head.cmp.job.out = r.output.length ∧
      t.mem = Memory.write s.mem s.head.cmp.job.dst r.output)

/-- A DMA write of a populated range writes those bytes to memory, and every byte outside the range reads as before. A DMA read and an access that writes nothing change no byte of memory unless the access takes the place of a dirty line. A read that hits changes no memory. An access outside the map changes nothing but the bus error, its counter and source 748. A fill that no one waits for changes nothing. Written 0, ENABLE starts the drain of a Pantry that serves; written 1, it stops a drain; when the last line is out, dirty lines are in memory, the Pantry is off and empty, and source 736 is raised. (R266, R269, R272, R273, R274, 12_pantry_and_memory.md) -/
def Obligations.PantryAccessesAndSnoops : Prop :=
  (∀ (s : State) (a : Nat) (bs : Bytes), bs ≠ [] → s.head.rangePopulated a bs.length = true →
    Runs (.dmaSnoop a bs.length (some bs)) s fun t => t.mem = Memory.write s.mem a bs ∧ t.pending = s.pending ∧
      ∀ x, (x < a ∨ a + bs.length ≤ x) → Memory.byte t.mem x = Memory.byte s.mem x) ∧
  (∀ (s : State) (a n : Nat), n ≠ 0 → s.head.rangePopulated a n = true → Runs (.dmaSnoop a n none) s fun t =>
    t.mem = s.mem ∧ t.head = { s.head with pan := t.head.pan } ∧ t.head.pan.lines = s.head.pan.lines) ∧
  (∀ (s : State) (a n : Nat), n ≠ 0 → s.head.rangePopulated a n = false → RunsHead (.dmaSnoop a n none) s fun h => h = s.head.unmapped a) ∧
  (∀ (s : State) (cls stream a : Nat) (w : Option Bytes), cls < 9 → s.head.populated a = false →
    RunsHead (.pantryAccess cls stream a w) s fun h => h = s.head.unmapped a) ∧
  (∀ (s : State) (cls stream a : Nat) (bs : Bytes), cls < 9 → s.head.populated a = true → s.head.allocates a = false →
    Runs (.pantryAccess cls stream a (some bs)) s fun t => t.head = s.head ∧ t.mem = Memory.write s.mem a (bs.take (64 - a % 64))) ∧
  (∀ (s : State) (cls stream a : Nat) (l : Line), cls < 2 → s.head.populated a = true → s.head.allocates a = true →
    s.head.pan.line? a = some l → l.used ≠ 0 → Runs (.pantryAccess cls stream a none) s fun t =>
      t.mem = s.mem ∧ t.head = { s.head with pan := t.head.pan } ∧ t.head.pan.stat = bump 0 1 s.head.pan.stat ∧
      t.head.pan.line? a = some { l with used := s.head.pan.clock }) ∧
  (∀ (s : State) (a : Nat), s.head.pan.fill? a = none → Runs (.pantryLineFill a) s fun t => t = s) ∧
  (∀ (s : State) (a : Nat) (f : Fill), s.head.pan.fill? a = some f → f.again = false → s.head.pan.waiting = [] → f.write = none →
    f.slot = none → Runs (.pantryLineFill a) s fun t => t.mem = s.mem ∧ t.head = { s.head with pan := t.head.pan } ∧
      t.head.pan.fills = s.head.pan.fills.filter (·.addr != f.addr) ∧ t.head.pan.lines = s.head.pan.lines) ∧
  (∀ s : State, s.head.pan.state = 1 → RunsHead .pantryDrainStart s fun h => h.pan.state = 2 ∧ h.pan.lines = s.head.pan.lines ∧
    h.fld Adr.PAN_CTRL 0 0 = 0 ∧ h = { s.head with regs := h.regs, pan := h.pan }) ∧
  (∀ s : State, s.head.pan.state = 2 → RunsHead .pantryDrainStop s fun h => h.pan.state = 1 ∧ h.fld Adr.PAN_CTRL 0 0 = 1 ∧
    h = { s.head with regs := h.regs, pan := h.pan }) ∧
  (∀ s : State, s.head.pan.state = 2 → Runs .pantryDrained s fun t => t.head.pan.state = 0 ∧ t.head.pan.lines = [] ∧
    t.mem = Memory.writeBack s.mem (s.head.pan.lines.filter (·.dirty)) ∧ t.head.src 736 = (s.head.src 736).raised)

/-- A corrected SRAM error counts, raises source 737 and is a fault count of its bank; an uncorrectable one raises 738, destroys what the bank held and counts at once. A corrected HBM error raises 741, an uncorrectable one 742 with a FAULT record of stack and pseudo-channel. A corrected DDR5 error raises 745, and an uncorrectable one is handled as its address says. A bank, stack or channel that does not exist changes nothing. A finished spare copy puts the spare in the place of the pseudo-channel that was copied. A scrub pass counts for its memory. An access outside the map raises 748. (R266, R276, R277, R278, R280, 12_pantry_and_memory.md) -/
def Obligations.MemoryErrorsAreCountedAndHandled : Prop :=
  (∀ (s : State) (b : Nat) (held : SramContent), b < 64 →
    (RunsHead (.sramEccError b false held) s fun h => h = ((s.head.memError 4 3 b 0 false).raise 737).countFault 3 b false) ∧
    (RunsHead (.sramEccError b true held) s fun h => h = (((s.head.memError 5 3 b 0 true).raise 738).sramLost held).countFault 3 b true)) ∧
  (∀ (s : State) (k p : Nat) (held : HbmContent), k < 4 → p < 32 →
    (RunsHead (.hbmEccError k p false held) s fun h => h = ((s.head.memError 0 1 k p false).raise 741).countFault 4 (32 * k + p) false) ∧
    (RunsHead (.hbmEccError k p true held) s fun h => h =
      (((s.head.memError 1 1 k p true).report 742 sevFault (leBytes 1 k ++ leBytes 1 p)).hbmLost held).countFault 4 (32 * k + p) true)) ∧
  (∀ (s : State) (c a : Nat), c < 8 →
    (RunsHead (.ddrEccError c a false) s fun h => h = ((s.head.memError 2 2 c 0 false).raise 745).countFault 0xB c false) ∧
    (RunsHead (.ddrEccError c a true) s fun h => h = (s.head.memError 3 2 c 0 true).ddrLost a)) ∧
  (∀ (s : State) (b k p c a : Nat) (ue : Bool) (x : SramContent) (y : HbmContent), 64 ≤ b → (4 ≤ k ∨ 32 ≤ p) → 8 ≤ c →
    (RunsHead (.sramEccError b ue x) s fun h => h = s.head) ∧ (RunsHead (.hbmEccError k p ue y) s fun h => h = s.head) ∧
    (RunsHead (.ddrEccError c a ue) s fun h => h = s.head)) ∧
  (∀ (s : State) (k : Nat) (m : Stack) (pc : Nat), s.head.memc.hbm.find? (·.stack == k) = some m → m.copying = some pc →
    RunsHead (.hbmSpareCopyDone k) s fun h => h.src 743 = (s.head.src 743).raised ∧
      h.memc.hbm.find? (·.stack == k) = some { m with spareUsed := true, spareFor := pc, copying := none }) ∧
  (∀ s : State, RunsHead (.memoryScrubPass false) s fun h =>
    h = { s.head with memc := { s.head.memc with scrubs := (s.head.memc.scrubs.1 + 1, s.head.memc.scrubs.2) } }) ∧
  (∀ s : State, RunsHead (.memoryScrubPass true) s fun h =>
    h = { s.head with memc := { s.head.memc with scrubs := (s.head.memc.scrubs.1, s.head.memc.scrubs.2 + 1) } }) ∧
  (∀ (s : State) (a : Nat), s.head.populated a = false → RunsHead (.unmappedMemoryAccess a) s fun h =>
    h.out = .busError a :: s.head.out ∧ h.memc.errs = bump 6 1 s.head.memc.errs ∧ h.src 748 = (s.head.src 748).raised) ∧
  (∀ (s : State) (a : Nat), s.head.populated a = true → RunsHead (.unmappedMemoryAccess a) s fun h => h = s.head)

/-- With a token in the mailbox that passes the checks of R127: UNSEAL ends the alarm latch and unseals; KEY CREATE makes the slot ACTIVE with the next epoch and a new key (log 7: a free value); KEY DESTROY leaves the slot empty with its epoch; DOMAIN MAP enters the slots of the domain; OWNER LOCK SET and CLEAR set the lock; ATTIC CLEAR leaves one record and raises source 997; RETIREMENT LIST CLEAR empties the list; ZEROISE latches the alarm and seals; RELEASE leaves no owner and no lock; SANITIZE ARM arms for the minutes named. Every one but RELEASE keeps the token's sequence number, and all give the result 0. (R44, R127, R128, R332, 06_cipher_and_strongroom.md, 02_thiez_structural_image.md) -/
def Obligations.OwnerTokensHaveTheirEffect : Prop :=
  (∀ s : State, s.holdsToken 1 → RunsHead .unseal s fun h => h.stg.unsealed = true ∧ h.stg.alarmLatch = false ∧
    h.stg.result = 0 ∧ h.stg.lastSeq = tokenSeq s.head.mailbox) ∧
  (∀ (s : State) (n : Nat), s.holdsToken 2 → n = tokenArg0 s.head.mailbox → RunsHead .keyCreate s fun h =>
    h.stg.slot n = { slot := (s.head.stg.slot n).slot, state := 2, record := 2, epoch := (s.head.stg.slot n).epoch + 1, key := s.head.freeBytes 32 } ∧
    h.stg.result = 0 ∧ h.stg.lastSeq = tokenSeq s.head.mailbox) ∧
  (∀ (s : State) (n : Nat), s.holdsToken 3 → n = tokenArg0 s.head.mailbox → RunsHead .keyDestroy s fun h =>
    h.stg.slot n = { slot := (s.head.stg.slot n).slot, epoch := (s.head.stg.slot n).epoch } ∧ (∀ l ∈ h.stg.leases, l.slot ≠ n) ∧
    h.stg.result = 0 ∧ h.stg.lastSeq = tokenSeq s.head.mailbox) ∧
  (∀ (s : State) (d w n : Nat), s.holdsToken 4 → d = tokenArg0 s.head.mailbox → w = tokenArg1 s.head.mailbox % 256 →
    n = tokenArg1 s.head.mailbox / 256 → RunsHead .domainMap s fun h =>
    h.stg.entry d = (w, n) ∧ (∀ e, e ≠ d → h.stg.entry e = s.head.stg.entry e) ∧ h.stg.slots = s.head.stg.slots ∧
    h.stg.result = 0 ∧ h.stg.lastSeq = tokenSeq s.head.mailbox) ∧
  (∀ s : State, s.holdsToken 5 → RunsHead .ownerLockSet s fun h => h.stg.ownerLock = true ∧ h.stg.result = 0 ∧
    h.stg.lastSeq = tokenSeq s.head.mailbox ∧ h = { s.head with regs := h.regs, stg := h.stg }) ∧
  (∀ s : State, s.holdsToken 6 → RunsHead .ownerLockClear s fun h => h.stg.ownerLock = false ∧ h.stg.result = 0 ∧
    h.stg.lastSeq = tokenSeq s.head.mailbox ∧ h = { s.head with regs := h.regs, stg := h.stg }) ∧
  (∀ s : State, s.holdsToken 7 → RunsHead .atticClearToken s fun h => (∃ r, h.atc.slots = [(0, r)]) ∧ h.src 997 = (s.head.src 997).raised ∧
    h.stg.result = 0 ∧ h.stg.lastSeq = tokenSeq s.head.mailbox) ∧
  (∀ s : State, s.holdsToken 8 → RunsHead .retirementListClear s fun h => h.tsi = { s.head.tsi with retired := [] } ∧ h.stg.result = 0 ∧
    h.stg.lastSeq = tokenSeq s.head.mailbox ∧ h = { s.head with regs := h.regs, stg := h.stg, tsi := h.tsi }) ∧
  (∀ s : State, s.holdsToken 9 → RunsHead .zeroise s fun h => h.stg.alarmLatch = true ∧ h.stg.unsealed = false ∧ h.stg.ctxKey = [] ∧
    h.stg.pairKey = none ∧ h.stg.result = 0 ∧ h.stg.lastSeq = tokenSeq s.head.mailbox) ∧
  (∀ s : State, s.holdsToken 0xA → RunsHead .releaseOwnership s fun h => h.stg.owner = none ∧ h.stg.ownerLock = false ∧ h.stg.lastSeq = 0 ∧
    h.stg.result = 0) ∧
  (∀ s : State, s.holdsToken 0xB → RunsHead .sanitizeArm s fun h =>
    h.stg.armedUntil = some (s.head.now + tokenArg0 s.head.mailbox * 60000000) ∧ h.stg.result = 0 ∧
    h.stg.lastSeq = tokenSeq s.head.mailbox ∧ h = { s.head with regs := h.regs, stg := h.stg })

/-- A rejected token of any row leaves owner, key slots, domain map, lock, alarm latch and last sequence as they were, gives its result code and raises source 868. TAKE OWNERSHIP without an owner stores the mailbox's first 32 bytes as the owner key; with an owner it gives result 0x05 and keeps the owner. After either the mailbox reads 0. (R126, R127, 06_cipher_and_strongroom.md) -/
def Obligations.TokensThatAreRejectedChangeNoKey : Prop :=
  (∀ (i : Instr) (op : Nat) (s : State), (i, op) ∈ [(Instr.unseal, 1), (.keyCreate, 2), (.keyDestroy, 3), (.domainMap, 4), (.ownerLockSet, 5),
      (.ownerLockClear, 6), (.atticClearToken, 7), (.retirementListClear, 8), (.zeroise, 9), (.releaseOwnership, 0xA), (.sanitizeArm, 0xB)] →
    s.head.awake = true → tokenOp s.head.mailbox = op → s.head.judgeToken s.head.mailbox ≠ 0 →
    RunsHead i s fun h => h.stg = { s.head.stg with result := s.head.judgeToken s.head.mailbox } ∧ h.tsi = s.head.tsi ∧
      h.src 868 = (s.head.src 868).raised) ∧
  (∀ (i : Instr) (op : Nat) (s : State), (i, op) ∈ [(Instr.unseal, 1), (.keyCreate, 2), (.keyDestroy, 3), (.domainMap, 4), (.ownerLockSet, 5),
      (.ownerLockClear, 6), (.atticClearToken, 7), (.retirementListClear, 8), (.zeroise, 9), (.releaseOwnership, 0xA), (.sanitizeArm, 0xB)] →
    (s.head.awake = false ∨ tokenOp s.head.mailbox ≠ op) → RunsHead i s fun h => h = s.head) ∧
  (∀ s : State, s.head.awake = true → s.head.stg.owner = none → RunsHead .takeOwnership s fun h =>
    h.stg = { s.head.stg with owner := some (s.head.mailbox.take 32), result := 0 } ∧ h = { s.head with regs := h.regs, stg := h.stg }) ∧
  (∀ (s : State) (k : Bytes), s.head.awake = true → s.head.stg.owner = some k → RunsHead .takeOwnership s fun h =>
    h.stg = { s.head.stg with result := 5 } ∧ h = { s.head with regs := h.regs, stg := h.stg }) ∧
  (∀ (s : State) (n : Nat), s.head.awake = true → n < 16 → RunsHead .takeOwnership s fun h => h.reg (Adr.STG_TOKEN n) = 0)

/-- A slot that retires while a lease of it still has values stays ACTIVE; without one it becomes DECRYPT-ONLY with source 866. SANITIZE ARM ends when its minutes have passed and not before. The peer's unsealing needs PEER_UNSEAL, no alarm latch, the link and a pair key. A pair-key proof that fails leaves no pair key and raises source 874. An alarm of cause 0 to 4 on a running head seals, latches, empties the leases and takes context and pair key; another cause changes nothing. A decode that is not in hand changes nothing; one that passes every check hands its plaintext on. (R129, R130, R132, R137, R142, R143, 06_cipher_and_strongroom.md) -/
def Obligations.KeysRetireExpireAndSeal : Prop :=
  (∀ (s : State) (n : Nat), (s.head.stg.slot n).state = 2 → (s.head.stg.slot n).retiring = true →
    (s.head.stg.leases.any (fun l => l.slot == n && decide (l.next < l.stop)) = true → RunsHead (.slotRetired n) s fun h => h = s.head) ∧
    (s.head.stg.leases.any (fun l => l.slot == n && decide (l.next < l.stop)) = false → RunsHead (.slotRetired n) s fun h =>
      h.stg.slot n = { s.head.stg.slot n with state := 3, record := 3 } ∧ h.src 866 = (s.head.src 866).raised)) ∧
  (∀ (s : State) (t : Nat), s.head.stg.armedUntil = some t →
    (s.head.now < t → RunsHead .sanitizeArmExpiry s fun h => h = s.head) ∧
    (t ≤ s.head.now → RunsHead .sanitizeArmExpiry s fun h => h = { s.head with stg := { s.head.stg with armedUntil := none } })) ∧
  (∀ s : State, (s.head.stg.alarmLatch = true ∨ s.head.pair.icl = false ∨ s.head.stg.pairKey = none ∨ s.head.bit Adr.STG_CTRL 1 = false) →
    RunsHead .peerUnseal s fun h => h = s.head) ∧
  (∀ s : State, s.head.stg.alarmLatch = false → s.head.pair.icl = true → s.head.stg.pairKey.isSome = true → s.head.bit Adr.STG_CTRL 1 = true →
    RunsHead .peerUnseal s fun h => h.stg.unsealed = true ∧ (s.head.stg.unsealed = false → h.src 869 = (s.head.src 869).raised)) ∧
  (∀ (s : State) (p : PeerRecords), s.head.pair.icl = true → s.head.stg.owner.isSome = true → p.proofOk = false →
    RunsHead (.pairKeyAgreement p) s fun h => h.stg = { s.head.stg with pairKey := none } ∧ h.src 874 = (s.head.src 874).raised) ∧
  (∀ (s : State) (p : PeerRecords), s.head.pair.icl = true → s.head.stg.owner.isSome = true → p.proofOk = true →
    s.head.flown ≠ [] → p.sanitizeGen ≤ s.head.stg.sanGen → RunsHead (.pairKeyAgreement p) s fun h =>
      h.stg = { s.head.stg with pairKey := some (s.head.freeBytes 32), saltWait := [] }) ∧
  (∀ (s : State) (c : Nat), c < 5 → s.head.awake = true → RunsHead (.strongroomAlarm c) s fun h => h.stg.alarmLatch = true ∧
    h.stg.unsealed = false ∧ h.stg.ctxKey = [] ∧ h.stg.pairKey = none ∧ h.stg.leases = []) ∧
  (∀ (s : State) (c : Nat), 5 ≤ c → RunsHead (.strongroomAlarm c) s fun h => h = s.head) ∧
  (∀ (s : State) (n : Nat) (r : DecodeResult), s.head.dp.task? n = none → RunsHead (.chunkDecodeDone n r) s fun h => h = s.head) ∧
  (∀ (s : State) (n : Nat) (r : DecodeResult) (t : Task) (c : Chunk), s.head.dp.task? n = some t → s.head.dp.chunk? t.uid = some c →
    t.waiting = none → ((s.head.dp.booth t.site).streamOf 3 n).isSome = true → s.head.keyFailure c = none → decodeEnd c r = .good →
    RunsHead (.chunkDecodeDone n r) s fun h => h = s.head.taskGood t c r.plain)

/-- A FREE channel is claimed by a core and is CLAIMED with it as owner; a claim of another channel sets REFUSED alone. BEGIN with a defined algorithm and no key enters ABSORB with the algorithm's initial state and the length as written; an undefined algorithm ends in ERROR with code 7. GO with a length that is no multiple of 4 is code 5, one beyond the declared message code 1, another one starts the run. The end of a run of populated memory absorbs exactly its bytes; one outside the map is code 4. A last word before the end of the DMA portion is code 2, one with a wrong count code 3. SQUEEZE is refused for another algorithm than SHAKE256. SUSPEND away from a block boundary sets SUSPEND_REFUSED alone, at one shows the state record and is SUSPENDED. RESTORE of a record that does not verify is code 6. RELEASE frees the channel and zeroes its key registers. (R145, R149, R150, R151, R152, R153, R156, 07_digest_engine.md) -/
def Obligations.DigestChannelsRunMessages : Prop :=
  (∀ (s : State) (core n : Nat) (c : Chan), s.head.dgt.chans.find? (·.ch == n) = some c → core < 16 →
    (c.state = 0 → RunsHead (.dgtClaim core n) s fun h => h = { s.head with dgt := h.dgt } ∧ h.dgt.chan n = { c with state := 1, owner := core }) ∧
    (c.state ≠ 0 → RunsHead (.dgtClaim core n) s fun h => h = s.head.chanFlag n 8)) ∧
  (∀ (s : State) (core n : Nat) (c : Chan), s.head.dgt.chans.find? (·.ch == n) = some c → c.owner = core → c.state = 1 →
    ((s.head.sampleChan c).mode = 0 → algDefined (s.head.sampleChan c).alg = true → RunsHead (.dgtBegin core n) s fun h =>
      h = { s.head with dgt := h.dgt } ∧ (h.dgt.chan n).state = 2 ∧ (h.dgt.chan n).words = algInit (s.head.sampleChan c).alg ∧
      (h.dgt.chan n).len = (s.head.sampleChan c).len ∧ (h.dgt.chan n).count = 0) ∧
    (algDefined (s.head.sampleChan c).alg = false → RunsHead (.dgtBegin core n) s fun h =>
      (h.dgt.chan n).state = 6 ∧ (h.dgt.chan n).code = 7 ∧ h.src 880 = (s.head.src 880).raised) ∧
    ((s.head.sampleChan c).mode = 0 → algDefined (s.head.sampleChan c).alg = true → s.head.recordBody (s.head.sampleChan c) c.window = none →
      RunsHead (.dgtRestore core n) s fun h => (h.dgt.chan n).state = 6 ∧ (h.dgt.chan n).code = 6)) ∧
  (∀ (s : State) (core n len addr : Nat) (c : Chan), s.head.dgt.chans.find? (·.ch == n) = some c → c.owner = core → c.state = 2 →
    len = (s.head.reg (Adr.DGT_CH_RUNLEN n)).toNat →
    addr = (s.head.reg (Adr.DGT_CH_SRC_LO n)).toNat + s.head.fld (Adr.DGT_CH_SRC_HI n) 15 0 * 2 ^ 32 →
    (len % 4 ≠ 0 → RunsHead (.dgtGo core n) s fun h => (h.dgt.chan n).state = 6 ∧ (h.dgt.chan n).code = 5) ∧
    (len % 4 = 0 → 4 * (c.len / 4) < c.count + len → RunsHead (.dgtGo core n) s fun h => (h.dgt.chan n).state = 6 ∧ (h.dgt.chan n).code = 1) ∧
    (len % 4 = 0 → c.count + len ≤ 4 * (c.len / 4) → RunsHead (.dgtGo core n) s fun h => h = { s.head with dgt := h.dgt } ∧
      h.dgt.chan n = { c with state := 3, run := some (addr, len) })) ∧
  (∀ (s : State) (n a len : Nat) (c : Chan), s.head.dgt.chans.find? (·.ch == n) = some c → c.state = 3 → c.run = some (a, len) → c.lastWord = none →
    (s.head.rangePopulated a len = true → Runs (.dgtRunEnd n) s fun t => t.mem = s.mem ∧ (t.head.dgt.chan n).state = 2 ∧
      (t.head.dgt.chan n).count = c.count + len ∧
      ((t.head.dgt.chan n).words, (t.head.dgt.chan n).part) = algFeed c.alg c.words c.part (s.dmaBytes a len)) ∧
    (s.head.rangePopulated a len = false → Runs (.dgtRunEnd n) s fun t => (t.head.dgt.chan n).state = 6 ∧ (t.head.dgt.chan n).code = 4)) ∧
  (∀ (s : State) (core n valid : Nat) (w : Word) (c : Chan), s.head.dgt.chans.find? (·.ch == n) = some c → c.owner = core → c.state = 2 →
    valid = s.head.fld (Adr.DGT_CH_LASTCNT n) 1 0 →
    (c.count < 4 * (c.len / 4) → RunsHead (.dgtLastWord core n w) s fun h => (h.dgt.chan n).state = 6 ∧ (h.dgt.chan n).code = 2) ∧
    (c.count = 4 * (c.len / 4) → valid ≠ c.len % 4 → RunsHead (.dgtLastWord core n w) s fun h =>
      (h.dgt.chan n).state = 6 ∧ (h.dgt.chan n).code = 3) ∧
    (c.count = 4 * (c.len / 4) → valid = c.len % 4 → RunsHead (.dgtLastWord core n w) s fun h =>
      h = s.head.chanFinish n ((leBytes 4 w.toNat).take valid))) ∧
  (∀ (s : State) (core n : Nat) (c : Chan), s.head.dgt.chans.find? (·.ch == n) = some c → c.owner = core →
    (c.state = 4 → c.alg ≠ 5 → RunsHead (.dgtSqueeze core n) s fun h => h = s.head.chanFlag n 8) ∧
    (c.state = 4 → c.alg = 5 → c.outLen ≠ 0 → RunsHead (.dgtSqueeze core n) s fun h => (h.dgt.chan n).squeezed = c.squeezed + c.outLen ∧
      (h.dgt.chan n).digest = algRead 5 c.squeezed c.outLen c.words) ∧
    (c.state = 2 → c.count % algBlock c.alg ≠ 0 → RunsHead (.dgtSuspend core n) s fun h => h = s.head.chanFlag n 9) ∧
    (c.state = 2 → c.count % algBlock c.alg = 0 → RunsHead (.dgtSuspend core n) s fun h => (h.dgt.chan n).state = 5 ∧
      (h.dgt.chan n).window = s.head.stateRecord c ∧ (h.dgt.chan n).words = c.words) ∧
    (c.state ≠ 0 → c.state ≤ 6 → RunsHead (.dgtRelease core n) s fun h => h.dgt.chan n = { ch := n } ∧
      ∀ k, k < 32 → h.reg (Adr.DGT_KEY n k) = 0)) ∧
  (∀ (s : State) (core n k : Nat) (w : Word) (c : Chan), s.head.dgt.chans.find? (·.ch == n) = some c → c.state ≠ 0 → c.owner = core →
    RunsHead (.dgtExpectWrite core n k w) s fun h => h = { s.head with dgt := h.dgt } ∧
      h.dgt.chan n = { c with expect := c.expect.set k w, expectInv := c.expectInv.set k (~~~w) })

/-- While a channel belongs to one core, BEGIN, GO, RESTORE, RELEASE, SUSPEND, SQUEEZE, the last word and the expected words of another core raise source 882 and change nothing else of the head. (R149, 07_digest_engine.md) -/
def Obligations.AnotherCoresChannelIsRefused : Prop :=
  ∀ (i : Instr) (s : State) (core n k : Nat) (w : Word) (c : Chan),
    i ∈ [Instr.dgtBegin core n, .dgtGo core n, .dgtRestore core n, .dgtRelease core n, .dgtSuspend core n, .dgtSqueeze core n,
      .dgtLastWord core n w, .dgtExpectWrite core n k w] →
    s.head.dgt.chans.find? (·.ch == n) = some c → c.state ≠ 0 → c.owner ≠ core →
    RunsHead i s fun h => h = s.head.raise 882 ∧ h.dgt = s.head.dgt

/-- A landing write of a troupe that this head flies joins the requests of its row, last; of another troupe it changes nothing. The first request of a row takes the lock when no request holds it and no rebuild holds the row, and its reads are made ready; a row that is held grants nothing. A close timer that has not passed changes nothing, one that has closes the stripe. When the journal has room, the launches that waited for it stop waiting; without room they wait on. A second record of one operation counts in counter 0xC, raises source 549 and has no other effect; a record of an operation that is not in flight has none. The first record of an operation of a vault bundle that still waits for another is entered with its status, data and time, and nothing else changes. A late operation before its limit changes nothing; at its limit it counts in counter 0xD and against its module, raises source 548 and is entered as failed. (R170, R177, R179, R182, R183, R184, 08_block_protection_and_stripes.md) -/
def Obligations.RowLocksAndBackEndCompletions : Prop :=
  (∀ (s : State) (r : LandingReq), s.head.flies r.troupe = true → s.head.pty.landing.any (·.1 == r.stripe) = true → r.row ≤ 31 →
    r.data < (s.head.landGeom r.stripe).2 → RunsHead (.landingWriteRequest r) s fun h => h = { s.head with pty := { s.head.pty with
      rows := s.head.pty.rows ++ [{ stripe := r.stripe, row := r.row, data := r.data, troupe := r.troupe, block := fit 4096 r.block, guard := r.guard }] } }) ∧
  (∀ (s : State) (r : LandingReq), s.head.flies r.troupe = false → RunsHead (.landingWriteRequest r) s fun h => h = s.head) ∧
  (∀ (s : State) (st row : Nat) (r : RowWrite), s.head.row? st row = none → s.head.rebuildHolds st row = false →
    s.head.pty.rows.find? (fun r => r.stripe == st && r.row == row) = some r → RunsHead (.rowLockGrant st row) s fun h =>
      h.row? st row = some { r with locked := true, step := 2 } ∧ h.pty.bundles.length = s.head.pty.bundles.length + 1 ∧
      h = { s.head with pty := h.pty }) ∧
  (∀ (s : State) (st row : Nat), (s.head.row? st row).isSome = true → RunsHead (.rowLockGrant st row) s fun h => h = s.head) ∧
  (∀ (s : State) (n : Nat) (x : Stripe), s.head.stripe? n = some x → x.phase = .opened → x.closeAt ≠ 0 →
    (s.head.now < x.closeAt → RunsHead (.stripeCloseTimer n) s fun h => h = s.head) ∧
    (x.closeAt ≤ s.head.now → RunsHead (.stripeCloseTimer n) s fun h => h = s.head.closeStripe n)) ∧
  (∀ (s : State) (t : Troupe), s.head.jrnRoom t (96 + 3 * 4112) = true → s.head.jrnNone t = false →
    (s.head.pty.rows.filter fun r => r.troupe == t && r.locked && r.step == 3) = [] → RunsHead (.journalAreaRoom t) s fun h =>
      h = { s.head with pty := h.pty } ∧ (match t with | .a => h.pty.jrnWait.1 | .b => h.pty.jrnWait.2) = false) ∧
  (∀ (s : State) (t : Troupe), s.head.jrnRoom t (96 + 3 * 4112) = false → RunsHead (.journalAreaRoom t) s fun h => h = s.head) ∧
  (∀ (s : State) (c : Completion) (b : Bundle) (o : BackOp) (st : Nat), s.head.cal.flush ≠ 1 → s.head.flying? c.op = some (b, o) →
    o.status = some st → st ≠ lateStatus → RunsHead (.memberCompletion c) s fun h => h = (s.head.ptyCount 0xC 1).raise 549) ∧
  (∀ (s : State) (c : Completion), s.head.cal.flush ≠ 1 → s.head.flying? c.op = none →
    RunsHead (.memberCompletion c) s fun h => h = s.head) ∧
  (∀ (s : State) (c : Completion) (b : Bundle) (o : BackOp) (hd : Nat), s.head.cal.flush ≠ 1 →
    s.head.flying? c.op = some (b, o) → s.head.pty.bundles = [b] → b.kind = .vault hd → o.status = none → c.status = 0 → c.tagRows = [] →
    b.ops.any (fun x => x.op != c.op && x.status.isNone) = true → (b.ops.find? (·.op == c.op)) = some o →
    RunsHead (.memberCompletion c) s fun h => h = s.head.modOp b.id c.op fun o => { o with
      status := some 0, tagRows := [], mediaRows := if o.byBlock then c.mediaRows else [], data := c.data, arrived := s.head.now }) ∧
  (∀ (s : State) (op : Nat) (b : Bundle) (o : BackOp) (x y t : Nat), s.head.cal.flush ≠ 1 → s.head.flying? op = some (b, o) →
    b.launched = some (x, y, t) → s.head.now < t + b.lateAfter → RunsHead (.memberLate op) s fun h => h = s.head) ∧
  (∀ (s : State) (op : Nat) (b : Bundle) (o : BackOp) (x y t : Nat), s.head.flying? op = some (b, o) → b.launched = some (x, y, t) →
    o.status = none → t + b.lateAfter ≤ s.head.now → Runs (.memberLate op) s fun u =>
      u = ({ s with head := ((((s.head.ptyCount 0xD 1).raise 548).countModule b.shelf o.mdl 0).modOp b.id op fun z =>
        { z with status := some lateStatus, arrived := (((s.head.ptyCount 0xD 1).raise 548).countModule b.shelf o.mdl 0).now }).recordIn b.id op }
          : State).flushIfWritten)

/-- A removed or fatal module is declared FAILED with its cause, a worn warning declares it WORN, and a percentage below WEAR_PCT changes nothing; late, program and media causes are counted on the module. A module that is already out of service takes no count. Admission by the spare master makes the selected ABSENT module HEALTHY with no counts; without an ABSENT module there it changes nothing. A rebuild that does not exist launches nothing, one that is busy or without credit neither. A moved journal copy is healthy, in its new module, with source 568. A group that is not closed is not reclaimed. A read of the loss list shows the entry, and zeros past its end. (R187, R188, R189, R196, R200, R201, R206, 09_rebuild_and_reshape.md) -/
def Obligations.ModulesAreReportedAdmittedAndRebuilt : Prop :=
  (∀ (s : State) (sh m : Nat),
    (RunsHead (.moduleStatusReport sh m .removed) s fun h => h = s.head.declareModule sh m false 3 0) ∧
    (RunsHead (.moduleStatusReport sh m .fatal) s fun h => h = s.head.declareModule sh m false 4 0) ∧
    (RunsHead (.moduleStatusReport sh m .wornWarning) s fun h => h = s.head.declareModule sh m true 5 0) ∧
    (∀ p, p < s.head.wearPct → RunsHead (.moduleStatusReport sh m (.percentUsed p)) s fun h => h = s.head) ∧
    (1 < (s.head.mnd.mdl sh m).state → ∀ c ∈ [ModuleCause.late, .program, .media, .removed, .fatal, .wornWarning],
      RunsHead (.moduleStatusReport sh m c) s fun h => h = s.head)) ∧
  (∀ (s : State) (sh m : Nat), sh = s.head.fld Adr.MND_MEMBER_SEL 6 0 → m = s.head.fld Adr.MND_MEMBER_SEL 13 8 →
    s.head.mnd.modules.any (fun x => x.shelf == sh && x.mdl == m && x.state == 5) = false → RunsHead .moduleAdmit s fun h => h = s.head) ∧
  (∀ (s : State) (sh m : Nat), sh = s.head.fld Adr.MND_MEMBER_SEL 6 0 → m = s.head.fld Adr.MND_MEMBER_SEL 13 8 →
    s.head.mnd.modules.any (fun x => x.shelf == sh && x.mdl == m && x.state == 5) = true → s.head.pair.spareMaster = true →
    s.head.bit Adr.MND_CFG 8 = false → s.head.dp.pchunks = [] → RunsHead .moduleAdmit s fun h =>
      (h.mnd.mdl sh m).state = 0 ∧ (h.mnd.mdl sh m).late = [] ∧ (h.mnd.mdl sh m).media = [] ∧ (h.mnd.mdl sh m).program = []) ∧
  (∀ (s : State) (n p : Nat), s.head.mnd.rebuilds.find? (·.id == n) = none → RunsHead (.rebuildUnitLaunch n p) s fun h => h = s.head) ∧
  (∀ (s : State) (n p : Nat) (r : Rebuild), s.head.mnd.rebuilds.find? (·.id == n) = some r → r.spareKind ≠ 3 →
    RunsHead (.rebuildUnitLaunch n p) s fun h => h = s.head.launchUnit r p) ∧
  (∀ (s : State) (n p : Nat) (r : Rebuild), s.head.mnd.rebuilds.find? (·.id == n) = some r → r.spareKind = 3 →
    RunsHead (.rebuildUnitLaunch n p) s fun h => h = s.head.evacuate r) ∧
  (∀ (s : State) (t : Troupe) (m : Nat), (s.head.mnd.jrnEff[troupeBit t]?).bind (·.2.2) = some m →
    RunsHead (.journalCopyMoved t) s fun h => h.src 568 = (s.head.src 568).raised ∧ h = { s.head with pty := h.pty, mnd := h.mnd, brk := h.brk, regs := h.regs }) ∧
  (∀ (s : State) (g : Nat) (x : Group), s.head.pty.groups.find? (·.id == g) = some x → x.closed = false →
    RunsHead (.zoneGroupReclaim g) s fun h => h = s.head) ∧
  (∀ (s : State) (g : Nat) (x : Group), s.head.pty.groups.find? (·.id == g) = some x → x.closed = true → x.reset = false →
    (s.head.shf.shelf x.shelf).state = 3 → 0 < x.k * x.units * unitBytes * s.head.livePct → s.head.groupChunks g = [] →
    RunsHead (.zoneGroupReclaim g) s fun h => h = s.head.reclaim g) ∧
  (∀ (s : State) (i : Word), RunsHead (.mndLossRead i) s fun h => h = { s.head with regs := h.regs, mnd := h.mnd } ∧
    h.mnd.lossData = leWords 16 (((s.head.mnd.loss[i.toNat]?).map Loss.encode).getD (zeros 64)))

/-- A start while a job is active leaves that job and shows reason 0x1 (log 30); a start whose reason of R207 is not 0 leaves the job REFUSED with that reason and moves nothing; a start with nothing to move is DONE at once. A pause is noted while a job runs and otherwise changes nothing. A resume takes only a PAUSED job. An abort is noted while a job runs, ends a PAUSED one at once and otherwise changes nothing. A boundary move of a job that does not run changes nothing; with the batch done it passes the boundary. (R207, R208, R211, 09_rebuild_and_reshape.md) -/
def Obligations.ReshapeJobsStartPauseAndAbort : Prop :=
  (∀ s : State, (s.head.mnd.reshape.state = 1 ∨ s.head.mnd.reshape.state = 2) → RunsHead .reshapeStart s fun h =>
    h = { s.head with mnd := { s.head.mnd with reshape := { s.head.mnd.reshape with reason := 1 } } }) ∧
  (∀ (s : State) (n : Nat) (t : Troupe), s.head.mnd.reshape.state ≠ 1 → s.head.mnd.reshape.state ≠ 2 →
    t = (if s.head.bit Adr.MND_RSH_CFG 7 then .b else .a) →
    n = s.head.reshapeReason (s.head.fld Adr.MND_RSH_CFG 6 0) t (s.head.fld Adr.MND_RSH_CFG 12 8) (s.head.fld Adr.MND_RSH_CFG 20 16) → n ≠ 0 →
    RunsHead .reshapeStart s fun h => h = { s.head with mnd := { s.head.mnd with reshape := { s.head.mnd.reshape with state := 5, reason := n } } }) ∧
  (∀ s : State, s.head.mnd.reshape.state = 1 → RunsHead .reshapePause s fun h =>
    h = { s.head with mnd := { s.head.mnd with reshape := { s.head.mnd.reshape with pauseAsked := true } } }) ∧
  (∀ s : State, s.head.mnd.reshape.state ≠ 1 → RunsHead .reshapePause s fun h => h = s.head) ∧
  (∀ s : State, s.head.mnd.reshape.state = 2 → RunsHead .reshapeResume s fun h =>
    h = ({ s.head with mnd := { s.head.mnd with reshape := { s.head.mnd.reshape with state := 1, pauseAsked := false } } } : Head).startBatch) ∧
  (∀ s : State, s.head.mnd.reshape.state ≠ 2 → RunsHead .reshapeResume s fun h => h = s.head) ∧
  (∀ s : State, s.head.mnd.reshape.state = 1 → RunsHead .reshapeAbort s fun h =>
    h = { s.head with mnd := { s.head.mnd with reshape := { s.head.mnd.reshape with abortAsked := true } } }) ∧
  (∀ s : State, s.head.mnd.reshape.state = 2 → RunsHead .reshapeAbort s fun h => h = { s.head with mnd := { s.head.mnd with
      reshape := { s.head.mnd.reshape with state := 4, pauseAsked := false, abortAsked := false, inBatch := [] } } }) ∧
  (∀ s : State, s.head.mnd.reshape.state ≠ 1 → RunsHead .reshapeBoundaryMove s fun h => h = s.head) ∧
  (∀ s : State, s.head.mnd.reshape.state = 1 → s.head.batchDone = true → RunsHead .reshapeBoundaryMove s fun h =>
    h = s.head.passBatch ∧ h.src 570 = (s.head.src 570).raised)

/-- A step on a stripe that is not committed, is on another shelf, or whose shelf is not open changes nothing; a step without findings of a stripe that holds no chunk begins the visit with the present limit. The end of a visit takes it off, notes the time and raises source 572; without a visit nothing changes. A cold shelf past its interval that has not been told for a day raises source 571, and within the interval nothing changes. (R212, R213, 09_rebuild_and_reshape.md) -/
def Obligations.PatrolVisitsStepEndAndOverdue : Prop :=
  (∀ (s : State) (f : PatrolFinding) (x : Stripe), s.head.stripe? f.stripe = some x →
    (x.phase ≠ .committed ∨ x.shelf ≠ f.shelf ∨ (s.head.shf.shelf f.shelf).state ≠ 3) → RunsHead (.patrolVisitStep f) s fun h => h = s.head) ∧
  (∀ (s : State) (f : PatrolFinding) (x : Stripe), s.head.stripe? f.stripe = some x → x.phase = .committed → x.shelf = f.shelf →
    (s.head.shf.shelf f.shelf).state = 3 → f.tagFails = [] → f.parityRows = [] → s.head.chunksIn [x.number] = [] →
    s.head.mnd.patrol = [] → s.head.pty.groups.find? (·.id == x.group) = none → RunsHead (.patrolVisitStep f) s fun h =>
      h = { s.head with mnd := h.mnd } ∧ h.mnd.patrol = [(f.shelf, 0, orIfZero 1 (s.head.fld Adr.MND_PATROL 23 16))]) ∧
  (∀ (s : State) (sh : Nat) (v : Nat × Nat × Nat), s.head.mnd.patrol.find? (·.1 == sh) = some v → RunsHead (.patrolVisitComplete sh) s fun h =>
    h.src 572 = (s.head.src 572).raised ∧ (∀ x ∈ h.mnd.patrol, x.1 ≠ sh) ∧ assocGet sh 0 h.mnd.lastPatrol = s.head.opNow) ∧
  (∀ (s : State) (sh : Nat), s.head.mnd.patrol.find? (·.1 == sh) = none → RunsHead (.patrolVisitComplete sh) s fun h => h = s.head) ∧
  (∀ (s : State) (sh : Nat), s.head.landing sh = false → assocGet sh 0 s.head.mnd.lastPatrol + s.head.patrolDays * 86400 < s.head.opNow →
    s.head.mnd.overdue.find? (·.1 == sh) = none → RunsHead (.patrolOverdue sh) s fun h => h.src 571 = (s.head.src 571).raised ∧
      h = { s.head with mnd := { s.head.mnd with overdue := assocSet sh s.head.opNow s.head.mnd.overdue }, brk := h.brk, regs := h.regs }) ∧
  (∀ (s : State) (sh : Nat), s.head.opNow ≤ assocGet sh 0 s.head.mnd.lastPatrol + s.head.patrolDays * 86400 →
    RunsHead (.patrolOverdue sh) s fun h => h = s.head)

/-- A demand is served when this head is power master or the link is up; a demand of an open shelf, but for a fill, changes nothing. A slot that does not admit power operations, or that was taken, is no power slot; in a power slot the other head only samples SHF_POLICY, and the power master samples the figures of its shelves too and then serves demands and makes the transitions due. A CLOSING shelf with every stripe settled gets its shutdown once, one with a stripe in hand does not. A shelf whose shutdown was sent and has ended is shut down, and is armed off by the power master alone. A WAKING shelf without a link comes up linked. With every module ready a linked WAKING shelf opens: its state is 3, its failed attempts are 0. A first wake timeout raises source 434 and counts one failed attempt, a timeout of the second attempt puts the shelf into FAULT with source 435; before 2 x WAKE_MS nothing changes. (R222, R224, R225, R226, R239, 10_shelves_and_the_wheel.md) -/
def Obligations.ShelvesWakeOpenAndClose : Prop :=
  (∀ (s : State) (k : DemandKind) (sh d : Nat), s.head.pair.spareMaster = false → s.head.pair.icl = false →
    RunsHead (.shelfDemand k sh d) s fun h => h = s.head) ∧
  (∀ (s : State) (sh d : Nat), (s.head.shf.shelf sh).state = 3 → RunsHead (.shelfDemand .stage sh d) s fun h => h = s.head) ∧
  (∀ (s : State) (k : DemandKind) (sh d : Nat), (s.head.pair.spareMaster = true ∨ s.head.pair.icl = true) → s.head.shelfOn sh = true →
    (s.head.shf.shelf sh).state ≠ 3 → k ≠ .background → RunsHead (.shelfDemand k sh d) s fun h =>
      h = s.head.demand { kind := k, shelf := sh, deadline := some d }) ∧
  (∀ (s : State) (l : List Nat), (s.head.admits s.head.whl.slot clsPower = false ∨ s.head.shf.slotDone = some s.head.whl.slotCount) →
    RunsHead (.powerSlot l) s fun h => h = s.head) ∧
  (∀ (s : State) (l : List Nat), s.head.pair.spareMaster = false → s.head.admits s.head.whl.slot clsPower = true →
    s.head.shf.slotDone ≠ some s.head.whl.slotCount →
    RunsHead (.powerSlot l) s fun h => h = { s.head with shf := { s.head.shf with
      policy := s.head.reg Adr.SHF_POLICY, slotDone := some s.head.whl.slotCount } }) ∧
  (∀ (s : State) (l : List Nat), s.head.pair.spareMaster = true → s.head.admits s.head.whl.slot clsPower = true →
    s.head.shf.slotDone ≠ some s.head.whl.slotCount →
    RunsHead (.powerSlot l) s fun h => h = (s.head.sampleShelves.atPowerSlot l).forEach s.head.sampleShelves.shelvesOn Head.rewake) ∧
  (∀ (s : State) (sh : Nat), (s.head.shf.shelf sh).state = 4 → (s.head.shf.shelf sh).shn = false →
    (s.head.pty.stripes.any (fun x => x.shelf == sh && x.phase != .committed && x.phase != .voided) = false →
      RunsHead (.shelfStripesSettled sh) s fun h => h = { s.head with shf := h.shf, out := .shutdown sh :: s.head.out } ∧
        h.shf.shelf sh = { s.head.shf.shelf sh with shn := true }) ∧
    (s.head.pty.stripes.any (fun x => x.shelf == sh && x.phase != .committed && x.phase != .voided) = true →
      RunsHead (.shelfStripesSettled sh) s fun h => h = s.head)) ∧
  (∀ (s : State) (sh : Nat), (s.head.shf.shelf sh).state = 4 → (s.head.shf.shelf sh).shn = true → (s.head.shf.shelf sh).shutDown = false →
    s.head.pair.spareMaster = false → RunsHead (.shelfShutdownDone sh) s fun h => h = { s.head with shf := h.shf } ∧
      h.shf.shelf sh = { s.head.shf.shelf sh with shutDown := true }) ∧
  (∀ (s : State) (sh : Nat), (s.head.shf.shelf sh).state = 2 → (s.head.shf.shelf sh).linked = false →
    RunsHead (.shelfLinkUp sh) s fun h => h = { s.head with shf := h.shf, out := h.out } ∧
      h.shf.shelf sh = { s.head.shf.shelf sh with linked := true }) ∧
  (∀ (s : State) (sh : Nat), (s.head.shf.shelf sh).state = 2 → (s.head.shf.shelf sh).linked = true → s.head.shf.demands = [] →
    s.head.dp.pchunks = [] → s.head.mnd.relocate = [] → s.head.pty.groups = [] → s.head.landing sh = false →
    RunsHead (.shelfOpen sh []) s fun h => (h.shf.shelf sh).state = 3 ∧ (h.shf.shelf sh).failed = 0 ∧
      (h.shf.shelf sh).lastWakeMs = (s.head.now - (s.head.shf.shelf sh).since) / 1000) ∧
  (∀ (s : State) (sh : Nat) (l : List Nat), (s.head.shf.shelf sh).state ≠ 2 → RunsHead (.shelfOpen sh l) s fun h => h = s.head) ∧
  (∀ (s : State) (sh : Nat), (s.head.shf.shelf sh).state = 2 → (s.head.shf.shelf sh).linked = false → (s.head.shf.shelf sh).armed = none →
    (s.head.now < (s.head.shf.shelf sh).since + 2 * s.head.wakeMs sh * 1000 → RunsHead (.shelfWakeTimeout sh) s fun h => h = s.head) ∧
    ((s.head.shf.shelf sh).since + 2 * s.head.wakeMs sh * 1000 ≤ s.head.now → (s.head.shf.shelf sh).failed = 0 → s.head.pair.spareMaster = false →
      RunsHead (.shelfWakeTimeout sh) s fun h => (h.shf.shelf sh).failed = 1 ∧ h.src 434 = (s.head.src 434).raised) ∧
    ((s.head.shf.shelf sh).since + 2 * s.head.wakeMs sh * 1000 ≤ s.head.now → (s.head.shf.shelf sh).failed = 2 →
      RunsHead (.shelfWakeTimeout sh) s fun h => (h.shf.shelf sh).state = 6 ∧ h.src 435 = (s.head.src 435).raised))

/-- A port of the 16 that loses its link is lost and its source of 416 to 431 is raised; one already lost changes nothing. A bus that stays stuck is marked and raises source 436; one that was cleared is not. A stage hold ends at its expiry and the other holds stay. A FENCED report for a troupe that is not flown, or that no fencing waits for, changes nothing; one that is awaited ends the fencing of that shelf and troupe. A refused write completes with status 0x7C0 and raises source 619; an operation that has already reported, or a read, is not refused. A late doorbell counts, and raises source 440 only the first time in a beat. (R217, R220, R231, R237, R255, R256, R258, 10_shelves_and_the_wheel.md, 11_troupes_flyer_catcher_baton.md) -/
def Obligations.BackEndPortsBridgesAndBaton : Prop :=
  (∀ (s : State) (p : Nat) (r : Bool), (16 ≤ p ∨ (s.head.shf.port p).lost = true) → RunsHead (.backendPortLost p r) s fun h => h = s.head) ∧
  (∀ (s : State) (p : Nat), p < 16 → (s.head.shf.port p).lost = false → s.head.flies .a = false → s.head.flies .b = false →
    RunsHead (.backendPortLost p false) s fun h => (h.shf.port p).lost = true ∧ h.src (416 + p) = (s.head.src (416 + p)).raised) ∧
  (∀ (s : State) (b : Nat), b < 4 →
    (RunsHead (.shelfBusStuck b true) s fun h => h = { s.head with shf := { s.head.shf with
      busStuck := s.head.shf.busStuck &&& ~~~(BitVec.ofNat 4 (2 ^ b)) } }) ∧
    (RunsHead (.shelfBusStuck b false) s fun h => h.src 436 = (s.head.src 436).raised ∧
      h.shf.busStuck = s.head.shf.busStuck ||| BitVec.ofNat 4 (2 ^ b))) ∧
  (∀ (s : State) (sh c : Nat), RunsHead (.stageHoldExpiry sh c) s fun h => h = { s.head with shf := h.shf } ∧
    ∀ x, x ∈ h.shf.holds ↔ x ∈ s.head.shf.holds ∧ ¬ (x.shelf = sh ∧ x.cntlid = c ∧ x.expiry ≤ s.head.now)) ∧
  (∀ (s : State) (sh : Nat) (t : Troupe) (l : List Nat), (s.head.flies t = false ∨ (sh, t) ∉ s.head.pair.fencing) →
    RunsHead (.bridgeFencedReport sh t l) s fun h => h = s.head) ∧
  (∀ (s : State) (sh : Nat) (t : Troupe) (l : List Nat), s.head.flies t = true → (sh, t) ∈ s.head.pair.fencing → s.head.dp.pchunks = [] →
    (s.head.awaited t).filter (·.shelf == sh) = [] → RunsHead (.bridgeFencedReport sh t l) s fun h =>
      (∀ x, x ∈ h.pair.fencing ↔ x ∈ s.head.pair.fencing ∧ x ≠ (sh, t)) ∧ ∀ g ∈ h.pty.groups, g.shelf = sh → g.troupe = t → g.fencing = false) ∧
  (∀ (s : State) (op : Nat) (b : Bundle) (o : BackOp), s.head.flying? op = some (b, o) → (o.status.isSome = true ∨ readsOf b.kind o.member = true) →
    RunsHead (.bridgeBatonRefusal op) s fun h => h = s.head) ∧
  (∀ (s : State) (op : Nat) (b : Bundle) (o : BackOp), s.head.flying? op = some (b, o) → o.status = none → readsOf b.kind o.member = false →
    RunsHead (.bridgeBatonRefusal op) s fun h => h = (((s.head.raise 619).modOp b.id op fun o =>
      { o with status := some 0x7C0, arrived := s.head.now }).recordIn b.id op).refusedBeat b.troupe) ∧
  (∀ (s : State) (op : Nat), (s.head.flying? op).isSome = true → RunsHead (.lateDoorbellReport op) s fun h =>
    h.whl = { s.head.whl with late := s.head.whl.late + 1, lateBeat := some s.head.whl.beat } ∧
    (s.head.whl.lateBeat ≠ some s.head.whl.beat → h.src 440 = (s.head.src 440).raised) ∧
    (s.head.whl.lateBeat = some s.head.whl.beat → h = { s.head with whl := h.whl }))

/-- While the Wheel stands still, or before its time, a seal and a slot start change nothing, and a slot is sealed once. A slot start at its time counts the slot on, and the cycle after slot 255, at the present time. A seal with nothing waiting launches nothing, counts no overrun and hands the next slot's plan over. A beat edge that is not at a multiple of 16 slots, or is done, changes nothing; else the beats of both troupes close, and then what takes effect at a beat edge does, in the order of the rules. A cycle edge is done once; it reserves 65,536 more counts when fewer than 2 are left, and a stretched cycle is not stretched again. (R17, R231, R232, R233, 10_shelves_and_the_wheel.md, 01_head_architecture.md) -/
def Obligations.WheelSlotsBeatsAndCycles : Prop :=
  (∀ (s : State) (o : Option Int), (s.head.whl.running = false ∨
      s.head.now < s.head.whl.slotAt + 16 + (if s.head.whl.slot = 255 then s.head.whl.stretch else 0)) →
    RunsHead (.slotStart o) s fun h => h = s.head) ∧
  (∀ (s : State) (o : Option Int), s.head.whl.running = true →
    s.head.whl.slotAt + 16 + (if s.head.whl.slot = 255 then s.head.whl.stretch else 0) ≤ s.head.now →
    RunsHead (.slotStart o) s fun h => h.whl.slot = (s.head.whl.slot + 1) % 256 ∧ h.whl.slotAt = s.head.now ∧
      h.whl.cycle = (if s.head.whl.slot = 255 then (s.head.whl.cycle + 1) % 2 ^ 40 else s.head.whl.cycle) ∧ h.cal.plan = s.head.cal.nextPlan) ∧
  (∀ s : State, (s.head.whl.running = false ∨ s.head.whl.sealedFor = s.head.whl.slotCount + 1 ∨
      s.head.now < s.head.whl.slotAt + 14 + (if s.head.whl.slot = 255 then s.head.whl.stretch else 0)) →
    RunsHead .slotSeal s fun h => h = s.head) ∧
  (∀ s : State, s.head.whl.running = true → s.head.whl.sealedFor ≠ s.head.whl.slotCount + 1 →
    s.head.whl.slotAt + 14 + (if s.head.whl.slot = 255 then s.head.whl.stretch else 0) ≤ s.head.now →
    (s.head.pty.bundles.filter (·.launched.isNone)) = [] → RunsHead .slotSeal s fun h => h = { s.head with whl := h.whl, cal := h.cal } ∧
      h.whl.sealedFor = s.head.whl.slotCount + 1 ∧ h.whl.overrun = s.head.whl.overrun ∧
      h.whl.launching = (s.head.whl.slotCount + 1, 0) :: s.head.whl.launching ∧
      h.cal.nextPlan = s.head.planCounts (s.head.whl.slotCount + 1) []) ∧
  (∀ s : State, (s.head.whl.running = false ∨ s.head.whl.slot % 16 ≠ 0 ∨ s.head.whl.edgeDone = some s.head.whl.beat) →
    RunsHead .beatEdge s fun h => h = s.head) ∧
  (∀ (s : State) (h₁ h₂ : Head), s.head.whl.running = true → s.head.whl.slot % 16 = 0 → s.head.whl.edgeDone ≠ some s.head.whl.beat →
    h₁ = (((({ s.head with whl := { s.head.whl with edgeDone := some s.head.whl.beat } } : Head).beatTroupe .a).beatTroupe .b).setRates).governBeat.beatLink →
    h₂ = ({ h₁ with cal := { h₁.cal with volume := h₁.flushVolume } } : Head).applyStaged →
    RunsHead .beatEdge s fun h => h = h₂.placeWaiting.tellShelves.tryAcks.activationStep) ∧
  (∀ s : State, (s.head.whl.running = false ∨ s.head.whl.slot ≠ 0 ∨ s.head.whl.cycleDone = some s.head.whl.cycle) →
    RunsHead .cycleEdge s fun h => h = s.head) ∧
  (∀ s : State, s.head.whl.running = true → s.head.whl.slot = 0 → s.head.whl.cycleDone ≠ some s.head.whl.cycle →
    RunsHead .cycleEdge s fun h => h.whl.cycleDone = some s.head.whl.cycle ∧ h.whl.cycle = s.head.whl.cycle ∧
      h.whl.reserved = (if s.head.whl.reserved ≤ s.head.whl.cycle + 1 then s.head.whl.reserved + 65536 else s.head.whl.reserved) ∧
      (s.head.whl.driver = false → s.head.whl.stepDue = false → h.whl.stretch = 0))

/-- A driver takes no part in a missing WHEEL_REF; another head takes the drive with source 675 when its peer is absent or it is power master, and else drives not. Contention raises source 679 on a driver alone, and makes head 1 stop at its next slot edge. A lost PTP lock of a driver raises source 672 and leaves HOLDOVER or FREE; one that was not held changes nothing. An acquired lock notes the offset from the grid and, with PTP_EN, locks the driver to PTP. A WHEEL_REF that is missing for 2 slots leaves the follower on WHEEL_TICK_IN with source 676. (R232, R233, R234, R376, 10_shelves_and_the_wheel.md) -/
def Obligations.WheelReferencesAreLostAndFound : Prop :=
  (∀ s : State, s.head.whl.driver = true → (RunsHead .wheelRefMissing s fun h => h = s.head) ∧ (RunsHead .refMissing s fun h => h = s.head)) ∧
  (∀ s : State, s.head.whl.driver = false → s.head.whl.running = true →
    ((s.head.pair.absent = true ∨ s.head.pair.spareMaster = true) → RunsHead .wheelRefMissing s fun h => h.whl.driver = true ∧
      h.whl.refSeen = false ∧ h.src 675 = (s.head.src 675).raised) ∧
    (s.head.pair.absent = false → s.head.pair.spareMaster = false → RunsHead .wheelRefMissing s fun h =>
      h = { s.head with whl := { s.head.whl with refSeen := false } }) ∧
    (RunsHead .refMissing s fun h => h.whl.lock = 4 ∧ h.whl.refMissing = 2 ∧ h.whl.tickSeen = true ∧ h.src 676 = (s.head.src 676).raised)) ∧
  (∀ s : State, (s.head.whl.driver = false → RunsHead .wheelRefContention s fun h => h = s.head) ∧
    (s.head.whl.driver = true → RunsHead .wheelRefContention s fun h => h.src 679 = (s.head.src 679).raised ∧
      h.whl = { s.head.whl with dropDrive := s.head.whl.dropDrive || s.head.headId == 1 })) ∧
  (∀ s : State, (s.head.whl.ptpLocked = false → RunsHead .ptpLockLost s fun h => h = s.head) ∧
    (s.head.whl.ptpLocked = true → s.head.whl.driver = true → RunsHead .ptpLockLost s fun h => h.src 672 = (s.head.src 672).raised ∧
      h.whl.ptpLocked = false ∧ h.whl.lock = (if s.head.whl.everLocked then 2 else 0)) ∧
    (s.head.whl.ptpLocked = true → s.head.whl.driver = false → RunsHead .ptpLockLost s fun h =>
      h = { s.head with whl := { s.head.whl with ptpLocked := false, ptpOfs := none } })) ∧
  (∀ s : State, s.head.whl.running = true → s.head.whl.ptpLocked = false → s.head.whl.driver = true → s.head.bit Adr.WHL_CFG 0 = true →
    s.head.whl.lock ≠ 5 → RunsHead .ptpLockAcquired s fun h => h.whl.lock = 1 ∧ h.whl.ptpOfs = some s.head.ptpOffset ∧ h = { s.head with whl := h.whl })

/-- A head that follows a troupe keeps a descriptor under its context index, in place of an older one of that index. A mirror chunk whose guard disagrees is asked for again and not kept; one that agrees is held and confirmed. A head that neither follows nor flies takes none. A negative confirm sends the chunk again; a positive one marks it confirmed and takes it off every Write that waited. An order is received by a follower alone. A Marker closes the beat of a Catcher with that number when no order waits and none came after the Marker's last, and of another role changes nothing. While joining, a digest is the one that the chain goes on from; an in-step head compares it. A journal entry whose MAGIC or CRC fails is not kept; a Turnstile record of 32 bytes that the peer relays is. A heartbeat clears the count of slots without one, and a power entry of the peer is noted. An image arming of the peer is kept by a head that has a pair-scoped arm for the same beat, and answered with an empty digest by a head with nothing armed (log 31). (R165, R178, R243, R244, R245, R246, R247, 11_troupes_flyer_catcher_baton.md, 08_block_protection_and_stripes.md) -/
def Obligations.PairMessagesReachTheTroupe : Prop :=
  (∀ (s : State) (t : Troupe) (op n l b a c : Nat), (s.head.pair.trp t).follows = true →
    RunsHead (.descriptorMessage t op n l b a c) s fun h => h = s.head.modTrp t fun p => { p with
      descriptors := p.descriptors.filter (fun d => d.2.2.2.2.2 != c) ++ [(op, n, l, b, a, c)] }) ∧
  (∀ (s : State) (t : Troupe) (op n l b a c : Nat), (s.head.pair.trp t).follows = false →
    RunsHead (.descriptorMessage t op n l b a c) s fun h => h = s.head) ∧
  (∀ (s : State) (t : Troupe) (hd : Nat) (bs : Bytes) (g : BitVec 64), (s.head.pair.trp t).follows = true →
    (crc64 bs ≠ g → RunsHead (.chunkMessage t hd bs g) s fun h => h = { s.head with out := .confirm t hd false :: s.head.out }) ∧
    (crc64 bs = g → (s.head.pair.trp t).waitingOrders = [] → (s.head.pair.trp t).marks = [] → RunsHead (.chunkMessage t hd bs g) s fun h =>
      h.out = .confirm t hd true :: s.head.out ∧
      { handle := hd, troupe := t, uid := none, bytes := bs, guard := g, dirty := true, mirror := true } ∈ h.dp.staged ∧
      hd ∈ (h.pair.trp t).confirmedHandles)) ∧
  (∀ (s : State) (t : Troupe) (hd : Nat) (bs : Bytes) (g : BitVec 64), (s.head.pair.trp t).follows = false → s.head.flies t = false →
    RunsHead (.chunkMessage t hd bs g) s fun h => h = s.head) ∧
  (∀ (s : State) (t : Troupe) (hd : Nat) (x : Staged), s.head.flies t = true →
    s.head.dp.staged.find? (fun x => x.handle == hd && x.troupe == t && !x.mirror) = some x →
    (RunsHead (.confirmMessage t hd false) s fun h => h = { s.head with out := .chunk t hd x.bytes x.guard :: s.head.out }) ∧
    (RunsHead (.confirmMessage t hd true) s fun h => h =
      (({ s.head with dp := { s.head.dp with staged := s.head.dp.staged.map fun y => if y.handle = hd ∧ !y.mirror then { y with confirmed := true } else y } } : Head).modHqe
        fun q => { q with ctxs := q.ctxs.map fun c => { c with unconfirmed := c.unconfirmed.filter (· != hd) } }).tryAcks)) ∧
  (∀ (s : State) (t : Troupe) (o : Order), (s.head.pair.trp t).follows = true → RunsHead (.orderMessage t o) s fun h => h = s.head.receiveOrder t o) ∧
  (∀ (s : State) (t : Troupe) (o : Order), (s.head.pair.trp t).follows = false → RunsHead (.orderMessage t o) s fun h => h = s.head) ∧
  (∀ (s : State) (t : Troupe) (b c l : Nat), (s.head.pair.trp t).role ≠ 2 → RunsHead (.markerMessage t b c l) s fun h => h = s.head) ∧
  (∀ (s : State) (t : Troupe) (b c l : Nat), (s.head.pair.trp t).role = 2 → (s.head.pair.trp t).state ≠ 3 →
    (s.head.pair.trp t).waitingOrders = [] → (s.head.pair.trp t).marks = [] → (∀ r ∈ (s.head.pair.trp t).openRecs, r.order ≤ l) →
    RunsHead (.markerMessage t b c l) s fun h => h = ((s.head.modTrp t fun x => { x with openBeat := b }).closeBeat t).exchangeDigest t b) ∧
  (∀ (s : State) (t : Troupe) (b : Nat) (d : Bytes),
    ((s.head.pair.trp t).role = 3 → (s.head.pair.trp t).state = 6 → RunsHead (.digestMessage t b d) s fun h =>
      h = s.head.modTrp t fun x => { x with prevDigest := d, digestBeat := b }) ∧
    ((s.head.pair.trp t).role = 1 → (s.head.pair.trp t).state = 1 → RunsHead (.digestMessage t b d) s fun h => h = s.head.compareBeat t b d) ∧
    ((s.head.pair.trp t).role = 0 → RunsHead (.digestMessage t b d) s fun h => h = s.head)) ∧
  (∀ (s : State) (t : Troupe) (e : Bytes), parseJrn t e = none → e.length ≠ 32 → RunsHead (.journalMessage t e) s fun h => h = s.head) ∧
  (∀ (s : State) (t : Troupe) (e : Bytes), parseJrn t e = none → e.length = 32 → RunsHead (.journalMessage t e) s fun h =>
    h = s.head.modTrp t fun p => { p with relays := p.relays ++ [e] }) ∧
  (∀ (s : State) (t : Troupe) (e : Bytes) (j : Jrn), parseJrn t e = some j → (s.head.pair.trp t).follows = true →
    RunsHead (.journalMessage t e) s fun h => h = { s.head with pty := h.pty } ∧
      h.pty.journal = pruneJournal ((s.head.pty.journal ++ [j]).filter (·.troupe == t)) ++ (s.head.pty.journal ++ [j]).filter (·.troupe != t)) ∧
  (∀ s : State, RunsHead (.controlMessage .heartbeat) s fun h => h = { s.head with pair := { s.head.pair with heartbeats := 0 } }) ∧
  (∀ (s : State) (n : Nat), RunsHead (.controlMessage (.powerEntry n)) s fun h => h = { s.head with pair := { s.head.pair with peerPower := n } }) ∧
  (∀ (s : State) (d : Bytes) (b : Nat), s.head.tsi.armed = none →
    (d = [] → RunsHead (.controlMessage (.imageArm d b)) s fun h => h = s.head) ∧
    (d ≠ [] → RunsHead (.controlMessage (.imageArm d b)) s fun h => h = s.head.emit (.control (.imageArm [] b)))) ∧
  (∀ (s : State) (d : Bytes) (a : Armed), s.head.tsi.armed = some a → s.head.tsi.active.isSome = true → a.pairScoped = true →
    a.committed = false → a.offered = false → d ≠ [] → RunsHead (.controlMessage (.imageArm d a.beat)) s fun h =>
    h = { s.head with tsi := { s.head.tsi with peerArm := some (d, a.beat) } })

/-- A Catcher's digest that is 64 us overdue at an in-step Flyer loses the Catcher; before that, nothing changes. A verdict counts only in step or frozen, without an outcome; an outcome takes effect only in its beat. The keeper drops the lines when every troupe that is flown and not frozen has closed no beat for KEEPER_BEATS. A claim drives HOLD of its troupe alone, when the keeper allows it, SEE is low and 20 us have passed since its fall. A confirm window that ends without SEE confirms the claim; a rise of SEE raises source 617, and the home head goes on. A fall of SEE makes a Catcher take the troupe over, and a head without a role only note it. A takeover ends at a beat edge at least 48 us after its confirmation, and before that changes nothing; a stale copy is first brought up from what the landing shelf holds, and what is found nowhere is poisoned. (R247, R249, R250, R252, R253, R257, R259, 11_troupes_flyer_catcher_baton.md) -/
def Obligations.FreezesKeeperAndBaton : Prop :=
  (∀ (s : State) (t : Troupe), (s.head.pair.trp t).role = 1 → (s.head.pair.trp t).state = 1 →
    ((s.head.pair.trp t).beats.any (fun b => !b.matched && decide (b.closedAt + 64 ≤ s.head.now)) = true →
      RunsHead (.catcherDigestTimeout t) s fun h => h = s.head.catcherLost t) ∧
    ((s.head.pair.trp t).beats.any (fun b => !b.matched && decide (b.closedAt + 64 ≤ s.head.now)) = false →
      RunsHead (.catcherDigestTimeout t) s fun h => h = s.head)) ∧
  (∀ (s : State) (v : VerdictMsg), (s.head.pair.trp v.troupe).role = 1 → (s.head.pair.trp v.troupe).state = 3 →
    ((s.head.pair.trp v.troupe).outcome = 0 → RunsHead (.freezeVerdictMessage v) s fun h => h = s.head.decideFreeze v.troupe v) ∧
    ((s.head.pair.trp v.troupe).outcome ≠ 0 → RunsHead (.freezeVerdictMessage v) s fun h => h = s.head)) ∧
  (∀ (s : State) (t : Troupe), (s.head.pair.trp t).state = 3 → (s.head.pair.trp t).outcome ≠ 0 →
    ((s.head.pair.trp t).outcomeBeat ≤ s.head.whl.beat → RunsHead (.freezeOutcome t) s fun h => h = s.head.outcomeOf t (s.head.pair.trp t).outcome) ∧
    (s.head.whl.beat < (s.head.pair.trp t).outcomeBeat → RunsHead (.freezeOutcome t) s fun h => h = s.head)) ∧
  (∀ (s : State) (n : Nat) (l : List Troupe), n = orIfZero 1 (s.head.fld Adr.TRP_CFG 5 4) → l = s.head.flown.filter (fun t => (s.head.pair.trp t).state != 3) →
    s.head.pair.hold ≠ 0 → l ≠ [] →
    ((∀ t ∈ l, (s.head.pair.trp t).openBeat + n ≤ s.head.whl.beat) → RunsHead .keeperBeatExpiry s fun h => h = s.head.keeperDrop) ∧
    ((∃ t ∈ l, s.head.whl.beat < (s.head.pair.trp t).openBeat + n) → RunsHead .keeperBeatExpiry s fun h => h = s.head)) ∧
  (∀ (s : State) (t : Troupe), (s.head.pair.trp t).claiming = true → s.head.pair.keeperOk = true → lineOf s.head.pair.see t = false →
    lineOf s.head.pair.hold t = false →
    (s.head.now < (s.head.pair.trp t).fallAt + 20 → RunsHead (.batonClaim t) s fun h => h = s.head) ∧
    ((s.head.pair.trp t).fallAt + 20 ≤ s.head.now → RunsHead (.batonClaim t) s fun h => h = { s.head with pair := h.pair } ∧
      h.pair.hold = setLine s.head.pair.hold t true ∧ (h.pair.trp t).confirmAt = s.head.now ∧ h.pair.see = s.head.pair.see)) ∧
  (∀ (s : State) (t : Troupe), (s.head.pair.trp t).claiming = true → lineOf s.head.pair.hold t = true →
    (s.head.now < (s.head.pair.trp t).confirmAt + 2 → ∀ r, RunsHead (.batonConfirmWindowEnd t r) s fun h => h = s.head) ∧
    ((s.head.pair.trp t).confirmAt + 2 ≤ s.head.now → lineOf s.head.pair.see t = false →
      RunsHead (.batonConfirmWindowEnd t false) s fun h => h = s.head.claimed t) ∧
    ((s.head.pair.trp t).confirmAt + 2 ≤ s.head.now → s.head.isHome t = true → RunsHead (.batonConfirmWindowEnd t true) s fun h =>
      h.src 617 = (s.head.src 617).raised ∧ h.pair = { s.head.pair with see := setLine s.head.pair.see t true })) ∧
  (∀ (s : State) (t : Troupe), lineOf s.head.pair.see t = false → RunsHead (.batonSeeFall t) s fun h => h = s.head) ∧
  (∀ (s : State) (t : Troupe) (h₁ : Head), lineOf s.head.pair.see t = true → (s.head.pair.trp t).claiming = false → (s.head.pair.trp t).handover = none →
    h₁ = { s.head with pair := { s.head.pair with
      see := setLine s.head.pair.see t false, absent := s.head.pair.absent || (!s.head.pair.icl && setLine s.head.pair.see t false == 0) } } →
    ((s.head.pair.trp t).role = 2 → (s.head.pair.trp t).state ≠ 3 → RunsHead (.batonSeeFall t) s fun h =>
      h = (h₁.startTakeover t false).electMaster.claimHome) ∧
    ((s.head.pair.trp t).role = 0 → RunsHead (.batonSeeFall t) s fun h => h = h₁.electMaster.claimHome)) ∧
  (∀ (s : State) (t : Troupe), (s.head.pair.trp t).state = 4 → lineOf s.head.pair.confirmed t = true → (s.head.pair.trp t).claiming = false →
    ((s.head.now < (s.head.pair.trp t).confirmAt + 48 ∨ s.head.whl.slot % 16 ≠ 0) → ∀ l, RunsHead (.takeoverComplete t l) s fun h => h = s.head) ∧
    ((s.head.pair.trp t).confirmAt + 48 ≤ s.head.now → s.head.whl.slot % 16 = 0 → (s.head.pair.trp t).replay = false →
      ∀ l, RunsHead (.takeoverComplete t l) s fun h => h = s.head.takeoverEnd t) ∧
    ((s.head.pair.trp t).confirmAt + 48 ≤ s.head.now → s.head.whl.slot % 16 = 0 → (s.head.pair.trp t).replay = true →
      ∀ l, RunsHead (.takeoverComplete t l) s fun h => h = (((s.head.replayLog t l).takeoverEnd t).poisonMissing t)))

/-- Without a handover of the troupe its four rows change nothing. The start enters HANDOVER 2 beats ahead and not earlier. At the gate a handover whose commands have ended and whose beats match stays; with a command left it moves to the next beat up to four times, then the commands left are ended. The commit point is passed only with no command left; before the end the committed handover stays, at its beat it ends. A handback while one is in hand changes nothing; one whose troupe is not in step shows result 2. A rejoin clears LASTING and the counts of class 0xC. The start wait claims nothing while the link is up or before its time. (R242, R251, R261, R262, 11_troupes_flyer_catcher_baton.md) -/
def Obligations.HandoversRunToTheirBeat : Prop :=
  (∀ (s : State) (t : Troupe), (s.head.pair.trp t).handover = none →
    (RunsHead (.handoverStart t) s fun h => h = s.head) ∧ (RunsHead (.handoverGate t) s fun h => h = s.head) ∧
    (RunsHead (.handoverCommitPoint t) s fun h => h = s.head) ∧ (RunsHead (.handoverEnd t) s fun h => h = s.head)) ∧
  (∀ (s : State) (t : Troupe) (x : Handover), (s.head.pair.trp t).handover = some x → (s.head.pair.trp t).state = 1 →
    (s.head.whl.beat + 2 < x.beat → RunsHead (.handoverStart t) s fun h => h = s.head) ∧
    (x.beat ≤ s.head.whl.beat + 2 → RunsHead (.handoverStart t) s fun h => h = (s.head.setRole t (s.head.pair.trp t).role 5).tellRoles)) ∧
  (∀ (s : State) (t : Troupe) (x : Handover), (s.head.pair.trp t).handover = some x → x.giving = true → x.committed = false →
    (s.head.pair.trp t).state = 5 → x.beat * 16 ≤ s.head.whl.slotCount + 4 →
    (s.head.troupeCtxs t = [] → (s.head.pair.trp t).beats.all (·.matched) = true → RunsHead (.handoverGate t) s fun h => h = s.head) ∧
    (s.head.troupeCtxs t ≠ [] → x.moves < 4 → RunsHead (.handoverGate t) s fun h =>
      (h.pair.trp t).handover = some { x with beat := x.beat + 1, moves := x.moves + 1 } ∧
      h = { s.head with pair := h.pair, out := .control (.handover t (x.beat + 1) (x.activation || x.leaving)) :: s.head.out }) ∧
    (s.head.troupeCtxs t ≠ [] → 4 ≤ x.moves → RunsHead (.handoverGate t) s fun h => h = s.head.endLeft t)) ∧
  (∀ (s : State) (t : Troupe) (x : Handover), (s.head.pair.trp t).handover = some x → x.giving = true → x.committed = false →
    (s.head.pair.trp t).state = 5 → x.beat * 16 ≤ s.head.whl.slotCount + 3 →
    (s.head.troupeCtxs t ≠ [] → RunsHead (.handoverCommitPoint t) s fun h => h = s.head) ∧
    (s.head.troupeCtxs t = [] → RunsHead (.handoverCommitPoint t) s fun h =>
      (h.pair.trp t).handover = some { x with committed := true } ∧ lineOf h.pair.hold t = false)) ∧
  (∀ (s : State) (t : Troupe) (x : Handover), (s.head.pair.trp t).handover = some x → x.committed = true →
    (s.head.whl.slotCount < x.beat * 16 → RunsHead (.handoverEnd t) s fun h => h = s.head) ∧
    (x.beat * 16 ≤ s.head.whl.slotCount → (x.giving = true ∨ lineOf s.head.pair.confirmed t = true) →
      RunsHead (.handoverEnd t) s fun h => h = s.head.handoverEnd t x)) ∧
  (∀ s : State, s.head.pair.hbBusy = true → RunsHead .trpHandback s fun h => h = s.head) ∧
  (∀ s : State, s.head.pair.hbBusy = false → s.head.pair.icl = false → RunsHead .trpHandback s fun h =>
    h = { s.head with pair := { s.head.pair with hbResult := 2 } }) ∧
  (∀ (s : State) (h₁ : Head), s.head.pair.hbBusy = false →
    s.head.handback (ofBit (s.head.fld Adr.TRP_CTRL 1 1)) (s.head.reg Adr.TRP_HANDBACK_BEAT).toNat true none = (h₁, 1) →
    RunsHead .trpHandback s fun h => h = { h₁ with pair := { h₁.pair with hbBusy := true, hbResult := 0 } }) ∧
  (∀ s : State, RunsHead .trpRejoin s fun h => h.pair.lasting = false ∧ ∀ x ∈ h.flt.parts, x.cls ≠ 0xC) ∧
  (∀ s : State, (s.head.pair.absent = false ∨ s.head.pair.icl = true ∨
      s.head.now < s.head.pair.startAt + orIfZero 1 (s.head.fld Adr.TRP_CFG 15 8) * 100000) →
    RunsHead .startWaitExpiry s fun h => h = s.head) ∧
  (∀ (s : State) (t : Troupe), t = otherTroupe (ofBit s.head.headId) → s.head.pair.absent = true → s.head.pair.icl = false →
    s.head.fwu.running = true → s.head.fwu.phase = 0 → s.head.pair.startAt + orIfZero 1 (s.head.fld Adr.TRP_CFG 15 8) * 100000 ≤ s.head.now →
    (s.head.pair.trp t).role = 0 → (s.head.pair.trp t).state = 0 → (s.head.pair.trp t).claiming = false → lineOf s.head.pair.see t = false →
    RunsHead .startWaitExpiry s fun h => h = s.head.startClaim t)

/-- Without a link, a link-down report says that the peer is absent. A link that falls raises source 620, ends lanes, pacing and resync, loses the link for both troupes, and takes the pair key. A link that comes up needs a running head, 16 lanes and a down link; with a peer of the same HEAD_ID it stays down and source 626 is raised; else it is up with at most 64 lanes, the peer is present, and source 621 is raised; a head that holds no troupe while the peer does takes the peer's counts. A resync starts only with link and pair key, and a Flyer starts the copy of a troupe that is alone. The end of the copy ends the resync of a Flyer, and the troupe is paired from the next beat edge. (R229, R240, R263, R264, 11_troupes_flyer_catcher_baton.md) -/
def Obligations.IclinLinkAndResync : Prop :=
  (∀ s : State, s.head.pair.icl = false → RunsHead .iclinLinkDown s fun h =>
    h = (({ s.head with pair := { s.head.pair with absent := true } } : Head).electMaster).claimHome) ∧
  (∀ (s : State) (h₁ : Head), s.head.pair.icl = true → s.head.fwu.restartDue = false → s.head.pair.a.state ≠ 3 → s.head.pair.b.state ≠ 3 →
    s.head.pair.a.handover = none → s.head.pair.b.handover = none →
    h₁ = (((({ s.head.raise 620 with pair := { s.head.pair with
        icl := false, absent := s.head.pair.see == 0, lanes := 0, pacing := false, mirrorBytes := 0, loadPct := 0, resyncActive := false
        peerConditions := 0, peerPower := 0 } } : Head).linkLost .a).linkLost .b).modStg
        fun x => { x with pairKey := none, peerErasing := false }) → (h₁.electMaster.eraseEnded.exchangeLost).fwu.restartDue = false →
    RunsHead .iclinLinkDown s fun h => h = h₁.electMaster.eraseEnded.exchangeLost) ∧
  (∀ (s : State) (p l c : Nat), (s.head.pair.icl = true ∨ s.head.fwu.running = false ∨ l < 16) →
    RunsHead (.iclinLinkUp p l c) s fun h => h = s.head) ∧
  (∀ (s : State) (p l c : Nat), s.head.pair.icl = false → s.head.fwu.running = true → 16 ≤ l → p = s.head.headId →
    RunsHead (.iclinLinkUp p l c) s fun h => h = ((({ s.head with pair := { s.head.pair with absent := true } } : Head).raise 626).electMaster).claimHome) ∧
  (∀ (s : State) (p l c : Nat), s.head.pair.icl = false → s.head.fwu.running = true → 16 ≤ l → p ≠ s.head.headId →
    RunsHead (.iclinLinkUp p l c) s fun h => h.pair.icl = true ∧ h.pair.absent = false ∧ h.pair.lanes = min 64 l ∧ h.pair.heartbeats = 0 ∧
      h.src 621 = (s.head.src 621).raised ∧ h.stg.pairKey = some (s.head.freeBytes 32) ∧
      (s.head.pair.hold = 0 → s.head.whl.running = true → s.head.pair.see ≠ 0 → c < 2 ^ 48 → h.whl.slotCount = c)) ∧
  (∀ (s : State) (t : Troupe), (s.head.pair.icl = false ∨ s.head.stg.pairKey = none) → RunsHead (.resyncStart t) s fun h => h = s.head) ∧
  (∀ (s : State) (t : Troupe), s.head.pair.icl = true → s.head.stg.pairKey.isSome = true →
    ((s.head.pair.trp t).role = 1 → (s.head.pair.trp t).state = 2 → s.head.pair.resyncActive = false → (s.head.pair.trp t).joinAtEdge = false →
      RunsHead (.resyncStart t) s fun h => h = s.head.startCopy t) ∧
    ((s.head.pair.trp t).role ≠ 1 → s.head.canJoin t = true → s.head.bit Adr.TRP_CFG 2 = true →
      RunsHead (.resyncStart t) s fun h => h = s.head.joinTroupe t)) ∧
  (∀ (s : State) (t : Troupe), (s.head.pair.trp t).role = 1 → s.head.pair.resyncActive = true → s.head.pair.resyncTroupe = t →
    RunsHead (.resyncCopyEnd t) s fun h => h = { s.head with pair := h.pair } ∧ h.pair.resyncActive = false ∧
      h.pair.resyncDone = s.head.pair.resyncTotal ∧ (h.pair.trp t).joinAtEdge = true) ∧
  (∀ (s : State) (t : Troupe), (s.head.pair.trp t).role = 3 → (s.head.pair.trp t).state = 6 →
    RunsHead (.resyncCopyEnd t) s fun h => h = s.head.modTrp t fun x => { x with joinAtEdge := true })

/-- Without an entry, or with one for CAROUSEL, CELLAR or OFF, no state is reached. TRIM or DOZE is reached at a beat edge at least 48 us after the acceptance, with the entry's rings, source 800 and Dword 0 of the state; before that nothing changes. The ports go down only in an entry for CAROUSEL, CELLAR or OFF that is over: while shelves are left they are closed, else the head switches off and memory keeps what the state keeps. A ring wakes on demand only in TRIM or DOZE while it is enabled, off and not held by the governor, with source 801; it is gated again only after REGATE_MS without work. (R287, R288, R289, R290, 13_power_states_and_wake.md) -/
def Obligations.PowerStatesAndPortsDown : Prop :=
  (∀ s : State, s.head.pwr.entry = none → (RunsHead .powerStateReached s fun h => h = s.head) ∧ (Runs .portsPowerDown s fun t => t = s)) ∧
  (∀ (s : State) (e : PowerEntry), s.head.pwr.entry = some e → 2 < e.target → RunsHead .powerStateReached s fun h => h = s.head) ∧
  (∀ (s : State) (e : PowerEntry), s.head.pwr.entry = some e → (e.target = 1 ∨ e.target = 2) → s.head.heldCmds = [] →
    ((s.head.whl.slot % 16 ≠ 0 ∨ s.head.now < e.acceptedAt + 48) → RunsHead .powerStateReached s fun h => h = s.head) ∧
    (s.head.whl.slot % 16 = 0 → e.acceptedAt + 48 ≤ s.head.now → RunsHead .powerStateReached s fun h =>
      h = (((s.head.setRings e.mask).modPwr fun p => { p with entry := none, state := e.target, demandWoken := [] }).raise 800).endEntry e e.target ∧
      h.pwr.state = e.target ∧ h.pwr.entry = none)) ∧
  (∀ (s : State) (e : PowerEntry), s.head.pwr.entry = some e → (e.target < 3 ∨ s.head.entryOver = false) → Runs .portsPowerDown s fun t => t = s) ∧
  (∀ (s : State) (e : PowerEntry), s.head.pwr.entry = some e → 3 ≤ e.target → s.head.entryOver = true → s.head.shelvesLeft = [] →
    Runs .portsPowerDown s fun t => t.head = (s.head.leaveClosed.switchOff e).modPwr (fun p => { p with entry := none }) ∧
      t.mem = keptMemory e.target (Memory.writeBack s.mem s.head.pan.lines) ∧ t.pending = s.pending ∧
      t.head.pwr.state = e.target ∧ t.head.fwu.running = false) ∧
  (∀ (s : State) (r : Nat), (bitAt r s.head.ringMask = false ∨ s.head.pwr.ringsOn.getLsbD r = true ∨ s.head.pwr.govGated.getLsbD r = true ∨
      s.head.pwr.state = 0 ∨ 2 < s.head.pwr.state) → RunsHead (.ringDemandWake r) s fun h => h = s.head) ∧
  (∀ (s : State) (r : Nat), r < 4 → bitAt r s.head.ringMask = true → s.head.pwr.ringsOn.getLsbD r = false → s.head.pwr.govGated.getLsbD r = false →
    (s.head.pwr.state = 1 ∨ s.head.pwr.state = 2) → RunsHead (.ringDemandWake r) s fun h => h.pwr.ringsOn.getLsbD r = true ∧
      h.pwr.demandWoken = s.head.pwr.demandWoken ++ [(r, s.head.now)] ∧ h.src 801 = (s.head.src 801).raised) ∧
  (∀ (s : State) (r : Nat), s.head.pwr.demandWoken.find? (·.1 == r) = none → RunsHead (.ringRegate r) s fun h => h = s.head) ∧
  (∀ (s : State) (r t : Nat), r < 4 → s.head.pwr.demandWoken.find? (·.1 == r) = some (r, t) → s.head.ringBusy r = false →
    (s.head.now < t + orIfZero 1 (s.head.fld Adr.PWR_CTRL 15 0) * 1000 → RunsHead (.ringRegate r) s fun h => h = s.head) ∧
    (t + orIfZero 1 (s.head.fld Adr.PWR_CTRL 15 0) * 1000 ≤ s.head.now → RunsHead (.ringRegate r) s fun h =>
      h = { s.head with pwr := h.pwr } ∧ h.pwr.ringsOn.getLsbD r = false ∧ h.pwr.demandWoken = s.head.pwr.demandWoken.filter (·.1 != r)))

/-- A first access to an enabled domain that is off begins its wake and stalls the requester; firmware's PWR_DOM_ON begins it without a stall; a domain that is not enabled, or a head that does not run, changes nothing. A domain that is not ready in time, while an access stalls, gives a bus error, raises source 802 and counts for the domain; otherwise nothing changes. The control cores move to the core PLL only once it has locked. (R292, 13_power_states_and_wake.md) -/
def Obligations.DomainsAndClocksWake : Prop :=
  (∀ (s : State) (d : Nat), s.head.awake = true → s.head.domainEnabled d = true → (Domain.get s.head.pwr.domains d).state = 0 →
    RunsHead (.domainFirstAccess d) s fun h => h = { s.head with pwr := h.pwr } ∧
      Domain.get h.pwr.domains d = { Domain.get s.head.pwr.domains d with state := 1, since := s.head.now, stalled := true }) ∧
  (∀ (s : State) (d : Nat), (s.head.awake = false ∨ s.head.domainEnabled d = false) → RunsHead (.domainFirstAccess d) s fun h => h = s.head) ∧
  (∀ (s : State) (d : Nat), d = s.head.fld Adr.PWR_DOM_SEL 7 0 → s.head.awake = true → s.head.domainEnabled d = true →
    (Domain.get s.head.pwr.domains d).state = 0 → RunsHead .pwrDomOn s fun h => h = { s.head with pwr := h.pwr } ∧
      Domain.get h.pwr.domains d = { Domain.get s.head.pwr.domains d with state := 1, since := s.head.now, stalled := false }) ∧
  (∀ s : State, (s.head.awake = false ∨ s.head.domainEnabled (s.head.fld Adr.PWR_DOM_SEL 7 0) = false) → RunsHead .pwrDomOn s fun h => h = s.head) ∧
  (∀ (s : State) (d : Nat), (Domain.get s.head.pwr.domains d).state ≠ 1 ∨ (Domain.get s.head.pwr.domains d).stalled = false →
    RunsHead (.domainNotReady d) s fun h => h = s.head) ∧
  (∀ (s : State) (d : Nat), (Domain.get s.head.pwr.domains d).state = 1 → (Domain.get s.head.pwr.domains d).stalled = true →
    RunsHead (.domainNotReady d) s fun h =>
      h = (((s.head.modDomain d fun x => { x with stalled := false }).emit (.busError d)).raise 802).countFault 0xA d false) ∧
  (∀ s : State, s.head.awake = true → s.head.pwr.pllLock.getLsbD 0 = true → RunsHead .pwrClkSwitch s fun h =>
    h = { s.head with pwr := { s.head.pwr with onPll := true } }) ∧
  (∀ s : State, (s.head.awake = false ∨ s.head.pwr.pllLock.getLsbD 0 = false) → RunsHead .pwrClkSwitch s fun h => h = s.head)

/-- A wake starts the sequencer of a head in CAROUSEL or CELLAR that is not waking and was not tripped, with the cause of its row: 2 the calendar alarm, 1 the management port, 4 the restored supply, 3 the sampler. An alarm is taken once. A management address that is not the head's, or a head that runs, answers nothing; an unknown command is not acknowledged. The cellar status is 16 bytes and wakes nothing. A sampler tick notes its reading, and wakes only after the run of CEL_SAMPLE_CFG. A part that fails fewer than 4 times is tried again. A group that is not the next one changes nothing. (R293, R294, R296, R298, R314, R378, 13_power_states_and_wake.md) -/
def Obligations.SleepingHeadsWake : Prop :=
  (∀ (s : State) (c : Nat) (i : Instr), (i, c) ∈ [(Instr.calendarAlarm, 2), (.mgmtWake, 1), (.vinRestored, 4)] →
    s.head.pwr.state = 4 → s.head.pwr.waking = none → s.head.cel.tripped = false → s.head.cel.failed = false → s.head.cel.vinLoss = true →
    s.head.cel.calValid = true → s.head.bit Adr.CEL_ALARM_HI 31 = true → s.head.bit Adr.CEL_WAKE_CFG 1 = true →
    RunsHead i s fun h => h.pwr.waking = some 0 ∧ h.cel.cause = c ∧ h.pwr.state = 4 ∧ h.cel.attempts = 0) ∧
  (∀ s : State, (s.head.cel.calValid = false ∨ s.head.bit Adr.CEL_ALARM_HI 31 = false) → RunsHead .calendarAlarm s fun h => h = s.head) ∧
  (∀ s : State, s.head.cel.calValid = true → s.head.bit Adr.CEL_ALARM_HI 31 = true → s.head.asleep = false →
    RunsHead .calendarAlarm s fun h => h = s.head.setFld Adr.CEL_ALARM_HI 31 31 0 ∧ h.bit Adr.CEL_ALARM_HI 31 = false) ∧
  (∀ s : State, s.head.pwr.state ≠ 4 → RunsHead .vinRestored s fun h => h = s.head) ∧
  (∀ (s : State) (a c : Nat), (s.head.asleep = false ∨ a ≠ s.head.fld Adr.CEL_MGMT 6 0) → RunsHead (.mgmtAddressMatch a c) s fun h => h = s.head) ∧
  (∀ (s : State) (a c : Nat), s.head.asleep = true → a = s.head.fld Adr.CEL_MGMT 6 0 → c ≠ 0xE0 → c ≠ 0xE1 → s.head.bit Adr.CEL_WAKE_CFG 1 = false →
    RunsHead (.mgmtAddressMatch a c) s fun h => h = { s.head with out := .smbusNack :: s.head.out }) ∧
  (∀ s : State, s.head.asleep = false → (RunsHead .cellarStatus s fun h => h = s.head) ∧ (RunsHead .mgmtWake s fun h => h = s.head)) ∧
  (∀ s : State, s.head.asleep = true → RunsHead .cellarStatus s fun h => ∃ bs, h = { s.head with out := .smbus bs :: s.head.out } ∧ bs.length = 16) ∧
  (∀ (s : State) (r : SamplerReading), s.head.pwr.state ≠ 3 → RunsHead (.samplerTick r) s fun h => h = s.head) ∧
  (∀ (s : State) (r : SamplerReading), s.head.pwr.state = 3 → s.head.pwr.waking = none → RunsHead (.samplerTick r) s fun h =>
    h.cel.lastVin = r.vin01 ∧ h.cel.lastDie = r.dieC ∧ (s.head.crossings r = [false, false, false, false] → h.pwr.waking = none) ∧
    h = { s.head with cel := h.cel, pwr := h.pwr }) ∧
  (∀ (s : State) (p : Nat), (s.head.pwr.waking = none ∨ p = 0 ∨ 11 < p) → RunsHead (.wakePartTimeout p) s fun h => h = s.head) ∧
  (∀ (s : State) (p : Nat), s.head.pwr.waking.isSome = true → 1 ≤ p → p ≤ 11 → assocGet p 0 s.head.pwr.attempts < 3 →
    RunsHead (.wakePartTimeout p) s fun h => h = { s.head with pwr := h.pwr, cel := h.cel } ∧ h.cel.part = p ∧
      assocGet p 0 h.pwr.attempts = assocGet p 0 s.head.pwr.attempts + 1) ∧
  (∀ (s : State) (g : Nat) (l : List (Nat × BitVec 64)) (i : StartInfo), s.head.pwr.waking ≠ some g →
    RunsHead (.wakeGroupReady g l i) s fun h => h = s.head) ∧
  (∀ (s : State) (g : Nat) (l : List (Nat × BitVec 64)) (i : StartInfo), s.head.pwr.waking = some g → g ≠ 0 → s.head.fwu.running = true →
    RunsHead (.wakeGroupReady g l i) s fun h => h.pwr.waking = (if s.head.bit Adr.CEL_WAKE_CFG 0 ∧ g < 7 then some (g + 1) else none) ∧
      h = { s.head with pwr := h.pwr })

/-- VIN below the cellar's threshold moves the cellar to VBAK; a head in CAROUSEL falls to CELLAR with cause 7 and loses its DDR5 contents, another keeps everything. VIN above it moves the cellar back. VIN applied to a head that sleeps or is held starts nothing. RESET_N low stops the control cores and holds; a release without a hold changes nothing, and one of a head that is held starts it with cause 5. Without both supplies every register is at its reset value and memory keeps only what needs none. CALENDAR_SET loads the calendar and makes it valid; a stopped crystal makes it invalid, with source 824 on a running head. (R283, R297, R338, R372, R373, 13_power_states_and_wake.md, 17_package_pins_electrical.md) -/
def Obligations.SuppliesResetAndCalendar : Prop :=
  (∀ s : State, s.head.pwr.state ≠ 3 → Runs .vinBelowCellar s fun t => t = { s with head := { s.head with
    pins := { s.head.pins with vin := false }, cel := { s.head.cel with onVbak := true } } }) ∧
  (∀ s : State, s.head.pwr.state = 3 → Runs .vinBelowCellar s fun t => t.head.pwr.state = 4 ∧ t.head.cel.cause = 7 ∧ t.head.cel.ddrLost = true ∧
    t.head.cel.vinLoss = true ∧ t.mem = [] ∧ t.pending = s.pending) ∧
  (∀ s : State, RunsHead .vinAboveCellar s fun h => h = { s.head with
    pins := { s.head.pins with vin := true }, cel := { s.head.cel with onVbak := false } }) ∧
  (∀ (s : State) (i : StartInfo), (s.head.fwu.running = true ∨ s.head.pwr.state = 3 ∨ s.head.pwr.state = 4 ∨ s.head.heldReset = true) →
    RunsHead (.vinApplied i) s fun h => h = { s.head with
      pins := { s.head.pins with vin := true }, cel := { s.head.cel with onVbak := false } }) ∧
  (∀ (s : State) (i : StartInfo), s.head.fwu.running = false → s.head.pwr.state ≠ 3 → s.head.pwr.state ≠ 4 → s.head.heldReset = false →
    RunsHead (.vinApplied i) s fun h => h = (({ s.head with
      pins := { s.head.pins with vin := true }, cel := { s.head.cel with onVbak := false }, pwr := { s.head.pwr with state := 0 } } : Head).start 0 i)) ∧
  (∀ s : State, RunsHead .resetAssert s fun h => h.pins.resetLow = true ∧ h.fwu.running = false ∧ h.pwr.state = 0 ∧ h.pwr.entry = none ∧
    h.pwr.waking = none) ∧
  (∀ (s : State) (i : StartInfo), s.head.pins.resetLow = false → RunsHead (.resetRelease i) s fun h => h = s.head) ∧
  (∀ (s : State) (i : StartInfo), s.head.pins.resetLow = true → tapHolds s.head.pins.tap = false → RunsHead (.resetRelease i) s fun h =>
    h = ({ s.head with pins := { s.head.pins with resetLow := false } } : Head).start 5 i) ∧
  (∀ s : State, Runs .lossOfBothSupplies s fun t => t.head.regs = [] ∧ t.head.pwr.state = 5 ∧ t.head.fwu.running = false ∧ t.mem = [] ∧
    t.head.pins.vin = false ∧ t.head.pins.vbak = false) ∧
  (∀ (s : State) (v : Word), RunsHead (.calendarSet v) s fun h => h = { s.head with cel := { s.head.cel with
    calSec := s.head.fld Adr.CEL_CAL_SEC_LO 31 0 + v.toNat % 65536 * 2 ^ 32, calAt := s.head.now, calValid := true, crystalStopped := false } }) ∧
  (∀ s : State, RunsHead .calendarCrystalStopped s fun h => h.cel.calValid = false ∧ h.cel.crystalStopped = true ∧
    (s.head.awake = true → h.src 824 = (s.head.src 824).raised) ∧ (s.head.awake = false → h = { s.head with cel := h.cel }))

/-- A sample or a hold-up reading beyond an absolute limit stops with the fault of R369 (the package guarantees nothing there); every other sample runs on an awake head and changes nothing of one that is not. A rail out of regulation is marked, reported with source 814 and counted, and VCC's loss drops the keeper. CAL_SWAP takes a bank whose CRC holds, raises source 817 for one whose CRC does not, and is ignored while a swap is pending. A coefficient write goes to the bank that is not in force. The stored energy follows CAP_MF and the voltage; without CAP_MF the available energy is 0. A flush trigger that is off, or during a flush, changes nothing. A thermal trip leaves CELLAR, cause 8, tripped, with no HOLD line. (R301, R302, R307, R309, R311, R369, R378, 14_calliope_power_delivery.md, 17_package_pins_electrical.md) -/
def Obligations.CalliopeSamplesSwapsAndFlushes : Prop :=
  (∀ (s : State) (p : PowerSample), limitsExceeded p = true → exec (.powerSample p) s = .fault .limitExceeded) ∧
  (∀ (s : State) (v : Nat), 65000 < v → exec (.holdupUpdate v) s = .fault .limitExceeded) ∧
  (∀ (s : State) (p : PowerSample), limitsExceeded p = false →
    (s.head.awake = true → RunsHead (.powerSample p) s fun h =>
      h = ({ s.head with stg := { s.head.stg with tripping := p.tripping } } : Head).powerSample p) ∧
    (s.head.awake = false → RunsHead (.powerSample p) s fun h => h = s.head)) ∧
  (∀ (s : State) (r : Nat) (x : Rail), s.head.cal.rails[r]? = some x → r ≠ 1 → RunsHead (.railOutOfRegulation r) s fun h =>
    h = (({ s.head with cal := { s.head.cal with rails := s.head.cal.rails.set r { x with inReg := false } } } : Head).report 814 sevFault
      (leBytes 1 r)).countFault 9 r false) ∧
  (∀ (s : State) (r : Nat), s.head.cal.rails.length ≤ r → RunsHead (.railOutOfRegulation r) s fun h => h = s.head) ∧
  (∀ (s : State) (b : List Word), b = (if s.head.cal.bank = some 0 then s.head.cal.bankB else s.head.cal.bankA) →
    (s.head.cal.swapPending = true → RunsHead .calSwap s fun h => h = s.head) ∧
    (s.head.cal.swapPending = false → bankOk b = true → RunsHead .calSwap s fun h =>
      h = { s.head with cal := { s.head.cal with swapPending := true } }) ∧
    (s.head.cal.swapPending = false → bankOk b = false → RunsHead .calSwap s fun h => h = s.head.raise 817)) ∧
  (∀ (s : State) (v : Word) (w : Nat), w = s.head.fld Adr.CAL_COEF_ADDR 8 0 → RunsHead (.calCoefWrite v) s fun h =>
    h = { s.head with cal := h.cal } ∧ h.cal.active = s.head.cal.active ∧
    (s.head.cal.bank = some 0 → h.cal.bankB = s.head.cal.bankB.set w v ∧ h.cal.bankA = s.head.cal.bankA) ∧
    (s.head.cal.bank ≠ some 0 → h.cal.bankA = s.head.cal.bankA.set w v ∧ h.cal.bankB = s.head.cal.bankB)) ∧
  (∀ (s : State) (v : Nat), v ≤ 65000 → s.head.awake = true → s.head.fld Adr.CAL_HUP_CFG 15 0 = 0 →
    RunsHead (.holdupUpdate v) s fun h => h.cal.availMj = 0 ∧ h.cal.trigMv = 0 ∧ h.cal.vhMv = v ∧ h.cal.noHoldup = true) ∧
  (∀ (s : State) (v : Nat), v ≤ 65000 → s.head.awake = true → s.head.fld Adr.CAL_HUP_CFG 15 0 ≠ 0 → (5000 ≤ v ∨ s.head.pwr.vinMv < 12000) →
    RunsHead (.holdupUpdate v) s fun h => h.cal.vhMv = v ∧
      h.cal.availMj = s.head.fld Adr.CAL_HUP_CFG 15 0 * (v * v - 36000000) / 2000000) ∧
  (∀ (s : State) (v : Nat), v ≤ 65000 → s.head.awake = false → RunsHead (.holdupUpdate v) s fun h => h = s.head) ∧
  (∀ s : State, (s.head.awake = false ∨ s.head.cal.flush = 1 ∨ s.head.fld Adr.CAL_EW 9 0 = 0) → Runs (.flushTrigger true) s fun t => t = s) ∧
  (∀ s : State, s.head.awake = true → s.head.cal.flush ≠ 1 → s.head.fld Adr.CAL_EW 9 0 ≠ 0 →
    Runs (.flushTrigger true) s fun t => t = State.flushIfWritten { s with head := s.head.startFlush true }) ∧
  (∀ s : State, s.head.awake = true → Runs .thermalTrip s fun t => t.head.pwr.state = 4 ∧ t.head.cel.cause = 8 ∧ t.head.cel.tripped = true ∧
    t.head.fwu.running = false ∧ t.mem = []) ∧
  (∀ s : State, s.head.awake = false → Runs .thermalTrip s fun t => t = s)

/-- A load in ARMED or APPLYING, or of more than 8 MiB, is refused with LOAD_REFUSED and source 931 and changes no stage; another one of a head that is not checking copies the bytes. The end of the copy stages the parsed image, or ends in FAILED when the source failed. A check begins only for a loaded image. A check that ends with code 0 leaves CHECKED with the merged image, another code FAILED with source 932. An arm for an edge that is too near sets ARM_LATE alone. A cancel leaves CHECKED from ARMED only, and a discard empties staging but in ARMED and APPLYING. (R32, R33, R34, R35, R36, 02_thiez_structural_image.md) -/
def Obligations.ThiezLoadsChecksAndArms : Prop :=
  (∀ s : State, (s.head.tsi.state = 6 ∨ s.head.tsi.state = 7 ∨ 0x800000 < s.head.fld Adr.TSI_SRC_LEN 23 0) → RunsHead .tsiLoad s fun h =>
    h = (s.head.orReg Adr.TSI_STATUS 0x10).raise 931 ∧ h.tsi = s.head.tsi) ∧
  (∀ (s : State) (n : Nat) (bs : Bytes), s.head.tsi.state ≠ 6 → s.head.tsi.state ≠ 7 → s.head.tsi.state ≠ 3 → s.head.tsi.staging = none →
    n = s.head.fld Adr.TSI_SRC_LEN 23 0 → n ≤ 0x800000 →
    bs = s.dmaBytes (s.head.fld Adr.TSI_SRC_LO 31 6 * 64 + s.head.fld Adr.TSI_SRC_HI 15 0 * 2 ^ 32) n →
    RunsHead .tsiLoad s fun h => h = { s.head with tsi := { s.head.tsi with state := 1, loading := some bs, checked := none } }) ∧
  (∀ (s : State) (bs : Bytes), s.head.tsi.state = 1 → s.head.tsi.loading = some bs →
    (RunsHead (.tsiLoadDone true) s fun h => h = { s.head with tsi := { s.head.tsi with state := 5, loading := none } }) ∧
    (RunsHead (.tsiLoadDone false) s fun h => h = { s.head with tsi := { s.head.tsi with
      state := 2, loading := none, staging := some (mergeStaged s.head.tsi.staging (parseImage bs)) } })) ∧
  (∀ (s : State) (e : Bool), s.head.tsi.state ≠ 1 → RunsHead (.tsiLoadDone e) s fun h => h = s.head) ∧
  (∀ s : State, s.head.tsi.state = 2 → RunsHead .tsiCheck s fun h => h = { s.head with tsi := { s.head.tsi with state := 3 } }) ∧
  (∀ s : State, s.head.tsi.state ≠ 2 → RunsHead .tsiCheck s fun h => h = s.head) ∧
  (∀ (s : State) (r : Bytes) (i : Image), s.head.tsi.state = 3 → s.head.tsi.staging = some i →
    ((s.head.checkImage i r).1 = 0 → RunsHead (.tsiCheckDone r) s fun h => h = { s.head with tsi := { s.head.tsi with
      state := 4, check := s.head.checkImage i r, checked := some (s.head.merged i) } }) ∧
    ((s.head.checkImage i r).1 ≠ 0 → RunsHead (.tsiCheckDone r) s fun h => h.src 932 = (s.head.src 932).raised ∧
      h.tsi = { s.head.tsi with state := 5, check := s.head.checkImage i r, checked := none })) ∧
  (∀ (s : State) (raw : List (Nat × Bytes)) (i : Image) (b : Nat), s.head.tsi.state = 4 → s.head.tsi.checked = some raw → s.head.tsi.staging = some i →
    rawOf raw 9 = rawOf s.head.tsi.raw 9 → (s.head.reg Adr.TSI_ARM_BEAT).toNat ≠ 0 → b = s.head.fullBeat (s.head.reg Adr.TSI_ARM_BEAT).toNat →
    (s.head.edgeOk b = false → RunsHead .tsiArm s fun h => h = s.head.orReg Adr.TSI_STATUS 0x20) ∧
    (s.head.edgeOk b = true → RunsHead .tsiArm s fun h => h = { s.head with tsi := h.tsi } ∧ h.tsi.state = 6 ∧
      ∃ a, h.tsi.armed = some a ∧ a.beat = b ∧ a.raw = raw ∧ a.imageId = i.imageId ∧ a.committed = false)) ∧
  (∀ s : State, s.head.tsi.state ≠ 4 → RunsHead .tsiArm s fun h => h = s.head) ∧
  (∀ s : State, s.head.tsi.state = 6 → (s.head.tsi.pastCommit = false → RunsHead .tsiCancel s fun h => h = { s.head with tsi := { s.head.tsi with state := 4, armed := none } }) ∧
    (RunsHead .tsiDiscard s fun h => h = s.head)) ∧
  (∀ s : State, s.head.tsi.state ≠ 6 → RunsHead .tsiCancel s fun h => h = s.head) ∧
  (∀ s : State, s.head.tsi.state ≠ 6 → s.head.tsi.state ≠ 7 → RunsHead .tsiDiscard s fun h =>
    h = { s.head with tsi := { s.head.tsi with state := 0, staging := none, loading := none, checked := none } })

/-- An image that is not pair-scoped, or the first of a start, commits at the commit point and the stage is APPLYING; earlier nothing changes. A pair-scoped one is offered to the peer and waits for the peer's; it is aborted with reason 1 and source 934 when the peer's differ. Before its edge, or without a commit, an image does not apply. One that applies is the active one from its beat on. Streams are restored one slot after the edge, with source 933, and not before. Microcode of a site that is present is noted, of another site nothing changes. (R36, R37, R41, 02_thiez_structural_image.md) -/
def Obligations.ArmedImagesCommitAndApplyAtTheirEdge : Prop :=
  (∀ (s : State) (a : Armed), s.head.tsi.armed = some a → a.committed = false → a.beat * 16 ≤ s.head.whl.slotCount + 2 → a.derived = false →
    (a.pairScoped = false ∨ s.head.tsi.active = none) → RunsHead .imageCommitPoint s fun h => h = { s.head with tsi := h.tsi } ∧ h.tsi.state = 7 ∧
      h.tsi.armed = some { a with committed := true } ∧ h.tsi.restoring = (s.head.tsi.restoring ++ a.affected).dedup) ∧
  (∀ (s : State) (a : Armed), s.head.tsi.armed = some a → a.committed = false → a.beat * 16 ≤ s.head.whl.slotCount + 2 → a.pairScoped = true →
    s.head.tsi.active.isSome = true → s.head.pair.icl = true → s.head.tsi.peerArm.isSome = true → s.head.tsi.peerArm ≠ some (pairDigest a.raw, a.beat) →
    RunsHead .imageCommitPoint s fun h => h.tsi.state = 4 ∧ h.tsi.armed = none ∧ h.tsi.abortReason = 1 ∧ h.src 934 = (s.head.src 934).raised) ∧
  (∀ (s : State) (a : Armed), s.head.tsi.armed = some a → s.head.tsi.derivedArm = none →
    (s.head.whl.slotCount + 2 < a.beat * 16 → RunsHead .imageCommitPoint s fun h => h = s.head) ∧
    ((a.committed = false ∨ s.head.whl.slotCount < a.beat * 16) → Runs .imageApply s fun t => t = s) ∧
    ((a.committed = false ∨ s.head.tsi.appliedBeat ≠ a.beat ∨ s.head.whl.slotCount < a.beat * 16 + 1) →
      RunsHead .imageStreamsRestored s fun h => h = s.head)) ∧
  (∀ (s : State) (a : Armed) (l : List Nat), s.head.tsi.armed = some a → a.committed = true → a.beat * 16 ≤ s.head.whl.slotCount →
    (s.head.tsi.appliedBeat ≠ a.beat ∨ s.head.tsi.raw ≠ a.raw) →
    l = (List.range 64).filter (fun b => (((s.head.switchTo a).tsi.sections.bank.map (·.1)).getD []).getD b 4 == 0) →
    Runs .imageApply s fun t => t = State.newSlices { s with head := s.head.switchTo a } l) ∧
  (∀ (s : State) (a : Armed) (h₁ : Head), s.head.tsi.armed = some a → a.committed = true → s.head.tsi.appliedBeat = a.beat → s.head.tsi.raw = a.raw →
    a.beat * 16 + 1 ≤ s.head.whl.slotCount →
    h₁ = (({ s.head with tsi := { s.head.tsi with armed := none, restoring := [], state := 0, staging := none, checked := none, derivedArm := none } } : Head).report 933
      sevInfo (leBytes 4 ((s.head.tsi.active.map (·.imageId)).getD 0) ++ leBytes 8 a.beat)) →
    RunsHead .imageStreamsRestored s fun h => h = ((h₁.restoreStreams.forEach (List.range 36) Head.kick).placeWaiting).armDerived) ∧
  (∀ (s : State) (n : Nat), s.head.sitesPresent ≤ n → RunsHead (.boothMicrocodeLoaded n) s fun h => h = s.head) ∧
  (∀ (s : State) (n : Nat), n < s.head.sitesPresent → s.head.tsi.substitutions = [] → RunsHead (.boothMicrocodeLoaded n) s fun h =>
    h = ({ s.head with tsi := { s.head.tsi with microcode := n :: s.head.tsi.microcode.filter (· != n) } } : Head).armDerived)

/-- A pending bridge is loaded by the power master while its cold shelf is DARK and AUTO_BRIDGE is 1, with source 947; another one is not. Without a schedule, or before its cycle, the activation edge changes nothing; when a condition of R354 refuses it, the schedule ends with source 943; otherwise the slot is on trial with source 944 and event 2/1/3, and the troupes are handed over at the beat 2 on, or closed with no peer. CONFIRM, SVN_RAISE and CANCEL that are ignored set REFUSED alone; CANCEL of a schedule ends it with source 943; CONFIRM of a trial that may be confirmed makes it ACTIVE with source 945. SVN_RAISE never lowers the floor; accepted, it raises the floor to the SVN of the active image with source 950. Field recovery of a slot that is not VALID changes nothing. A trial before its seconds stays. A quote starts once, and not after 2^40 of them; it is written to its destination, and to one outside the map nothing is written and no index is used. (R342, R345, R350, R352, R353, R357, R360, R361, 16_boot_trust_and_firmware.md) -/
def Obligations.UpdatesActivateConfirmAndAttest : Prop :=
  (∀ (s : State) (n v w : Nat) (d : Bytes), s.head.fwu.bridges.find? (·.1 == n) = some (n, d, v, w) →
    (w = 1 → s.head.pair.spareMaster = true → s.head.bit Adr.FWU_CFG 1 = true → (s.head.shf.shelf n).state = 1 → s.head.landing n = false →
      RunsHead (.bridgeFirmwareLoad n) s fun h => h.src 947 = (s.head.src 947).raised ∧ h.out = .bridgeLoad n :: s.head.out ∧
        h.fwu.bridges.find? (·.1 == n) = some (n, s.head.bridgeDigest, v, 0)) ∧
    ((w ≠ 1 ∨ s.head.pair.spareMaster = false ∨ s.head.bit Adr.FWU_CFG 1 = false ∨ (s.head.shf.shelf n).state ≠ 1) →
      RunsHead (.bridgeFirmwareLoad n) s fun h => h = s.head)) ∧
  (∀ (s : State) (ok : Bool), s.head.fwu.schedule = none → RunsHead (.firmwareActivationEdge ok) s fun h => h = s.head) ∧
  (∀ (s : State) (ok : Bool) (slot edge r : Nat), s.head.fwu.schedule = some (slot, edge) →
    (s.head.whl.cycle < edge → RunsHead (.firmwareActivationEdge ok) s fun h => h = s.head) ∧
    (edge ≤ s.head.whl.cycle → s.head.updateRefused = some r → RunsHead (.firmwareActivationEdge ok) s fun h =>
      h.fwu = { s.head.fwu with schedule := none } ∧ h.src 943 = (s.head.src 943).raised)) ∧
  (∀ (s : State) (ok : Bool) (slot edge : Nat) (h₁ : Head), s.head.fwu.schedule = some (slot, edge) → edge ≤ s.head.whl.cycle →
    s.head.updateRefused = none → s.head.peerAllows ok = true →
    h₁ = ((({ s.head with fwu := { s.head.fwu with schedule := none, activating := true } } : Head).putBctl fun b =>
      { b with trial := slot, attempts := 0 }).raise 944).postEvent 2 1 3 →
    RunsHead (.firmwareActivationEdge ok) s fun h => h = if h₁.pair.icl then
      (h₁.forEach h₁.flown fun h t => h.handOver t (h.whl.beat + 2) true false).restartSoon
      else (h₁.forEach h₁.flown fun h t => h.closeTroupe t).activationStep) ∧
  (∀ s : State, s.head.fwu.schedule = none → RunsHead .fwuCancel s fun h => h = s.head.setFld Adr.FWU_STATUS 10 10 1) ∧
  (∀ s : State, s.head.fwu.schedule.isSome = true → RunsHead .fwuCancel s fun h =>
    h.fwu = { s.head.fwu with schedule := none } ∧ h.src 943 = (s.head.src 943).raised) ∧
  (∀ s : State, s.head.confirmable = false → RunsHead .fwuConfirm s fun h => h = s.head.setFld Adr.FWU_STATUS 10 10 1) ∧
  (∀ s : State, s.head.confirmable = true → RunsHead .fwuConfirm s fun h => h.src 945 = (s.head.src 945).raised ∧ h.fwu.trial = false ∧
    h.fwu.bctl.active = s.head.fwu.bctl.trial ∧ h.fwu.bctl.trial = 0) ∧
  (∀ s : State, RunsHead .fwuSvnRaise s fun h => s.head.fuse.svnFloor ≤ h.fuse.svnFloor ∧ h.fwu = s.head.fwu) ∧
  (∀ (s : State) (v : Nat), s.head.slotSvn s.head.fwu.bctl.active = some v → s.head.fwu.trial = false → s.head.fwu.bctl.trial = 0 →
    s.head.fwu.bctl.active ≠ 0 → (s.head.fwu.bctl.isValid (3 - s.head.fwu.bctl.active) = false ∨
      ∀ w, s.head.slotSvn (3 - s.head.fwu.bctl.active) = some w → v ≤ w) → s.head.fuse.svnFloor < v →
    RunsHead .fwuSvnRaise s fun h => h.fuse = { s.head.fuse with svnFloor := v } ∧ h.src 950 = (s.head.src 950).raised) ∧
  (∀ s : State, s.head.fwu.bctl.isValid (s.head.fld Adr.FWU_CTRL 5 4) = false → RunsHead .fwuFieldRecovery s fun h => h = s.head) ∧
  (∀ (s : State) (n : Nat), n = s.head.fld Adr.FWU_CTRL 5 4 → (n = 1 ∨ n = 2) → s.head.fwu.bctl.isValid n = true →
    RunsHead .fwuFieldRecovery s fun h => h = (s.head.putBctl fun b => { b with field := n }).restart 0) ∧
  (∀ s : State, (s.head.fwu.trial = false ∨ s.head.now < s.head.fwu.startS + 900 * 1000000) → RunsHead .trialTimeout s fun h => h = s.head) ∧
  (∀ (s : State) (h₁ : Head), s.head.fwu.trial = true → s.head.fwu.startS + 900 * 1000000 ≤ s.head.now →
    h₁ = s.head.rollBack.modFwu (fun f => { f with trial := false }) →
    RunsHead .trialTimeout s fun h => h = (h₁.forEach h₁.flown fun h t => h.handAway t false true).restartSoon) ∧
  (∀ s : State, s.head.fwu.attBusy = true → RunsHead .attestationStart s fun h => h = s.head) ∧
  (∀ s : State, s.head.fwu.attBusy = false → s.head.fwu.attIndex < 2 ^ 40 → RunsHead .attestationStart s fun h => h = { s.head with fwu := h.fwu } ∧
    h.fwu.attBusy = true ∧ h.fwu.attIndex = s.head.fwu.attIndex ∧ h.fwu.attIndex < h.fwu.attMark) ∧
  (∀ (s : State) (sig : Bytes), s.head.fwu.attBusy = false → Runs (.attestationQuoteDone sig) s fun t => t = s) ∧
  (∀ (s : State) (sig q : Bytes), s.head.fwu.attBusy = true → q = s.head.quote ++ fit 9893 sig →
    (s.head.rangePopulated s.head.fwu.attDst q.length = true → Runs (.attestationQuoteDone sig) s fun t =>
      t.mem = Memory.write s.mem s.head.fwu.attDst q ∧ t.head.fwu.attBusy = false ∧ t.head.fwu.attResult = 1 ∧
      t.head.fwu.attIndex = s.head.fwu.attIndex + 1) ∧
    (s.head.rangePopulated s.head.fwu.attDst q.length = false → Runs (.attestationQuoteDone sig) s fun t =>
      t.mem = s.mem ∧ t.head.fwu.attBusy = false ∧ t.head.fwu.attResult = 2 ∧ t.head.fwu.attIndex = s.head.fwu.attIndex))

/-- EXTEST, its pulse and train forms, CLAMP and HIGHZ stop the control cores; the other instructions change the test port alone. Test-Logic-Reset of a port without such an instruction clears the instruction alone. A host port without a queue pair that loses its link is marked down with its source of 288 to 295. A back-end port that comes back, and was neither lost nor narrow, takes its width and rate; a report out of range or to a head that does not run changes nothing. A module in a slot that was never filled is ABSENT until it is admitted; one in a slot that is in service changes nothing. (R46, R187, R217, R368, 17_package_pins_electrical.md, 03_host_queues_and_ordering.md, 09_rebuild_and_reshape.md) -/
def Obligations.TestPortLinksAndModuleSlots : Prop :=
  (∀ (s : State) (i : JtagInstr), tapHolds (some i) = true → RunsHead (.jtagInstructionLoad i) s fun h => h.pins.tap = some i ∧
    h.fwu.running = false ∧ h.pwr.state = 0 ∧ h.heldReset = true) ∧
  (∀ (s : State) (i : JtagInstr), tapHolds (some i) = false → RunsHead (.jtagInstructionLoad i) s fun h =>
    h = { s.head with pins := { s.head.pins with tap := some i } }) ∧
  (∀ s : State, tapHolds s.head.pins.tap = false → RunsHead .tapTestLogicReset s fun h =>
    h = { s.head with pins := { s.head.pins with tap := none } }) ∧
  (∀ (s : State) (i : StartInfo), tapHolds s.head.pins.tap = true → s.head.pins.resetLow = false → s.head.fwu.found = some i →
    RunsHead .tapTestLogicReset s fun h => h = ({ s.head with pins := { s.head.pins with tap := none } } : Head).start 5 i) ∧
  (∀ (s : State) (p : Nat), 8 ≤ p → RunsHead (.hostPortLinkDown p) s fun h => h = s.head) ∧
  (∀ (s : State) (p : Nat), p < 8 → s.head.hqe.qpairs.filter (·.port == p) = [] → RunsHead (.hostPortLinkDown p) s fun h =>
    h.hqe = { s.head.hqe with portsUp := s.head.hqe.portsUp &&& ~~~(BitVec.ofNat 8 (2 ^ p)) } ∧ h.src (288 + p) = (s.head.src (288 + p)).raised) ∧
  (∀ (s : State) (p w v : Nat), (16 ≤ p ∨ w = 0 ∨ 8 < w ∨ v = 0 ∨ 6 < v ∨ s.head.fwu.running = false) →
    RunsHead (.backendPortLinkUp p w v) s fun h => h = s.head) ∧
  (∀ (s : State) (p w v : Nat), p < 16 → 1 ≤ w → w ≤ 8 → 1 ≤ v → v ≤ 6 → s.head.fwu.running = true → (s.head.shf.port p).lost = false →
    (s.head.shf.port p).narrow = false → RunsHead (.backendPortLinkUp p w v) s fun h => h = { s.head with shf := h.shf } ∧
      (h.shf.port p).width = w ∧ (h.shf.port p).speed = v ∧ (h.shf.port p).lost = false) ∧
  (∀ (s : State) (sh n : Nat), sh < 128 → n < 48 → s.head.mnd.modules.find? (fun m => m.shelf == sh && m.mdl == n) = none →
    RunsHead (.moduleInserted sh n) s fun h => h = { s.head with mnd := h.mnd } ∧ (h.mnd.mdl sh n).state = 5) ∧
  (∀ (s : State) (sh n : Nat) (m : Module), s.head.mnd.modules.find? (fun m => m.shelf == sh && m.mdl == n) = some m → m.state < 4 →
    RunsHead (.moduleInserted sh n) s fun h => h = s.head)

/-- While the control cores run, an access to an address without a register is discarded and raises source 929, and one to an address that has a register raises nothing. A write to a register outside the digest channels first stores, bit by bit, the written value in RW bits and, while the block is not armed, in RWA bits; 0 in W1C bits written 1; and the old value in every other bit; then the staged fields and the actions of that register follow. A changed RWA bit of an armed block raises source 928. A register of a disabled block or an entry that does not exist takes no write. A write of a core that does not exist, or of a head that does not run, changes nothing. (R7, R8, 00_scope.md) -/
def Obligations.RegisterWritesFollowTheFieldTypes : Prop :=
  (∀ (s : State) (c a : Nat) (v : Word), (16 ≤ c ∨ s.head.awake = false) → RunsHead (.registerWrite c a v) s fun h => h = s.head) ∧
  (∀ (s : State) (c a : Nat) (v : Word), c < 16 → s.head.awake = true → regRow a = none → RunsHead (.registerWrite c a v) s fun h => h = s.head.raise 929) ∧
  (∀ (s : State) (a : Nat) (w : Bool), s.head.awake = true → regRow a = none → RunsHead (.unmappedAccess a w) s fun h => h = s.head.raise 929) ∧
  (∀ (s : State) (a : Nat) (w : Bool), (s.head.awake = false ∨ (regRow a).isSome = true) → RunsHead (.unmappedAccess a w) s fun h => h = s.head) ∧
  (∀ (r : RegRow) (armed : Bool) (old v : Word) (i : Nat), i < 32 → (r.written armed old v).getLsbD i =
    (if r.rw.getLsbD i || (!armed && r.rwa.getLsbD i) then v.getLsbD i
     else if r.w1c.getLsbD i && v.getLsbD i then false else old.getLsbD i)) ∧
  (∀ (s : State) (r : RegRow) (a : Nat) (v old : Word), old = s.head.reg (s.head.keyOf a) →
    ((s.head.armed = false ∨ (v &&& r.rwa) = (old &&& r.rwa)) →
      s.head.storeFields r a v = s.head.setReg (s.head.keyOf a) (r.written s.head.armed old v)) ∧
    (s.head.armed = true → (v &&& r.rwa) ≠ (old &&& r.rwa) → (s.head.storeFields r a v).src 928 = (s.head.src 928).raised)) ∧
  (∀ (s : State) (c a : Nat) (v : Word) (r : RegRow), c < 16 → s.head.awake = true → regRow a = some r → a ≠ Adr.TSI_CTRL → a ≠ Adr.CMP_JOB_CTRL →
    s.head.disabled a = false → s.head.noEntry a = false → dgtChan a = none → RunsHead (.registerWrite c a v) s fun h =>
      h = (((s.head.storeFields r a v).stageFields r a v).actLow a v).actHigh a (s.head.reg (s.head.keyOf a)) v) ∧
  (∀ (s : State) (c a : Nat) (v : Word) (r : RegRow), c < 16 → s.head.awake = true → regRow a = some r → a ≠ Adr.TSI_CTRL → a ≠ Adr.CMP_JOB_CTRL →
    (s.head.disabled a = true ∨ s.head.noEntry a = true) → RunsHead (.registerWrite c a v) s fun h => h = s.head)

/-- For every command and every state, a step of the state with that command at the front of its queue is the command's effect on the state with the rest of the queue. (01_head_architecture.md) -/
def Obligations.StepRunsTheFrontCommand : Prop :=
  ∀ (s : State) (c : Instr) (rest : List Instr), step { s with pending := c :: rest } = exec c { s with pending := rest }

/-- When no command waits, a step answers a next state in which the head's clock is 1 µs later and everything else, memory included, is as before. This is the model's own choice (log 1): the rows carry what happens at a moment, and only time passes between them. (01_head_architecture.md) -/
def Obligations.IdleStepAdvancesTimeAlone : Prop :=
  ∀ (s : State), s.pending = [] → step s = .next { s with head := { s.head with now := s.head.now + 1 } }

/-- At reset memory has its canonical form, no command waits, every control-space register's writable fields have the reset value of their table row, no Barker source is pending or in service, the Attic holds no record and no shelf state differs from its reset state. The contents of memory at reset (zero) are the model's choice (log 6). (R7, R323, 00_scope.md, 12_pantry_and_memory.md, 15_faults_barker_attic.md) -/
def Obligations.ResetIsCanonicalAndQuiet : Prop :=
  State.reset.Inv ∧ State.reset.pending = [] ∧ State.reset.mem = [] ∧ (∀ k, State.reset.head.reg k = regReset k) ∧
  (∀ n, State.reset.head.src n = { src := n }) ∧ State.reset.head.atc.queue = [] ∧ State.reset.head.atc.slots = [] ∧
  (∀ a, Memory.byte State.reset.mem a = 0)

/-- For every state whose memory lists strictly rising addresses and no byte equal to what an unlisted address reads as, every step that answers a next state answers one whose memory has that form too: accesses, fills, evictions and write-backs of the Pantry, DMA, job and digest results, loads of images, and the loss of memory in deep states. (R266, R272, R273, 12_pantry_and_memory.md) -/
def Obligations.MemoryStaysCanonicalInEveryStep : Prop :=
  ∀ (s t : State), s.Inv → step s = .next t → t.Inv

/-- Every command completes in every state, leaving the commands that wait as they are, unless it reports a supply voltage or a die temperature outside the package's absolute limits, for which the spec states no behaviour; such a report stops by the fault of the limits. No command is refused. (R369, 17_package_pins_electrical.md) -/
def Obligations.OnlyThePackageLimitsStop : Prop :=
  (∀ (i : Instr) (s : State), withinLimits i = true → ∃ t, exec i s = .next t ∧ t.pending = s.pending) ∧
  (∀ (i : Instr) (s : State), withinLimits i = false → exec i s = .fault .limitExceeded)

/-- For every command but those named as reaching head memory (register writes, Pantry accesses, fills and drains, DMA, compression jobs, digest and quote runs, loads of images, back-end completions during the vault flush, and the events that end memory's contents), a next state has the same memory and the same queue: the head's record alone changes. (R266, 12_pantry_and_memory.md) -/
def Obligations.CommandsOfTheHeadLeaveMemory : Prop :=
  (∀ (i : Instr) (s t : State), reachesMemory i = false → exec i s = .next t → t = { s with head := t.head }) ∧
  (∀ (i : Instr) (s t : State) (a : Nat), reachesMemory i = false → exec i s = .next t → Memory.byte t.mem a = Memory.byte s.mem a)

/-- After a Write Zeroes, or a Dataset Management command with the AD attribute, no byte of the ranges it named is mapped. A Read of blocks of which no byte is mapped, with PRACT 0, sends for each block in turn 4,096 zero bytes, the CRC-64 of those bytes, the application tag 0xFFFF and bits 47 to 0 of the LBA, and then completes with success; nothing but the queues and the outputs changes. Byte 33 of the namespace's Identify data, DLFEAT, is 1 (its place is PRESUMED, log 24). (R60) -/
def Obligations.ZeroedBlocksReadAsZeros : Prop :=
  (∀ (s : State) (n : Nat) (c : Ctx) (ns : Namespace), s.holdsReady n c false opWriteZeroes →
    s.head.hqe.ns? c.cap.nsid = some ns → s.head.noSpace ns.troupe ns.domain = false → s.head.mayIssue ns.troupe = true →
    RunsHead (.writeZeroes n) s fun h => h.dp.extentsOf ns.nsid (c.cap.slba * 4096) ((c.cap.nlb + 1) * 4096) = []) ∧
  (∀ (s : State) (n : Nat) (c : Ctx) (ns : Namespace) (rs : List (Nat × Nat)), s.holdsReady n c false opDsm → c.cap.dw11.getLsbD 2 = true →
    c.cap.inCapsule.isSome = true → s.head.hqe.ns? c.cap.nsid = some ns → lengthRefuses ns c.cap c.ranges = none →
    (s.head.modCtx c.id fun x => { x with ranges := c.ranges }).mustWait c = false → s.head.noSpace ns.troupe ns.domain = false →
    s.head.mayIssue ns.troupe = true →
    RunsHead (.datasetManagement n rs) s fun h => ∀ r ∈ c.ranges, r.2 ≠ 0 → h.dp.extentsOf ns.nsid (r.1 * 4096) (r.2 * 4096) = []) ∧
  (∀ (s : State) (n : Nat) (c : Ctx), s.holdsCmd n c false opRead → c.cap.pract = false →
    s.head.dp.extentsOf c.cap.nsid (c.cap.slba * 4096) ((c.cap.nlb + 1) * 4096) = [] →
    RunsHead (.read n) s fun h =>
      h.completedAfter c stSuccess 0 ((List.range (c.cap.nlb + 1)).reverse.map fun i => Out.hostData n (c.cap.slba + i)
        (zeros 4096 ++ beBytes 8 (crc64 (zeros 4096)).toNat ++ [0xFF, 0xFF] ++ beBytes 6 ((c.cap.slba + i) % 2 ^ 48))) s.head.out ∧
      h = { s.head with hqe := h.hqe, out := h.out }) ∧
  (∀ (ns : Namespace), (identifyNamespace ns).getD 33 0 = 1)

/-- For every seed, both masks and every piece of a stream, from an open chunk shorter than 262,144 bytes: the closed chunks in order and then the open chunk are what was open and then the piece; each closed chunk has from 16,384 to 262,144 bytes and is marked FORCED exactly when it has 262,144; what stays open is shorter than 262,144 bytes. Cutting a stream in two pieces gives the same chunks as cutting it whole. (R81, R83, 04_chunking_and_dedup.md) -/
def Obligations.ChunksPartitionTheStream : Prop :=
  (∀ (seed ms ml : BitVec 64) (bs : Bytes) (c : CutState), c.n = c.rev.length → c.n < 262144 →
    ((chunker seed ms ml bs c).1.map (·.1)).flatten ++ (chunker seed ms ml bs c).2.rev.reverse = c.rev.reverse ++ bs ∧
    (chunker seed ms ml bs c).2.n = (chunker seed ms ml bs c).2.rev.length ∧ (chunker seed ms ml bs c).2.n < 262144 ∧
    ∀ x ∈ (chunker seed ms ml bs c).1, 16384 ≤ x.1.length ∧ x.1.length ≤ 262144 ∧ (x.2 = true ↔ x.1.length = 262144)) ∧
  (∀ (seed ms ml : BitVec 64) (xs ys : Bytes) (c : CutState),
    chunker seed ms ml (xs ++ ys) c =
      ((chunker seed ms ml xs c).1 ++ (chunker seed ms ml ys (chunker seed ms ml xs c).2).1,
       (chunker seed ms ml ys (chunker seed ms ml xs c).2).2))

/-- For every row of at most 22 data units of equal length with its P and Q: one lost data unit is reconstructed from P, and from Q when P is lost too; two lost data units are reconstructed from P and Q; a lost P or Q is recomputed. Three lost units of a row have no reconstruction. (R167, R168, 08_block_protection_and_stripes.md) -/
def Obligations.ParityRecoversOneOrTwoLosses : Prop :=
  (∀ (n : Nat) (d : List Bytes) (x : Nat) (q : Option Bytes), d.length ≤ 22 → (∀ b ∈ d, b.length = n) → x < d.length →
    rebuildData n ((d.map some).set x none) (some (parityPQ n d).1) q = some d ∧
    rebuildData n ((d.map some).set x none) none (some (parityPQ n d).2) = some d) ∧
  (∀ (n : Nat) (d : List Bytes) (x y : Nat), d.length ≤ 22 → (∀ b ∈ d, b.length = n) → x < y → y < d.length →
    rebuildData n (((d.map some).set x none).set y none) (some (parityPQ n d).1) (some (parityPQ n d).2) = some d) ∧
  (∀ (n : Nat) (d : List Bytes), (∀ b ∈ d, b.length = n) →
    rebuildRow n d.length (d.map some ++ [none, none]) = some (d ++ [(parityPQ n d).1, (parityPQ n d).2])) ∧
  (∀ (n : Nat) (d : List (Option Bytes)) (x y z : Nat) (p q : Option Bytes), x < y → y < z → z < d.length →
    d.getD x none = none → d.getD y none = none → d.getD z none = none → rebuildData n d p q = none)
end

