-- ==== Sys2Proof/Laws/State.lean ====
section
/-!
SUPPORT. What each update of the head's record leaves alone: one lemma per field and update, true by unfolding, so that no later
proof unfolds a record update.
-/

namespace Sys2Proof.Machine

open Sys2Proof

/-! ## Updates of one part of the head -/

@[simp] theorem Head.modHqe_hqe (h : Head) (g : Hqe → Hqe) : (h.modHqe g).hqe = g h.hqe := rfl
@[simp] theorem Head.modHqe_now (h : Head) (g : Hqe → Hqe) : (h.modHqe g).now = h.now := rfl
@[simp] theorem Head.modHqe_fuse (h : Head) (g : Hqe → Hqe) : (h.modHqe g).fuse = h.fuse := rfl
@[simp] theorem Head.modHqe_regs (h : Head) (g : Hqe → Hqe) : (h.modHqe g).regs = h.regs := rfl
@[simp] theorem Head.modHqe_brk (h : Head) (g : Hqe → Hqe) : (h.modHqe g).brk = h.brk := rfl
@[simp] theorem Head.modHqe_atc (h : Head) (g : Hqe → Hqe) : (h.modHqe g).atc = h.atc := rfl
@[simp] theorem Head.modHqe_flt (h : Head) (g : Hqe → Hqe) : (h.modHqe g).flt = h.flt := rfl
@[simp] theorem Head.modHqe_tsi (h : Head) (g : Hqe → Hqe) : (h.modHqe g).tsi = h.tsi := rfl
@[simp] theorem Head.modHqe_dp (h : Head) (g : Hqe → Hqe) : (h.modHqe g).dp = h.dp := rfl
@[simp] theorem Head.modHqe_ldr (h : Head) (g : Hqe → Hqe) : (h.modHqe g).ldr = h.ldr := rfl
@[simp] theorem Head.modHqe_cmp (h : Head) (g : Hqe → Hqe) : (h.modHqe g).cmp = h.cmp := rfl
@[simp] theorem Head.modHqe_stg (h : Head) (g : Hqe → Hqe) : (h.modHqe g).stg = h.stg := rfl
@[simp] theorem Head.modHqe_cph (h : Head) (g : Hqe → Hqe) : (h.modHqe g).cph = h.cph := rfl
@[simp] theorem Head.modHqe_dgt (h : Head) (g : Hqe → Hqe) : (h.modHqe g).dgt = h.dgt := rfl
@[simp] theorem Head.modHqe_pty (h : Head) (g : Hqe → Hqe) : (h.modHqe g).pty = h.pty := rfl
@[simp] theorem Head.modHqe_mnd (h : Head) (g : Hqe → Hqe) : (h.modHqe g).mnd = h.mnd := rfl
@[simp] theorem Head.modHqe_shf (h : Head) (g : Hqe → Hqe) : (h.modHqe g).shf = h.shf := rfl
@[simp] theorem Head.modHqe_whl (h : Head) (g : Hqe → Hqe) : (h.modHqe g).whl = h.whl := rfl
@[simp] theorem Head.modHqe_pair (h : Head) (g : Hqe → Hqe) : (h.modHqe g).pair = h.pair := rfl
@[simp] theorem Head.modHqe_pan (h : Head) (g : Hqe → Hqe) : (h.modHqe g).pan = h.pan := rfl
@[simp] theorem Head.modHqe_memc (h : Head) (g : Hqe → Hqe) : (h.modHqe g).memc = h.memc := rfl
@[simp] theorem Head.modHqe_pwr (h : Head) (g : Hqe → Hqe) : (h.modHqe g).pwr = h.pwr := rfl
@[simp] theorem Head.modHqe_cel (h : Head) (g : Hqe → Hqe) : (h.modHqe g).cel = h.cel := rfl
@[simp] theorem Head.modHqe_cal (h : Head) (g : Hqe → Hqe) : (h.modHqe g).cal = h.cal := rfl
@[simp] theorem Head.modHqe_fwu (h : Head) (g : Hqe → Hqe) : (h.modHqe g).fwu = h.fwu := rfl
@[simp] theorem Head.modHqe_pins (h : Head) (g : Hqe → Hqe) : (h.modHqe g).pins = h.pins := rfl
@[simp] theorem Head.modHqe_parade (h : Head) (g : Hqe → Hqe) : (h.modHqe g).parade = h.parade := rfl
@[simp] theorem Head.modHqe_paradeSeq (h : Head) (g : Hqe → Hqe) : (h.modHqe g).paradeSeq = h.paradeSeq := rfl
@[simp] theorem Head.modHqe_out (h : Head) (g : Hqe → Hqe) : (h.modHqe g).out = h.out := rfl
@[simp] theorem Head.modHqe_free (h : Head) (g : Hqe → Hqe) : (h.modHqe g).free = h.free := rfl

@[simp] theorem Head.modDp_dp (h : Head) (g : Dp → Dp) : (h.modDp g).dp = g h.dp := rfl
@[simp] theorem Head.modDp_now (h : Head) (g : Dp → Dp) : (h.modDp g).now = h.now := rfl
@[simp] theorem Head.modDp_fuse (h : Head) (g : Dp → Dp) : (h.modDp g).fuse = h.fuse := rfl
@[simp] theorem Head.modDp_regs (h : Head) (g : Dp → Dp) : (h.modDp g).regs = h.regs := rfl
@[simp] theorem Head.modDp_brk (h : Head) (g : Dp → Dp) : (h.modDp g).brk = h.brk := rfl
@[simp] theorem Head.modDp_atc (h : Head) (g : Dp → Dp) : (h.modDp g).atc = h.atc := rfl
@[simp] theorem Head.modDp_flt (h : Head) (g : Dp → Dp) : (h.modDp g).flt = h.flt := rfl
@[simp] theorem Head.modDp_tsi (h : Head) (g : Dp → Dp) : (h.modDp g).tsi = h.tsi := rfl
@[simp] theorem Head.modDp_hqe (h : Head) (g : Dp → Dp) : (h.modDp g).hqe = h.hqe := rfl
@[simp] theorem Head.modDp_ldr (h : Head) (g : Dp → Dp) : (h.modDp g).ldr = h.ldr := rfl
@[simp] theorem Head.modDp_cmp (h : Head) (g : Dp → Dp) : (h.modDp g).cmp = h.cmp := rfl
@[simp] theorem Head.modDp_stg (h : Head) (g : Dp → Dp) : (h.modDp g).stg = h.stg := rfl
@[simp] theorem Head.modDp_cph (h : Head) (g : Dp → Dp) : (h.modDp g).cph = h.cph := rfl
@[simp] theorem Head.modDp_dgt (h : Head) (g : Dp → Dp) : (h.modDp g).dgt = h.dgt := rfl
@[simp] theorem Head.modDp_pty (h : Head) (g : Dp → Dp) : (h.modDp g).pty = h.pty := rfl
@[simp] theorem Head.modDp_mnd (h : Head) (g : Dp → Dp) : (h.modDp g).mnd = h.mnd := rfl
@[simp] theorem Head.modDp_shf (h : Head) (g : Dp → Dp) : (h.modDp g).shf = h.shf := rfl
@[simp] theorem Head.modDp_whl (h : Head) (g : Dp → Dp) : (h.modDp g).whl = h.whl := rfl
@[simp] theorem Head.modDp_pair (h : Head) (g : Dp → Dp) : (h.modDp g).pair = h.pair := rfl
@[simp] theorem Head.modDp_pan (h : Head) (g : Dp → Dp) : (h.modDp g).pan = h.pan := rfl
@[simp] theorem Head.modDp_memc (h : Head) (g : Dp → Dp) : (h.modDp g).memc = h.memc := rfl
@[simp] theorem Head.modDp_pwr (h : Head) (g : Dp → Dp) : (h.modDp g).pwr = h.pwr := rfl
@[simp] theorem Head.modDp_cel (h : Head) (g : Dp → Dp) : (h.modDp g).cel = h.cel := rfl
@[simp] theorem Head.modDp_cal (h : Head) (g : Dp → Dp) : (h.modDp g).cal = h.cal := rfl
@[simp] theorem Head.modDp_fwu (h : Head) (g : Dp → Dp) : (h.modDp g).fwu = h.fwu := rfl
@[simp] theorem Head.modDp_pins (h : Head) (g : Dp → Dp) : (h.modDp g).pins = h.pins := rfl
@[simp] theorem Head.modDp_parade (h : Head) (g : Dp → Dp) : (h.modDp g).parade = h.parade := rfl
@[simp] theorem Head.modDp_paradeSeq (h : Head) (g : Dp → Dp) : (h.modDp g).paradeSeq = h.paradeSeq := rfl
@[simp] theorem Head.modDp_out (h : Head) (g : Dp → Dp) : (h.modDp g).out = h.out := rfl
@[simp] theorem Head.modDp_free (h : Head) (g : Dp → Dp) : (h.modDp g).free = h.free := rfl

@[simp] theorem Head.modLdr_ldr (h : Head) (g : Ldr → Ldr) : (h.modLdr g).ldr = g h.ldr := rfl
@[simp] theorem Head.modLdr_now (h : Head) (g : Ldr → Ldr) : (h.modLdr g).now = h.now := rfl
@[simp] theorem Head.modLdr_fuse (h : Head) (g : Ldr → Ldr) : (h.modLdr g).fuse = h.fuse := rfl
@[simp] theorem Head.modLdr_regs (h : Head) (g : Ldr → Ldr) : (h.modLdr g).regs = h.regs := rfl
@[simp] theorem Head.modLdr_brk (h : Head) (g : Ldr → Ldr) : (h.modLdr g).brk = h.brk := rfl
@[simp] theorem Head.modLdr_atc (h : Head) (g : Ldr → Ldr) : (h.modLdr g).atc = h.atc := rfl
@[simp] theorem Head.modLdr_flt (h : Head) (g : Ldr → Ldr) : (h.modLdr g).flt = h.flt := rfl
@[simp] theorem Head.modLdr_tsi (h : Head) (g : Ldr → Ldr) : (h.modLdr g).tsi = h.tsi := rfl
@[simp] theorem Head.modLdr_hqe (h : Head) (g : Ldr → Ldr) : (h.modLdr g).hqe = h.hqe := rfl
@[simp] theorem Head.modLdr_dp (h : Head) (g : Ldr → Ldr) : (h.modLdr g).dp = h.dp := rfl
@[simp] theorem Head.modLdr_cmp (h : Head) (g : Ldr → Ldr) : (h.modLdr g).cmp = h.cmp := rfl
@[simp] theorem Head.modLdr_stg (h : Head) (g : Ldr → Ldr) : (h.modLdr g).stg = h.stg := rfl
@[simp] theorem Head.modLdr_cph (h : Head) (g : Ldr → Ldr) : (h.modLdr g).cph = h.cph := rfl
@[simp] theorem Head.modLdr_dgt (h : Head) (g : Ldr → Ldr) : (h.modLdr g).dgt = h.dgt := rfl
@[simp] theorem Head.modLdr_pty (h : Head) (g : Ldr → Ldr) : (h.modLdr g).pty = h.pty := rfl
@[simp] theorem Head.modLdr_mnd (h : Head) (g : Ldr → Ldr) : (h.modLdr g).mnd = h.mnd := rfl
@[simp] theorem Head.modLdr_shf (h : Head) (g : Ldr → Ldr) : (h.modLdr g).shf = h.shf := rfl
@[simp] theorem Head.modLdr_whl (h : Head) (g : Ldr → Ldr) : (h.modLdr g).whl = h.whl := rfl
@[simp] theorem Head.modLdr_pair (h : Head) (g : Ldr → Ldr) : (h.modLdr g).pair = h.pair := rfl
@[simp] theorem Head.modLdr_pan (h : Head) (g : Ldr → Ldr) : (h.modLdr g).pan = h.pan := rfl
@[simp] theorem Head.modLdr_memc (h : Head) (g : Ldr → Ldr) : (h.modLdr g).memc = h.memc := rfl
@[simp] theorem Head.modLdr_pwr (h : Head) (g : Ldr → Ldr) : (h.modLdr g).pwr = h.pwr := rfl
@[simp] theorem Head.modLdr_cel (h : Head) (g : Ldr → Ldr) : (h.modLdr g).cel = h.cel := rfl
@[simp] theorem Head.modLdr_cal (h : Head) (g : Ldr → Ldr) : (h.modLdr g).cal = h.cal := rfl
@[simp] theorem Head.modLdr_fwu (h : Head) (g : Ldr → Ldr) : (h.modLdr g).fwu = h.fwu := rfl
@[simp] theorem Head.modLdr_pins (h : Head) (g : Ldr → Ldr) : (h.modLdr g).pins = h.pins := rfl
@[simp] theorem Head.modLdr_parade (h : Head) (g : Ldr → Ldr) : (h.modLdr g).parade = h.parade := rfl
@[simp] theorem Head.modLdr_paradeSeq (h : Head) (g : Ldr → Ldr) : (h.modLdr g).paradeSeq = h.paradeSeq := rfl
@[simp] theorem Head.modLdr_out (h : Head) (g : Ldr → Ldr) : (h.modLdr g).out = h.out := rfl
@[simp] theorem Head.modLdr_free (h : Head) (g : Ldr → Ldr) : (h.modLdr g).free = h.free := rfl

@[simp] theorem Head.modPair_pair (h : Head) (g : Pair → Pair) : (h.modPair g).pair = g h.pair := rfl
@[simp] theorem Head.modPair_now (h : Head) (g : Pair → Pair) : (h.modPair g).now = h.now := rfl
@[simp] theorem Head.modPair_fuse (h : Head) (g : Pair → Pair) : (h.modPair g).fuse = h.fuse := rfl
@[simp] theorem Head.modPair_regs (h : Head) (g : Pair → Pair) : (h.modPair g).regs = h.regs := rfl
@[simp] theorem Head.modPair_brk (h : Head) (g : Pair → Pair) : (h.modPair g).brk = h.brk := rfl
@[simp] theorem Head.modPair_atc (h : Head) (g : Pair → Pair) : (h.modPair g).atc = h.atc := rfl
@[simp] theorem Head.modPair_flt (h : Head) (g : Pair → Pair) : (h.modPair g).flt = h.flt := rfl
@[simp] theorem Head.modPair_tsi (h : Head) (g : Pair → Pair) : (h.modPair g).tsi = h.tsi := rfl
@[simp] theorem Head.modPair_hqe (h : Head) (g : Pair → Pair) : (h.modPair g).hqe = h.hqe := rfl
@[simp] theorem Head.modPair_dp (h : Head) (g : Pair → Pair) : (h.modPair g).dp = h.dp := rfl
@[simp] theorem Head.modPair_ldr (h : Head) (g : Pair → Pair) : (h.modPair g).ldr = h.ldr := rfl
@[simp] theorem Head.modPair_cmp (h : Head) (g : Pair → Pair) : (h.modPair g).cmp = h.cmp := rfl
@[simp] theorem Head.modPair_stg (h : Head) (g : Pair → Pair) : (h.modPair g).stg = h.stg := rfl
@[simp] theorem Head.modPair_cph (h : Head) (g : Pair → Pair) : (h.modPair g).cph = h.cph := rfl
@[simp] theorem Head.modPair_dgt (h : Head) (g : Pair → Pair) : (h.modPair g).dgt = h.dgt := rfl
@[simp] theorem Head.modPair_pty (h : Head) (g : Pair → Pair) : (h.modPair g).pty = h.pty := rfl
@[simp] theorem Head.modPair_mnd (h : Head) (g : Pair → Pair) : (h.modPair g).mnd = h.mnd := rfl
@[simp] theorem Head.modPair_shf (h : Head) (g : Pair → Pair) : (h.modPair g).shf = h.shf := rfl
@[simp] theorem Head.modPair_whl (h : Head) (g : Pair → Pair) : (h.modPair g).whl = h.whl := rfl
@[simp] theorem Head.modPair_pan (h : Head) (g : Pair → Pair) : (h.modPair g).pan = h.pan := rfl
@[simp] theorem Head.modPair_memc (h : Head) (g : Pair → Pair) : (h.modPair g).memc = h.memc := rfl
@[simp] theorem Head.modPair_pwr (h : Head) (g : Pair → Pair) : (h.modPair g).pwr = h.pwr := rfl
@[simp] theorem Head.modPair_cel (h : Head) (g : Pair → Pair) : (h.modPair g).cel = h.cel := rfl
@[simp] theorem Head.modPair_cal (h : Head) (g : Pair → Pair) : (h.modPair g).cal = h.cal := rfl
@[simp] theorem Head.modPair_fwu (h : Head) (g : Pair → Pair) : (h.modPair g).fwu = h.fwu := rfl
@[simp] theorem Head.modPair_pins (h : Head) (g : Pair → Pair) : (h.modPair g).pins = h.pins := rfl
@[simp] theorem Head.modPair_parade (h : Head) (g : Pair → Pair) : (h.modPair g).parade = h.parade := rfl
@[simp] theorem Head.modPair_paradeSeq (h : Head) (g : Pair → Pair) : (h.modPair g).paradeSeq = h.paradeSeq := rfl
@[simp] theorem Head.modPair_out (h : Head) (g : Pair → Pair) : (h.modPair g).out = h.out := rfl
@[simp] theorem Head.modPair_free (h : Head) (g : Pair → Pair) : (h.modPair g).free = h.free := rfl

@[simp] theorem Head.modStg_stg (h : Head) (g : Stg → Stg) : (h.modStg g).stg = g h.stg := rfl
@[simp] theorem Head.modStg_now (h : Head) (g : Stg → Stg) : (h.modStg g).now = h.now := rfl
@[simp] theorem Head.modStg_fuse (h : Head) (g : Stg → Stg) : (h.modStg g).fuse = h.fuse := rfl
@[simp] theorem Head.modStg_regs (h : Head) (g : Stg → Stg) : (h.modStg g).regs = h.regs := rfl
@[simp] theorem Head.modStg_brk (h : Head) (g : Stg → Stg) : (h.modStg g).brk = h.brk := rfl
@[simp] theorem Head.modStg_atc (h : Head) (g : Stg → Stg) : (h.modStg g).atc = h.atc := rfl
@[simp] theorem Head.modStg_flt (h : Head) (g : Stg → Stg) : (h.modStg g).flt = h.flt := rfl
@[simp] theorem Head.modStg_tsi (h : Head) (g : Stg → Stg) : (h.modStg g).tsi = h.tsi := rfl
@[simp] theorem Head.modStg_hqe (h : Head) (g : Stg → Stg) : (h.modStg g).hqe = h.hqe := rfl
@[simp] theorem Head.modStg_dp (h : Head) (g : Stg → Stg) : (h.modStg g).dp = h.dp := rfl
@[simp] theorem Head.modStg_ldr (h : Head) (g : Stg → Stg) : (h.modStg g).ldr = h.ldr := rfl
@[simp] theorem Head.modStg_cmp (h : Head) (g : Stg → Stg) : (h.modStg g).cmp = h.cmp := rfl
@[simp] theorem Head.modStg_cph (h : Head) (g : Stg → Stg) : (h.modStg g).cph = h.cph := rfl
@[simp] theorem Head.modStg_dgt (h : Head) (g : Stg → Stg) : (h.modStg g).dgt = h.dgt := rfl
@[simp] theorem Head.modStg_pty (h : Head) (g : Stg → Stg) : (h.modStg g).pty = h.pty := rfl
@[simp] theorem Head.modStg_mnd (h : Head) (g : Stg → Stg) : (h.modStg g).mnd = h.mnd := rfl
@[simp] theorem Head.modStg_shf (h : Head) (g : Stg → Stg) : (h.modStg g).shf = h.shf := rfl
@[simp] theorem Head.modStg_whl (h : Head) (g : Stg → Stg) : (h.modStg g).whl = h.whl := rfl
@[simp] theorem Head.modStg_pair (h : Head) (g : Stg → Stg) : (h.modStg g).pair = h.pair := rfl
@[simp] theorem Head.modStg_pan (h : Head) (g : Stg → Stg) : (h.modStg g).pan = h.pan := rfl
@[simp] theorem Head.modStg_memc (h : Head) (g : Stg → Stg) : (h.modStg g).memc = h.memc := rfl
@[simp] theorem Head.modStg_pwr (h : Head) (g : Stg → Stg) : (h.modStg g).pwr = h.pwr := rfl
@[simp] theorem Head.modStg_cel (h : Head) (g : Stg → Stg) : (h.modStg g).cel = h.cel := rfl
@[simp] theorem Head.modStg_cal (h : Head) (g : Stg → Stg) : (h.modStg g).cal = h.cal := rfl
@[simp] theorem Head.modStg_fwu (h : Head) (g : Stg → Stg) : (h.modStg g).fwu = h.fwu := rfl
@[simp] theorem Head.modStg_pins (h : Head) (g : Stg → Stg) : (h.modStg g).pins = h.pins := rfl
@[simp] theorem Head.modStg_parade (h : Head) (g : Stg → Stg) : (h.modStg g).parade = h.parade := rfl
@[simp] theorem Head.modStg_paradeSeq (h : Head) (g : Stg → Stg) : (h.modStg g).paradeSeq = h.paradeSeq := rfl
@[simp] theorem Head.modStg_out (h : Head) (g : Stg → Stg) : (h.modStg g).out = h.out := rfl
@[simp] theorem Head.modStg_free (h : Head) (g : Stg → Stg) : (h.modStg g).free = h.free := rfl

@[simp] theorem Head.modPan_pan (h : Head) (g : Pan → Pan) : (h.modPan g).pan = g h.pan := rfl
@[simp] theorem Head.modPan_now (h : Head) (g : Pan → Pan) : (h.modPan g).now = h.now := rfl
@[simp] theorem Head.modPan_fuse (h : Head) (g : Pan → Pan) : (h.modPan g).fuse = h.fuse := rfl
@[simp] theorem Head.modPan_regs (h : Head) (g : Pan → Pan) : (h.modPan g).regs = h.regs := rfl
@[simp] theorem Head.modPan_brk (h : Head) (g : Pan → Pan) : (h.modPan g).brk = h.brk := rfl
@[simp] theorem Head.modPan_atc (h : Head) (g : Pan → Pan) : (h.modPan g).atc = h.atc := rfl
@[simp] theorem Head.modPan_flt (h : Head) (g : Pan → Pan) : (h.modPan g).flt = h.flt := rfl
@[simp] theorem Head.modPan_tsi (h : Head) (g : Pan → Pan) : (h.modPan g).tsi = h.tsi := rfl
@[simp] theorem Head.modPan_hqe (h : Head) (g : Pan → Pan) : (h.modPan g).hqe = h.hqe := rfl
@[simp] theorem Head.modPan_dp (h : Head) (g : Pan → Pan) : (h.modPan g).dp = h.dp := rfl
@[simp] theorem Head.modPan_ldr (h : Head) (g : Pan → Pan) : (h.modPan g).ldr = h.ldr := rfl
@[simp] theorem Head.modPan_cmp (h : Head) (g : Pan → Pan) : (h.modPan g).cmp = h.cmp := rfl
@[simp] theorem Head.modPan_stg (h : Head) (g : Pan → Pan) : (h.modPan g).stg = h.stg := rfl
@[simp] theorem Head.modPan_cph (h : Head) (g : Pan → Pan) : (h.modPan g).cph = h.cph := rfl
@[simp] theorem Head.modPan_dgt (h : Head) (g : Pan → Pan) : (h.modPan g).dgt = h.dgt := rfl
@[simp] theorem Head.modPan_pty (h : Head) (g : Pan → Pan) : (h.modPan g).pty = h.pty := rfl
@[simp] theorem Head.modPan_mnd (h : Head) (g : Pan → Pan) : (h.modPan g).mnd = h.mnd := rfl
@[simp] theorem Head.modPan_shf (h : Head) (g : Pan → Pan) : (h.modPan g).shf = h.shf := rfl
@[simp] theorem Head.modPan_whl (h : Head) (g : Pan → Pan) : (h.modPan g).whl = h.whl := rfl
@[simp] theorem Head.modPan_pair (h : Head) (g : Pan → Pan) : (h.modPan g).pair = h.pair := rfl
@[simp] theorem Head.modPan_memc (h : Head) (g : Pan → Pan) : (h.modPan g).memc = h.memc := rfl
@[simp] theorem Head.modPan_pwr (h : Head) (g : Pan → Pan) : (h.modPan g).pwr = h.pwr := rfl
@[simp] theorem Head.modPan_cel (h : Head) (g : Pan → Pan) : (h.modPan g).cel = h.cel := rfl
@[simp] theorem Head.modPan_cal (h : Head) (g : Pan → Pan) : (h.modPan g).cal = h.cal := rfl
@[simp] theorem Head.modPan_fwu (h : Head) (g : Pan → Pan) : (h.modPan g).fwu = h.fwu := rfl
@[simp] theorem Head.modPan_pins (h : Head) (g : Pan → Pan) : (h.modPan g).pins = h.pins := rfl
@[simp] theorem Head.modPan_parade (h : Head) (g : Pan → Pan) : (h.modPan g).parade = h.parade := rfl
@[simp] theorem Head.modPan_paradeSeq (h : Head) (g : Pan → Pan) : (h.modPan g).paradeSeq = h.paradeSeq := rfl
@[simp] theorem Head.modPan_out (h : Head) (g : Pan → Pan) : (h.modPan g).out = h.out := rfl
@[simp] theorem Head.modPan_free (h : Head) (g : Pan → Pan) : (h.modPan g).free = h.free := rfl

@[simp] theorem Head.modShf_shf (h : Head) (g : Shf → Shf) : (h.modShf g).shf = g h.shf := rfl
@[simp] theorem Head.modShf_now (h : Head) (g : Shf → Shf) : (h.modShf g).now = h.now := rfl
@[simp] theorem Head.modShf_fuse (h : Head) (g : Shf → Shf) : (h.modShf g).fuse = h.fuse := rfl
@[simp] theorem Head.modShf_regs (h : Head) (g : Shf → Shf) : (h.modShf g).regs = h.regs := rfl
@[simp] theorem Head.modShf_brk (h : Head) (g : Shf → Shf) : (h.modShf g).brk = h.brk := rfl
@[simp] theorem Head.modShf_atc (h : Head) (g : Shf → Shf) : (h.modShf g).atc = h.atc := rfl
@[simp] theorem Head.modShf_flt (h : Head) (g : Shf → Shf) : (h.modShf g).flt = h.flt := rfl
@[simp] theorem Head.modShf_tsi (h : Head) (g : Shf → Shf) : (h.modShf g).tsi = h.tsi := rfl
@[simp] theorem Head.modShf_hqe (h : Head) (g : Shf → Shf) : (h.modShf g).hqe = h.hqe := rfl
@[simp] theorem Head.modShf_dp (h : Head) (g : Shf → Shf) : (h.modShf g).dp = h.dp := rfl
@[simp] theorem Head.modShf_ldr (h : Head) (g : Shf → Shf) : (h.modShf g).ldr = h.ldr := rfl
@[simp] theorem Head.modShf_cmp (h : Head) (g : Shf → Shf) : (h.modShf g).cmp = h.cmp := rfl
@[simp] theorem Head.modShf_stg (h : Head) (g : Shf → Shf) : (h.modShf g).stg = h.stg := rfl
@[simp] theorem Head.modShf_cph (h : Head) (g : Shf → Shf) : (h.modShf g).cph = h.cph := rfl
@[simp] theorem Head.modShf_dgt (h : Head) (g : Shf → Shf) : (h.modShf g).dgt = h.dgt := rfl
@[simp] theorem Head.modShf_pty (h : Head) (g : Shf → Shf) : (h.modShf g).pty = h.pty := rfl
@[simp] theorem Head.modShf_mnd (h : Head) (g : Shf → Shf) : (h.modShf g).mnd = h.mnd := rfl
@[simp] theorem Head.modShf_whl (h : Head) (g : Shf → Shf) : (h.modShf g).whl = h.whl := rfl
@[simp] theorem Head.modShf_pair (h : Head) (g : Shf → Shf) : (h.modShf g).pair = h.pair := rfl
@[simp] theorem Head.modShf_pan (h : Head) (g : Shf → Shf) : (h.modShf g).pan = h.pan := rfl
@[simp] theorem Head.modShf_memc (h : Head) (g : Shf → Shf) : (h.modShf g).memc = h.memc := rfl
@[simp] theorem Head.modShf_pwr (h : Head) (g : Shf → Shf) : (h.modShf g).pwr = h.pwr := rfl
@[simp] theorem Head.modShf_cel (h : Head) (g : Shf → Shf) : (h.modShf g).cel = h.cel := rfl
@[simp] theorem Head.modShf_cal (h : Head) (g : Shf → Shf) : (h.modShf g).cal = h.cal := rfl
@[simp] theorem Head.modShf_fwu (h : Head) (g : Shf → Shf) : (h.modShf g).fwu = h.fwu := rfl
@[simp] theorem Head.modShf_pins (h : Head) (g : Shf → Shf) : (h.modShf g).pins = h.pins := rfl
@[simp] theorem Head.modShf_parade (h : Head) (g : Shf → Shf) : (h.modShf g).parade = h.parade := rfl
@[simp] theorem Head.modShf_paradeSeq (h : Head) (g : Shf → Shf) : (h.modShf g).paradeSeq = h.paradeSeq := rfl
@[simp] theorem Head.modShf_out (h : Head) (g : Shf → Shf) : (h.modShf g).out = h.out := rfl
@[simp] theorem Head.modShf_free (h : Head) (g : Shf → Shf) : (h.modShf g).free = h.free := rfl

@[simp] theorem Head.modFlt_flt (h : Head) (g : Faults → Faults) : (h.modFlt g).flt = g h.flt := rfl
@[simp] theorem Head.modFlt_now (h : Head) (g : Faults → Faults) : (h.modFlt g).now = h.now := rfl
@[simp] theorem Head.modFlt_fuse (h : Head) (g : Faults → Faults) : (h.modFlt g).fuse = h.fuse := rfl
@[simp] theorem Head.modFlt_regs (h : Head) (g : Faults → Faults) : (h.modFlt g).regs = h.regs := rfl
@[simp] theorem Head.modFlt_brk (h : Head) (g : Faults → Faults) : (h.modFlt g).brk = h.brk := rfl
@[simp] theorem Head.modFlt_atc (h : Head) (g : Faults → Faults) : (h.modFlt g).atc = h.atc := rfl
@[simp] theorem Head.modFlt_tsi (h : Head) (g : Faults → Faults) : (h.modFlt g).tsi = h.tsi := rfl
@[simp] theorem Head.modFlt_hqe (h : Head) (g : Faults → Faults) : (h.modFlt g).hqe = h.hqe := rfl
@[simp] theorem Head.modFlt_dp (h : Head) (g : Faults → Faults) : (h.modFlt g).dp = h.dp := rfl
@[simp] theorem Head.modFlt_ldr (h : Head) (g : Faults → Faults) : (h.modFlt g).ldr = h.ldr := rfl
@[simp] theorem Head.modFlt_cmp (h : Head) (g : Faults → Faults) : (h.modFlt g).cmp = h.cmp := rfl
@[simp] theorem Head.modFlt_stg (h : Head) (g : Faults → Faults) : (h.modFlt g).stg = h.stg := rfl
@[simp] theorem Head.modFlt_cph (h : Head) (g : Faults → Faults) : (h.modFlt g).cph = h.cph := rfl
@[simp] theorem Head.modFlt_dgt (h : Head) (g : Faults → Faults) : (h.modFlt g).dgt = h.dgt := rfl
@[simp] theorem Head.modFlt_pty (h : Head) (g : Faults → Faults) : (h.modFlt g).pty = h.pty := rfl
@[simp] theorem Head.modFlt_mnd (h : Head) (g : Faults → Faults) : (h.modFlt g).mnd = h.mnd := rfl
@[simp] theorem Head.modFlt_shf (h : Head) (g : Faults → Faults) : (h.modFlt g).shf = h.shf := rfl
@[simp] theorem Head.modFlt_whl (h : Head) (g : Faults → Faults) : (h.modFlt g).whl = h.whl := rfl
@[simp] theorem Head.modFlt_pair (h : Head) (g : Faults → Faults) : (h.modFlt g).pair = h.pair := rfl
@[simp] theorem Head.modFlt_pan (h : Head) (g : Faults → Faults) : (h.modFlt g).pan = h.pan := rfl
@[simp] theorem Head.modFlt_memc (h : Head) (g : Faults → Faults) : (h.modFlt g).memc = h.memc := rfl
@[simp] theorem Head.modFlt_pwr (h : Head) (g : Faults → Faults) : (h.modFlt g).pwr = h.pwr := rfl
@[simp] theorem Head.modFlt_cel (h : Head) (g : Faults → Faults) : (h.modFlt g).cel = h.cel := rfl
@[simp] theorem Head.modFlt_cal (h : Head) (g : Faults → Faults) : (h.modFlt g).cal = h.cal := rfl
@[simp] theorem Head.modFlt_fwu (h : Head) (g : Faults → Faults) : (h.modFlt g).fwu = h.fwu := rfl
@[simp] theorem Head.modFlt_pins (h : Head) (g : Faults → Faults) : (h.modFlt g).pins = h.pins := rfl
@[simp] theorem Head.modFlt_parade (h : Head) (g : Faults → Faults) : (h.modFlt g).parade = h.parade := rfl
@[simp] theorem Head.modFlt_paradeSeq (h : Head) (g : Faults → Faults) : (h.modFlt g).paradeSeq = h.paradeSeq := rfl
@[simp] theorem Head.modFlt_out (h : Head) (g : Faults → Faults) : (h.modFlt g).out = h.out := rfl
@[simp] theorem Head.modFlt_free (h : Head) (g : Faults → Faults) : (h.modFlt g).free = h.free := rfl

@[simp] theorem Head.modFwu_fwu (h : Head) (g : Fwu → Fwu) : (h.modFwu g).fwu = g h.fwu := rfl
@[simp] theorem Head.modFwu_now (h : Head) (g : Fwu → Fwu) : (h.modFwu g).now = h.now := rfl
@[simp] theorem Head.modFwu_fuse (h : Head) (g : Fwu → Fwu) : (h.modFwu g).fuse = h.fuse := rfl
@[simp] theorem Head.modFwu_regs (h : Head) (g : Fwu → Fwu) : (h.modFwu g).regs = h.regs := rfl
@[simp] theorem Head.modFwu_brk (h : Head) (g : Fwu → Fwu) : (h.modFwu g).brk = h.brk := rfl
@[simp] theorem Head.modFwu_atc (h : Head) (g : Fwu → Fwu) : (h.modFwu g).atc = h.atc := rfl
@[simp] theorem Head.modFwu_flt (h : Head) (g : Fwu → Fwu) : (h.modFwu g).flt = h.flt := rfl
@[simp] theorem Head.modFwu_tsi (h : Head) (g : Fwu → Fwu) : (h.modFwu g).tsi = h.tsi := rfl
@[simp] theorem Head.modFwu_hqe (h : Head) (g : Fwu → Fwu) : (h.modFwu g).hqe = h.hqe := rfl
@[simp] theorem Head.modFwu_dp (h : Head) (g : Fwu → Fwu) : (h.modFwu g).dp = h.dp := rfl
@[simp] theorem Head.modFwu_ldr (h : Head) (g : Fwu → Fwu) : (h.modFwu g).ldr = h.ldr := rfl
@[simp] theorem Head.modFwu_cmp (h : Head) (g : Fwu → Fwu) : (h.modFwu g).cmp = h.cmp := rfl
@[simp] theorem Head.modFwu_stg (h : Head) (g : Fwu → Fwu) : (h.modFwu g).stg = h.stg := rfl
@[simp] theorem Head.modFwu_cph (h : Head) (g : Fwu → Fwu) : (h.modFwu g).cph = h.cph := rfl
@[simp] theorem Head.modFwu_dgt (h : Head) (g : Fwu → Fwu) : (h.modFwu g).dgt = h.dgt := rfl
@[simp] theorem Head.modFwu_pty (h : Head) (g : Fwu → Fwu) : (h.modFwu g).pty = h.pty := rfl
@[simp] theorem Head.modFwu_mnd (h : Head) (g : Fwu → Fwu) : (h.modFwu g).mnd = h.mnd := rfl
@[simp] theorem Head.modFwu_shf (h : Head) (g : Fwu → Fwu) : (h.modFwu g).shf = h.shf := rfl
@[simp] theorem Head.modFwu_whl (h : Head) (g : Fwu → Fwu) : (h.modFwu g).whl = h.whl := rfl
@[simp] theorem Head.modFwu_pair (h : Head) (g : Fwu → Fwu) : (h.modFwu g).pair = h.pair := rfl
@[simp] theorem Head.modFwu_pan (h : Head) (g : Fwu → Fwu) : (h.modFwu g).pan = h.pan := rfl
@[simp] theorem Head.modFwu_memc (h : Head) (g : Fwu → Fwu) : (h.modFwu g).memc = h.memc := rfl
@[simp] theorem Head.modFwu_pwr (h : Head) (g : Fwu → Fwu) : (h.modFwu g).pwr = h.pwr := rfl
@[simp] theorem Head.modFwu_cel (h : Head) (g : Fwu → Fwu) : (h.modFwu g).cel = h.cel := rfl
@[simp] theorem Head.modFwu_cal (h : Head) (g : Fwu → Fwu) : (h.modFwu g).cal = h.cal := rfl
@[simp] theorem Head.modFwu_pins (h : Head) (g : Fwu → Fwu) : (h.modFwu g).pins = h.pins := rfl
@[simp] theorem Head.modFwu_parade (h : Head) (g : Fwu → Fwu) : (h.modFwu g).parade = h.parade := rfl
@[simp] theorem Head.modFwu_paradeSeq (h : Head) (g : Fwu → Fwu) : (h.modFwu g).paradeSeq = h.paradeSeq := rfl
@[simp] theorem Head.modFwu_out (h : Head) (g : Fwu → Fwu) : (h.modFwu g).out = h.out := rfl
@[simp] theorem Head.modFwu_free (h : Head) (g : Fwu → Fwu) : (h.modFwu g).free = h.free := rfl

@[simp] theorem Head.modPwr_pwr (h : Head) (g : Pwr → Pwr) : (h.modPwr g).pwr = g h.pwr := rfl
@[simp] theorem Head.modPwr_now (h : Head) (g : Pwr → Pwr) : (h.modPwr g).now = h.now := rfl
@[simp] theorem Head.modPwr_fuse (h : Head) (g : Pwr → Pwr) : (h.modPwr g).fuse = h.fuse := rfl
@[simp] theorem Head.modPwr_regs (h : Head) (g : Pwr → Pwr) : (h.modPwr g).regs = h.regs := rfl
@[simp] theorem Head.modPwr_brk (h : Head) (g : Pwr → Pwr) : (h.modPwr g).brk = h.brk := rfl
@[simp] theorem Head.modPwr_atc (h : Head) (g : Pwr → Pwr) : (h.modPwr g).atc = h.atc := rfl
@[simp] theorem Head.modPwr_flt (h : Head) (g : Pwr → Pwr) : (h.modPwr g).flt = h.flt := rfl
@[simp] theorem Head.modPwr_tsi (h : Head) (g : Pwr → Pwr) : (h.modPwr g).tsi = h.tsi := rfl
@[simp] theorem Head.modPwr_hqe (h : Head) (g : Pwr → Pwr) : (h.modPwr g).hqe = h.hqe := rfl
@[simp] theorem Head.modPwr_dp (h : Head) (g : Pwr → Pwr) : (h.modPwr g).dp = h.dp := rfl
@[simp] theorem Head.modPwr_ldr (h : Head) (g : Pwr → Pwr) : (h.modPwr g).ldr = h.ldr := rfl
@[simp] theorem Head.modPwr_cmp (h : Head) (g : Pwr → Pwr) : (h.modPwr g).cmp = h.cmp := rfl
@[simp] theorem Head.modPwr_stg (h : Head) (g : Pwr → Pwr) : (h.modPwr g).stg = h.stg := rfl
@[simp] theorem Head.modPwr_cph (h : Head) (g : Pwr → Pwr) : (h.modPwr g).cph = h.cph := rfl
@[simp] theorem Head.modPwr_dgt (h : Head) (g : Pwr → Pwr) : (h.modPwr g).dgt = h.dgt := rfl
@[simp] theorem Head.modPwr_pty (h : Head) (g : Pwr → Pwr) : (h.modPwr g).pty = h.pty := rfl
@[simp] theorem Head.modPwr_mnd (h : Head) (g : Pwr → Pwr) : (h.modPwr g).mnd = h.mnd := rfl
@[simp] theorem Head.modPwr_shf (h : Head) (g : Pwr → Pwr) : (h.modPwr g).shf = h.shf := rfl
@[simp] theorem Head.modPwr_whl (h : Head) (g : Pwr → Pwr) : (h.modPwr g).whl = h.whl := rfl
@[simp] theorem Head.modPwr_pair (h : Head) (g : Pwr → Pwr) : (h.modPwr g).pair = h.pair := rfl
@[simp] theorem Head.modPwr_pan (h : Head) (g : Pwr → Pwr) : (h.modPwr g).pan = h.pan := rfl
@[simp] theorem Head.modPwr_memc (h : Head) (g : Pwr → Pwr) : (h.modPwr g).memc = h.memc := rfl
@[simp] theorem Head.modPwr_cel (h : Head) (g : Pwr → Pwr) : (h.modPwr g).cel = h.cel := rfl
@[simp] theorem Head.modPwr_cal (h : Head) (g : Pwr → Pwr) : (h.modPwr g).cal = h.cal := rfl
@[simp] theorem Head.modPwr_fwu (h : Head) (g : Pwr → Pwr) : (h.modPwr g).fwu = h.fwu := rfl
@[simp] theorem Head.modPwr_pins (h : Head) (g : Pwr → Pwr) : (h.modPwr g).pins = h.pins := rfl
@[simp] theorem Head.modPwr_parade (h : Head) (g : Pwr → Pwr) : (h.modPwr g).parade = h.parade := rfl
@[simp] theorem Head.modPwr_paradeSeq (h : Head) (g : Pwr → Pwr) : (h.modPwr g).paradeSeq = h.paradeSeq := rfl
@[simp] theorem Head.modPwr_out (h : Head) (g : Pwr → Pwr) : (h.modPwr g).out = h.out := rfl
@[simp] theorem Head.modPwr_free (h : Head) (g : Pwr → Pwr) : (h.modPwr g).free = h.free := rfl

@[simp] theorem Head.modCel_cel (h : Head) (g : Cel → Cel) : (h.modCel g).cel = g h.cel := rfl
@[simp] theorem Head.modCel_now (h : Head) (g : Cel → Cel) : (h.modCel g).now = h.now := rfl
@[simp] theorem Head.modCel_fuse (h : Head) (g : Cel → Cel) : (h.modCel g).fuse = h.fuse := rfl
@[simp] theorem Head.modCel_regs (h : Head) (g : Cel → Cel) : (h.modCel g).regs = h.regs := rfl
@[simp] theorem Head.modCel_brk (h : Head) (g : Cel → Cel) : (h.modCel g).brk = h.brk := rfl
@[simp] theorem Head.modCel_atc (h : Head) (g : Cel → Cel) : (h.modCel g).atc = h.atc := rfl
@[simp] theorem Head.modCel_flt (h : Head) (g : Cel → Cel) : (h.modCel g).flt = h.flt := rfl
@[simp] theorem Head.modCel_tsi (h : Head) (g : Cel → Cel) : (h.modCel g).tsi = h.tsi := rfl
@[simp] theorem Head.modCel_hqe (h : Head) (g : Cel → Cel) : (h.modCel g).hqe = h.hqe := rfl
@[simp] theorem Head.modCel_dp (h : Head) (g : Cel → Cel) : (h.modCel g).dp = h.dp := rfl
@[simp] theorem Head.modCel_ldr (h : Head) (g : Cel → Cel) : (h.modCel g).ldr = h.ldr := rfl
@[simp] theorem Head.modCel_cmp (h : Head) (g : Cel → Cel) : (h.modCel g).cmp = h.cmp := rfl
@[simp] theorem Head.modCel_stg (h : Head) (g : Cel → Cel) : (h.modCel g).stg = h.stg := rfl
@[simp] theorem Head.modCel_cph (h : Head) (g : Cel → Cel) : (h.modCel g).cph = h.cph := rfl
@[simp] theorem Head.modCel_dgt (h : Head) (g : Cel → Cel) : (h.modCel g).dgt = h.dgt := rfl
@[simp] theorem Head.modCel_pty (h : Head) (g : Cel → Cel) : (h.modCel g).pty = h.pty := rfl
@[simp] theorem Head.modCel_mnd (h : Head) (g : Cel → Cel) : (h.modCel g).mnd = h.mnd := rfl
@[simp] theorem Head.modCel_shf (h : Head) (g : Cel → Cel) : (h.modCel g).shf = h.shf := rfl
@[simp] theorem Head.modCel_whl (h : Head) (g : Cel → Cel) : (h.modCel g).whl = h.whl := rfl
@[simp] theorem Head.modCel_pair (h : Head) (g : Cel → Cel) : (h.modCel g).pair = h.pair := rfl
@[simp] theorem Head.modCel_pan (h : Head) (g : Cel → Cel) : (h.modCel g).pan = h.pan := rfl
@[simp] theorem Head.modCel_memc (h : Head) (g : Cel → Cel) : (h.modCel g).memc = h.memc := rfl
@[simp] theorem Head.modCel_pwr (h : Head) (g : Cel → Cel) : (h.modCel g).pwr = h.pwr := rfl
@[simp] theorem Head.modCel_cal (h : Head) (g : Cel → Cel) : (h.modCel g).cal = h.cal := rfl
@[simp] theorem Head.modCel_fwu (h : Head) (g : Cel → Cel) : (h.modCel g).fwu = h.fwu := rfl
@[simp] theorem Head.modCel_pins (h : Head) (g : Cel → Cel) : (h.modCel g).pins = h.pins := rfl
@[simp] theorem Head.modCel_parade (h : Head) (g : Cel → Cel) : (h.modCel g).parade = h.parade := rfl
@[simp] theorem Head.modCel_paradeSeq (h : Head) (g : Cel → Cel) : (h.modCel g).paradeSeq = h.paradeSeq := rfl
@[simp] theorem Head.modCel_out (h : Head) (g : Cel → Cel) : (h.modCel g).out = h.out := rfl
@[simp] theorem Head.modCel_free (h : Head) (g : Cel → Cel) : (h.modCel g).free = h.free := rfl

@[simp] theorem Head.modCal_cal (h : Head) (g : Cal → Cal) : (h.modCal g).cal = g h.cal := rfl
@[simp] theorem Head.modCal_now (h : Head) (g : Cal → Cal) : (h.modCal g).now = h.now := rfl
@[simp] theorem Head.modCal_fuse (h : Head) (g : Cal → Cal) : (h.modCal g).fuse = h.fuse := rfl
@[simp] theorem Head.modCal_regs (h : Head) (g : Cal → Cal) : (h.modCal g).regs = h.regs := rfl
@[simp] theorem Head.modCal_brk (h : Head) (g : Cal → Cal) : (h.modCal g).brk = h.brk := rfl
@[simp] theorem Head.modCal_atc (h : Head) (g : Cal → Cal) : (h.modCal g).atc = h.atc := rfl
@[simp] theorem Head.modCal_flt (h : Head) (g : Cal → Cal) : (h.modCal g).flt = h.flt := rfl
@[simp] theorem Head.modCal_tsi (h : Head) (g : Cal → Cal) : (h.modCal g).tsi = h.tsi := rfl
@[simp] theorem Head.modCal_hqe (h : Head) (g : Cal → Cal) : (h.modCal g).hqe = h.hqe := rfl
@[simp] theorem Head.modCal_dp (h : Head) (g : Cal → Cal) : (h.modCal g).dp = h.dp := rfl
@[simp] theorem Head.modCal_ldr (h : Head) (g : Cal → Cal) : (h.modCal g).ldr = h.ldr := rfl
@[simp] theorem Head.modCal_cmp (h : Head) (g : Cal → Cal) : (h.modCal g).cmp = h.cmp := rfl
@[simp] theorem Head.modCal_stg (h : Head) (g : Cal → Cal) : (h.modCal g).stg = h.stg := rfl
@[simp] theorem Head.modCal_cph (h : Head) (g : Cal → Cal) : (h.modCal g).cph = h.cph := rfl
@[simp] theorem Head.modCal_dgt (h : Head) (g : Cal → Cal) : (h.modCal g).dgt = h.dgt := rfl
@[simp] theorem Head.modCal_pty (h : Head) (g : Cal → Cal) : (h.modCal g).pty = h.pty := rfl
@[simp] theorem Head.modCal_mnd (h : Head) (g : Cal → Cal) : (h.modCal g).mnd = h.mnd := rfl
@[simp] theorem Head.modCal_shf (h : Head) (g : Cal → Cal) : (h.modCal g).shf = h.shf := rfl
@[simp] theorem Head.modCal_whl (h : Head) (g : Cal → Cal) : (h.modCal g).whl = h.whl := rfl
@[simp] theorem Head.modCal_pair (h : Head) (g : Cal → Cal) : (h.modCal g).pair = h.pair := rfl
@[simp] theorem Head.modCal_pan (h : Head) (g : Cal → Cal) : (h.modCal g).pan = h.pan := rfl
@[simp] theorem Head.modCal_memc (h : Head) (g : Cal → Cal) : (h.modCal g).memc = h.memc := rfl
@[simp] theorem Head.modCal_pwr (h : Head) (g : Cal → Cal) : (h.modCal g).pwr = h.pwr := rfl
@[simp] theorem Head.modCal_cel (h : Head) (g : Cal → Cal) : (h.modCal g).cel = h.cel := rfl
@[simp] theorem Head.modCal_fwu (h : Head) (g : Cal → Cal) : (h.modCal g).fwu = h.fwu := rfl
@[simp] theorem Head.modCal_pins (h : Head) (g : Cal → Cal) : (h.modCal g).pins = h.pins := rfl
@[simp] theorem Head.modCal_parade (h : Head) (g : Cal → Cal) : (h.modCal g).parade = h.parade := rfl
@[simp] theorem Head.modCal_paradeSeq (h : Head) (g : Cal → Cal) : (h.modCal g).paradeSeq = h.paradeSeq := rfl
@[simp] theorem Head.modCal_out (h : Head) (g : Cal → Cal) : (h.modCal g).out = h.out := rfl
@[simp] theorem Head.modCal_free (h : Head) (g : Cal → Cal) : (h.modCal g).free = h.free := rfl

@[simp] theorem Head.modPty_pty (h : Head) (g : Pty → Pty) : (h.modPty g).pty = g h.pty := rfl
@[simp] theorem Head.modPty_now (h : Head) (g : Pty → Pty) : (h.modPty g).now = h.now := rfl
@[simp] theorem Head.modPty_fuse (h : Head) (g : Pty → Pty) : (h.modPty g).fuse = h.fuse := rfl
@[simp] theorem Head.modPty_regs (h : Head) (g : Pty → Pty) : (h.modPty g).regs = h.regs := rfl
@[simp] theorem Head.modPty_brk (h : Head) (g : Pty → Pty) : (h.modPty g).brk = h.brk := rfl
@[simp] theorem Head.modPty_atc (h : Head) (g : Pty → Pty) : (h.modPty g).atc = h.atc := rfl
@[simp] theorem Head.modPty_flt (h : Head) (g : Pty → Pty) : (h.modPty g).flt = h.flt := rfl
@[simp] theorem Head.modPty_tsi (h : Head) (g : Pty → Pty) : (h.modPty g).tsi = h.tsi := rfl
@[simp] theorem Head.modPty_hqe (h : Head) (g : Pty → Pty) : (h.modPty g).hqe = h.hqe := rfl
@[simp] theorem Head.modPty_dp (h : Head) (g : Pty → Pty) : (h.modPty g).dp = h.dp := rfl
@[simp] theorem Head.modPty_ldr (h : Head) (g : Pty → Pty) : (h.modPty g).ldr = h.ldr := rfl
@[simp] theorem Head.modPty_cmp (h : Head) (g : Pty → Pty) : (h.modPty g).cmp = h.cmp := rfl
@[simp] theorem Head.modPty_stg (h : Head) (g : Pty → Pty) : (h.modPty g).stg = h.stg := rfl
@[simp] theorem Head.modPty_cph (h : Head) (g : Pty → Pty) : (h.modPty g).cph = h.cph := rfl
@[simp] theorem Head.modPty_dgt (h : Head) (g : Pty → Pty) : (h.modPty g).dgt = h.dgt := rfl
@[simp] theorem Head.modPty_mnd (h : Head) (g : Pty → Pty) : (h.modPty g).mnd = h.mnd := rfl
@[simp] theorem Head.modPty_shf (h : Head) (g : Pty → Pty) : (h.modPty g).shf = h.shf := rfl
@[simp] theorem Head.modPty_whl (h : Head) (g : Pty → Pty) : (h.modPty g).whl = h.whl := rfl
@[simp] theorem Head.modPty_pair (h : Head) (g : Pty → Pty) : (h.modPty g).pair = h.pair := rfl
@[simp] theorem Head.modPty_pan (h : Head) (g : Pty → Pty) : (h.modPty g).pan = h.pan := rfl
@[simp] theorem Head.modPty_memc (h : Head) (g : Pty → Pty) : (h.modPty g).memc = h.memc := rfl
@[simp] theorem Head.modPty_pwr (h : Head) (g : Pty → Pty) : (h.modPty g).pwr = h.pwr := rfl
@[simp] theorem Head.modPty_cel (h : Head) (g : Pty → Pty) : (h.modPty g).cel = h.cel := rfl
@[simp] theorem Head.modPty_cal (h : Head) (g : Pty → Pty) : (h.modPty g).cal = h.cal := rfl
@[simp] theorem Head.modPty_fwu (h : Head) (g : Pty → Pty) : (h.modPty g).fwu = h.fwu := rfl
@[simp] theorem Head.modPty_pins (h : Head) (g : Pty → Pty) : (h.modPty g).pins = h.pins := rfl
@[simp] theorem Head.modPty_parade (h : Head) (g : Pty → Pty) : (h.modPty g).parade = h.parade := rfl
@[simp] theorem Head.modPty_paradeSeq (h : Head) (g : Pty → Pty) : (h.modPty g).paradeSeq = h.paradeSeq := rfl
@[simp] theorem Head.modPty_out (h : Head) (g : Pty → Pty) : (h.modPty g).out = h.out := rfl
@[simp] theorem Head.modPty_free (h : Head) (g : Pty → Pty) : (h.modPty g).free = h.free := rfl

@[simp] theorem Head.modMnd_mnd (h : Head) (g : Mnd → Mnd) : (h.modMnd g).mnd = g h.mnd := rfl
@[simp] theorem Head.modMnd_now (h : Head) (g : Mnd → Mnd) : (h.modMnd g).now = h.now := rfl
@[simp] theorem Head.modMnd_fuse (h : Head) (g : Mnd → Mnd) : (h.modMnd g).fuse = h.fuse := rfl
@[simp] theorem Head.modMnd_regs (h : Head) (g : Mnd → Mnd) : (h.modMnd g).regs = h.regs := rfl
@[simp] theorem Head.modMnd_brk (h : Head) (g : Mnd → Mnd) : (h.modMnd g).brk = h.brk := rfl
@[simp] theorem Head.modMnd_atc (h : Head) (g : Mnd → Mnd) : (h.modMnd g).atc = h.atc := rfl
@[simp] theorem Head.modMnd_flt (h : Head) (g : Mnd → Mnd) : (h.modMnd g).flt = h.flt := rfl
@[simp] theorem Head.modMnd_tsi (h : Head) (g : Mnd → Mnd) : (h.modMnd g).tsi = h.tsi := rfl
@[simp] theorem Head.modMnd_hqe (h : Head) (g : Mnd → Mnd) : (h.modMnd g).hqe = h.hqe := rfl
@[simp] theorem Head.modMnd_dp (h : Head) (g : Mnd → Mnd) : (h.modMnd g).dp = h.dp := rfl
@[simp] theorem Head.modMnd_ldr (h : Head) (g : Mnd → Mnd) : (h.modMnd g).ldr = h.ldr := rfl
@[simp] theorem Head.modMnd_cmp (h : Head) (g : Mnd → Mnd) : (h.modMnd g).cmp = h.cmp := rfl
@[simp] theorem Head.modMnd_stg (h : Head) (g : Mnd → Mnd) : (h.modMnd g).stg = h.stg := rfl
@[simp] theorem Head.modMnd_cph (h : Head) (g : Mnd → Mnd) : (h.modMnd g).cph = h.cph := rfl
@[simp] theorem Head.modMnd_dgt (h : Head) (g : Mnd → Mnd) : (h.modMnd g).dgt = h.dgt := rfl
@[simp] theorem Head.modMnd_pty (h : Head) (g : Mnd → Mnd) : (h.modMnd g).pty = h.pty := rfl
@[simp] theorem Head.modMnd_shf (h : Head) (g : Mnd → Mnd) : (h.modMnd g).shf = h.shf := rfl
@[simp] theorem Head.modMnd_whl (h : Head) (g : Mnd → Mnd) : (h.modMnd g).whl = h.whl := rfl
@[simp] theorem Head.modMnd_pair (h : Head) (g : Mnd → Mnd) : (h.modMnd g).pair = h.pair := rfl
@[simp] theorem Head.modMnd_pan (h : Head) (g : Mnd → Mnd) : (h.modMnd g).pan = h.pan := rfl
@[simp] theorem Head.modMnd_memc (h : Head) (g : Mnd → Mnd) : (h.modMnd g).memc = h.memc := rfl
@[simp] theorem Head.modMnd_pwr (h : Head) (g : Mnd → Mnd) : (h.modMnd g).pwr = h.pwr := rfl
@[simp] theorem Head.modMnd_cel (h : Head) (g : Mnd → Mnd) : (h.modMnd g).cel = h.cel := rfl
@[simp] theorem Head.modMnd_cal (h : Head) (g : Mnd → Mnd) : (h.modMnd g).cal = h.cal := rfl
@[simp] theorem Head.modMnd_fwu (h : Head) (g : Mnd → Mnd) : (h.modMnd g).fwu = h.fwu := rfl
@[simp] theorem Head.modMnd_pins (h : Head) (g : Mnd → Mnd) : (h.modMnd g).pins = h.pins := rfl
@[simp] theorem Head.modMnd_parade (h : Head) (g : Mnd → Mnd) : (h.modMnd g).parade = h.parade := rfl
@[simp] theorem Head.modMnd_paradeSeq (h : Head) (g : Mnd → Mnd) : (h.modMnd g).paradeSeq = h.paradeSeq := rfl
@[simp] theorem Head.modMnd_out (h : Head) (g : Mnd → Mnd) : (h.modMnd g).out = h.out := rfl
@[simp] theorem Head.modMnd_free (h : Head) (g : Mnd → Mnd) : (h.modMnd g).free = h.free := rfl

@[simp] theorem Head.modTsi_tsi (h : Head) (g : Tsi → Tsi) : (h.modTsi g).tsi = g h.tsi := rfl
@[simp] theorem Head.modTsi_now (h : Head) (g : Tsi → Tsi) : (h.modTsi g).now = h.now := rfl
@[simp] theorem Head.modTsi_fuse (h : Head) (g : Tsi → Tsi) : (h.modTsi g).fuse = h.fuse := rfl
@[simp] theorem Head.modTsi_regs (h : Head) (g : Tsi → Tsi) : (h.modTsi g).regs = h.regs := rfl
@[simp] theorem Head.modTsi_brk (h : Head) (g : Tsi → Tsi) : (h.modTsi g).brk = h.brk := rfl
@[simp] theorem Head.modTsi_atc (h : Head) (g : Tsi → Tsi) : (h.modTsi g).atc = h.atc := rfl
@[simp] theorem Head.modTsi_flt (h : Head) (g : Tsi → Tsi) : (h.modTsi g).flt = h.flt := rfl
@[simp] theorem Head.modTsi_hqe (h : Head) (g : Tsi → Tsi) : (h.modTsi g).hqe = h.hqe := rfl
@[simp] theorem Head.modTsi_dp (h : Head) (g : Tsi → Tsi) : (h.modTsi g).dp = h.dp := rfl
@[simp] theorem Head.modTsi_ldr (h : Head) (g : Tsi → Tsi) : (h.modTsi g).ldr = h.ldr := rfl
@[simp] theorem Head.modTsi_cmp (h : Head) (g : Tsi → Tsi) : (h.modTsi g).cmp = h.cmp := rfl
@[simp] theorem Head.modTsi_stg (h : Head) (g : Tsi → Tsi) : (h.modTsi g).stg = h.stg := rfl
@[simp] theorem Head.modTsi_cph (h : Head) (g : Tsi → Tsi) : (h.modTsi g).cph = h.cph := rfl
@[simp] theorem Head.modTsi_dgt (h : Head) (g : Tsi → Tsi) : (h.modTsi g).dgt = h.dgt := rfl
@[simp] theorem Head.modTsi_pty (h : Head) (g : Tsi → Tsi) : (h.modTsi g).pty = h.pty := rfl
@[simp] theorem Head.modTsi_mnd (h : Head) (g : Tsi → Tsi) : (h.modTsi g).mnd = h.mnd := rfl
@[simp] theorem Head.modTsi_shf (h : Head) (g : Tsi → Tsi) : (h.modTsi g).shf = h.shf := rfl
@[simp] theorem Head.modTsi_whl (h : Head) (g : Tsi → Tsi) : (h.modTsi g).whl = h.whl := rfl
@[simp] theorem Head.modTsi_pair (h : Head) (g : Tsi → Tsi) : (h.modTsi g).pair = h.pair := rfl
@[simp] theorem Head.modTsi_pan (h : Head) (g : Tsi → Tsi) : (h.modTsi g).pan = h.pan := rfl
@[simp] theorem Head.modTsi_memc (h : Head) (g : Tsi → Tsi) : (h.modTsi g).memc = h.memc := rfl
@[simp] theorem Head.modTsi_pwr (h : Head) (g : Tsi → Tsi) : (h.modTsi g).pwr = h.pwr := rfl
@[simp] theorem Head.modTsi_cel (h : Head) (g : Tsi → Tsi) : (h.modTsi g).cel = h.cel := rfl
@[simp] theorem Head.modTsi_cal (h : Head) (g : Tsi → Tsi) : (h.modTsi g).cal = h.cal := rfl
@[simp] theorem Head.modTsi_fwu (h : Head) (g : Tsi → Tsi) : (h.modTsi g).fwu = h.fwu := rfl
@[simp] theorem Head.modTsi_pins (h : Head) (g : Tsi → Tsi) : (h.modTsi g).pins = h.pins := rfl
@[simp] theorem Head.modTsi_parade (h : Head) (g : Tsi → Tsi) : (h.modTsi g).parade = h.parade := rfl
@[simp] theorem Head.modTsi_paradeSeq (h : Head) (g : Tsi → Tsi) : (h.modTsi g).paradeSeq = h.paradeSeq := rfl
@[simp] theorem Head.modTsi_out (h : Head) (g : Tsi → Tsi) : (h.modTsi g).out = h.out := rfl
@[simp] theorem Head.modTsi_free (h : Head) (g : Tsi → Tsi) : (h.modTsi g).free = h.free := rfl

@[simp] theorem Head.modWhl_whl (h : Head) (g : Whl → Whl) : (h.modWhl g).whl = g h.whl := rfl
@[simp] theorem Head.modWhl_now (h : Head) (g : Whl → Whl) : (h.modWhl g).now = h.now := rfl
@[simp] theorem Head.modWhl_fuse (h : Head) (g : Whl → Whl) : (h.modWhl g).fuse = h.fuse := rfl
@[simp] theorem Head.modWhl_regs (h : Head) (g : Whl → Whl) : (h.modWhl g).regs = h.regs := rfl
@[simp] theorem Head.modWhl_brk (h : Head) (g : Whl → Whl) : (h.modWhl g).brk = h.brk := rfl
@[simp] theorem Head.modWhl_atc (h : Head) (g : Whl → Whl) : (h.modWhl g).atc = h.atc := rfl
@[simp] theorem Head.modWhl_flt (h : Head) (g : Whl → Whl) : (h.modWhl g).flt = h.flt := rfl
@[simp] theorem Head.modWhl_tsi (h : Head) (g : Whl → Whl) : (h.modWhl g).tsi = h.tsi := rfl
@[simp] theorem Head.modWhl_hqe (h : Head) (g : Whl → Whl) : (h.modWhl g).hqe = h.hqe := rfl
@[simp] theorem Head.modWhl_dp (h : Head) (g : Whl → Whl) : (h.modWhl g).dp = h.dp := rfl
@[simp] theorem Head.modWhl_ldr (h : Head) (g : Whl → Whl) : (h.modWhl g).ldr = h.ldr := rfl
@[simp] theorem Head.modWhl_cmp (h : Head) (g : Whl → Whl) : (h.modWhl g).cmp = h.cmp := rfl
@[simp] theorem Head.modWhl_stg (h : Head) (g : Whl → Whl) : (h.modWhl g).stg = h.stg := rfl
@[simp] theorem Head.modWhl_cph (h : Head) (g : Whl → Whl) : (h.modWhl g).cph = h.cph := rfl
@[simp] theorem Head.modWhl_dgt (h : Head) (g : Whl → Whl) : (h.modWhl g).dgt = h.dgt := rfl
@[simp] theorem Head.modWhl_pty (h : Head) (g : Whl → Whl) : (h.modWhl g).pty = h.pty := rfl
@[simp] theorem Head.modWhl_mnd (h : Head) (g : Whl → Whl) : (h.modWhl g).mnd = h.mnd := rfl
@[simp] theorem Head.modWhl_shf (h : Head) (g : Whl → Whl) : (h.modWhl g).shf = h.shf := rfl
@[simp] theorem Head.modWhl_pair (h : Head) (g : Whl → Whl) : (h.modWhl g).pair = h.pair := rfl
@[simp] theorem Head.modWhl_pan (h : Head) (g : Whl → Whl) : (h.modWhl g).pan = h.pan := rfl
@[simp] theorem Head.modWhl_memc (h : Head) (g : Whl → Whl) : (h.modWhl g).memc = h.memc := rfl
@[simp] theorem Head.modWhl_pwr (h : Head) (g : Whl → Whl) : (h.modWhl g).pwr = h.pwr := rfl
@[simp] theorem Head.modWhl_cel (h : Head) (g : Whl → Whl) : (h.modWhl g).cel = h.cel := rfl
@[simp] theorem Head.modWhl_cal (h : Head) (g : Whl → Whl) : (h.modWhl g).cal = h.cal := rfl
@[simp] theorem Head.modWhl_fwu (h : Head) (g : Whl → Whl) : (h.modWhl g).fwu = h.fwu := rfl
@[simp] theorem Head.modWhl_pins (h : Head) (g : Whl → Whl) : (h.modWhl g).pins = h.pins := rfl
@[simp] theorem Head.modWhl_parade (h : Head) (g : Whl → Whl) : (h.modWhl g).parade = h.parade := rfl
@[simp] theorem Head.modWhl_paradeSeq (h : Head) (g : Whl → Whl) : (h.modWhl g).paradeSeq = h.paradeSeq := rfl
@[simp] theorem Head.modWhl_out (h : Head) (g : Whl → Whl) : (h.modWhl g).out = h.out := rfl
@[simp] theorem Head.modWhl_free (h : Head) (g : Whl → Whl) : (h.modWhl g).free = h.free := rfl

@[simp] theorem Head.modCmp_cmp (h : Head) (g : Cmp → Cmp) : (h.modCmp g).cmp = g h.cmp := rfl
@[simp] theorem Head.modCmp_now (h : Head) (g : Cmp → Cmp) : (h.modCmp g).now = h.now := rfl
@[simp] theorem Head.modCmp_fuse (h : Head) (g : Cmp → Cmp) : (h.modCmp g).fuse = h.fuse := rfl
@[simp] theorem Head.modCmp_regs (h : Head) (g : Cmp → Cmp) : (h.modCmp g).regs = h.regs := rfl
@[simp] theorem Head.modCmp_brk (h : Head) (g : Cmp → Cmp) : (h.modCmp g).brk = h.brk := rfl
@[simp] theorem Head.modCmp_atc (h : Head) (g : Cmp → Cmp) : (h.modCmp g).atc = h.atc := rfl
@[simp] theorem Head.modCmp_flt (h : Head) (g : Cmp → Cmp) : (h.modCmp g).flt = h.flt := rfl
@[simp] theorem Head.modCmp_tsi (h : Head) (g : Cmp → Cmp) : (h.modCmp g).tsi = h.tsi := rfl
@[simp] theorem Head.modCmp_hqe (h : Head) (g : Cmp → Cmp) : (h.modCmp g).hqe = h.hqe := rfl
@[simp] theorem Head.modCmp_dp (h : Head) (g : Cmp → Cmp) : (h.modCmp g).dp = h.dp := rfl
@[simp] theorem Head.modCmp_ldr (h : Head) (g : Cmp → Cmp) : (h.modCmp g).ldr = h.ldr := rfl
@[simp] theorem Head.modCmp_stg (h : Head) (g : Cmp → Cmp) : (h.modCmp g).stg = h.stg := rfl
@[simp] theorem Head.modCmp_cph (h : Head) (g : Cmp → Cmp) : (h.modCmp g).cph = h.cph := rfl
@[simp] theorem Head.modCmp_dgt (h : Head) (g : Cmp → Cmp) : (h.modCmp g).dgt = h.dgt := rfl
@[simp] theorem Head.modCmp_pty (h : Head) (g : Cmp → Cmp) : (h.modCmp g).pty = h.pty := rfl
@[simp] theorem Head.modCmp_mnd (h : Head) (g : Cmp → Cmp) : (h.modCmp g).mnd = h.mnd := rfl
@[simp] theorem Head.modCmp_shf (h : Head) (g : Cmp → Cmp) : (h.modCmp g).shf = h.shf := rfl
@[simp] theorem Head.modCmp_whl (h : Head) (g : Cmp → Cmp) : (h.modCmp g).whl = h.whl := rfl
@[simp] theorem Head.modCmp_pair (h : Head) (g : Cmp → Cmp) : (h.modCmp g).pair = h.pair := rfl
@[simp] theorem Head.modCmp_pan (h : Head) (g : Cmp → Cmp) : (h.modCmp g).pan = h.pan := rfl
@[simp] theorem Head.modCmp_memc (h : Head) (g : Cmp → Cmp) : (h.modCmp g).memc = h.memc := rfl
@[simp] theorem Head.modCmp_pwr (h : Head) (g : Cmp → Cmp) : (h.modCmp g).pwr = h.pwr := rfl
@[simp] theorem Head.modCmp_cel (h : Head) (g : Cmp → Cmp) : (h.modCmp g).cel = h.cel := rfl
@[simp] theorem Head.modCmp_cal (h : Head) (g : Cmp → Cmp) : (h.modCmp g).cal = h.cal := rfl
@[simp] theorem Head.modCmp_fwu (h : Head) (g : Cmp → Cmp) : (h.modCmp g).fwu = h.fwu := rfl
@[simp] theorem Head.modCmp_pins (h : Head) (g : Cmp → Cmp) : (h.modCmp g).pins = h.pins := rfl
@[simp] theorem Head.modCmp_parade (h : Head) (g : Cmp → Cmp) : (h.modCmp g).parade = h.parade := rfl
@[simp] theorem Head.modCmp_paradeSeq (h : Head) (g : Cmp → Cmp) : (h.modCmp g).paradeSeq = h.paradeSeq := rfl
@[simp] theorem Head.modCmp_out (h : Head) (g : Cmp → Cmp) : (h.modCmp g).out = h.out := rfl
@[simp] theorem Head.modCmp_free (h : Head) (g : Cmp → Cmp) : (h.modCmp g).free = h.free := rfl

@[simp] theorem Head.modCph_cph (h : Head) (g : Cph → Cph) : (h.modCph g).cph = g h.cph := rfl
@[simp] theorem Head.modCph_now (h : Head) (g : Cph → Cph) : (h.modCph g).now = h.now := rfl
@[simp] theorem Head.modCph_fuse (h : Head) (g : Cph → Cph) : (h.modCph g).fuse = h.fuse := rfl
@[simp] theorem Head.modCph_regs (h : Head) (g : Cph → Cph) : (h.modCph g).regs = h.regs := rfl
@[simp] theorem Head.modCph_brk (h : Head) (g : Cph → Cph) : (h.modCph g).brk = h.brk := rfl
@[simp] theorem Head.modCph_atc (h : Head) (g : Cph → Cph) : (h.modCph g).atc = h.atc := rfl
@[simp] theorem Head.modCph_flt (h : Head) (g : Cph → Cph) : (h.modCph g).flt = h.flt := rfl
@[simp] theorem Head.modCph_tsi (h : Head) (g : Cph → Cph) : (h.modCph g).tsi = h.tsi := rfl
@[simp] theorem Head.modCph_hqe (h : Head) (g : Cph → Cph) : (h.modCph g).hqe = h.hqe := rfl
@[simp] theorem Head.modCph_dp (h : Head) (g : Cph → Cph) : (h.modCph g).dp = h.dp := rfl
@[simp] theorem Head.modCph_ldr (h : Head) (g : Cph → Cph) : (h.modCph g).ldr = h.ldr := rfl
@[simp] theorem Head.modCph_cmp (h : Head) (g : Cph → Cph) : (h.modCph g).cmp = h.cmp := rfl
@[simp] theorem Head.modCph_stg (h : Head) (g : Cph → Cph) : (h.modCph g).stg = h.stg := rfl
@[simp] theorem Head.modCph_dgt (h : Head) (g : Cph → Cph) : (h.modCph g).dgt = h.dgt := rfl
@[simp] theorem Head.modCph_pty (h : Head) (g : Cph → Cph) : (h.modCph g).pty = h.pty := rfl
@[simp] theorem Head.modCph_mnd (h : Head) (g : Cph → Cph) : (h.modCph g).mnd = h.mnd := rfl
@[simp] theorem Head.modCph_shf (h : Head) (g : Cph → Cph) : (h.modCph g).shf = h.shf := rfl
@[simp] theorem Head.modCph_whl (h : Head) (g : Cph → Cph) : (h.modCph g).whl = h.whl := rfl
@[simp] theorem Head.modCph_pair (h : Head) (g : Cph → Cph) : (h.modCph g).pair = h.pair := rfl
@[simp] theorem Head.modCph_pan (h : Head) (g : Cph → Cph) : (h.modCph g).pan = h.pan := rfl
@[simp] theorem Head.modCph_memc (h : Head) (g : Cph → Cph) : (h.modCph g).memc = h.memc := rfl
@[simp] theorem Head.modCph_pwr (h : Head) (g : Cph → Cph) : (h.modCph g).pwr = h.pwr := rfl
@[simp] theorem Head.modCph_cel (h : Head) (g : Cph → Cph) : (h.modCph g).cel = h.cel := rfl
@[simp] theorem Head.modCph_cal (h : Head) (g : Cph → Cph) : (h.modCph g).cal = h.cal := rfl
@[simp] theorem Head.modCph_fwu (h : Head) (g : Cph → Cph) : (h.modCph g).fwu = h.fwu := rfl
@[simp] theorem Head.modCph_pins (h : Head) (g : Cph → Cph) : (h.modCph g).pins = h.pins := rfl
@[simp] theorem Head.modCph_parade (h : Head) (g : Cph → Cph) : (h.modCph g).parade = h.parade := rfl
@[simp] theorem Head.modCph_paradeSeq (h : Head) (g : Cph → Cph) : (h.modCph g).paradeSeq = h.paradeSeq := rfl
@[simp] theorem Head.modCph_out (h : Head) (g : Cph → Cph) : (h.modCph g).out = h.out := rfl
@[simp] theorem Head.modCph_free (h : Head) (g : Cph → Cph) : (h.modCph g).free = h.free := rfl

@[simp] theorem Head.modMemc_memc (h : Head) (g : Memc → Memc) : (h.modMemc g).memc = g h.memc := rfl
@[simp] theorem Head.modMemc_now (h : Head) (g : Memc → Memc) : (h.modMemc g).now = h.now := rfl
@[simp] theorem Head.modMemc_fuse (h : Head) (g : Memc → Memc) : (h.modMemc g).fuse = h.fuse := rfl
@[simp] theorem Head.modMemc_regs (h : Head) (g : Memc → Memc) : (h.modMemc g).regs = h.regs := rfl
@[simp] theorem Head.modMemc_brk (h : Head) (g : Memc → Memc) : (h.modMemc g).brk = h.brk := rfl
@[simp] theorem Head.modMemc_atc (h : Head) (g : Memc → Memc) : (h.modMemc g).atc = h.atc := rfl
@[simp] theorem Head.modMemc_flt (h : Head) (g : Memc → Memc) : (h.modMemc g).flt = h.flt := rfl
@[simp] theorem Head.modMemc_tsi (h : Head) (g : Memc → Memc) : (h.modMemc g).tsi = h.tsi := rfl
@[simp] theorem Head.modMemc_hqe (h : Head) (g : Memc → Memc) : (h.modMemc g).hqe = h.hqe := rfl
@[simp] theorem Head.modMemc_dp (h : Head) (g : Memc → Memc) : (h.modMemc g).dp = h.dp := rfl
@[simp] theorem Head.modMemc_ldr (h : Head) (g : Memc → Memc) : (h.modMemc g).ldr = h.ldr := rfl
@[simp] theorem Head.modMemc_cmp (h : Head) (g : Memc → Memc) : (h.modMemc g).cmp = h.cmp := rfl
@[simp] theorem Head.modMemc_stg (h : Head) (g : Memc → Memc) : (h.modMemc g).stg = h.stg := rfl
@[simp] theorem Head.modMemc_cph (h : Head) (g : Memc → Memc) : (h.modMemc g).cph = h.cph := rfl
@[simp] theorem Head.modMemc_dgt (h : Head) (g : Memc → Memc) : (h.modMemc g).dgt = h.dgt := rfl
@[simp] theorem Head.modMemc_pty (h : Head) (g : Memc → Memc) : (h.modMemc g).pty = h.pty := rfl
@[simp] theorem Head.modMemc_mnd (h : Head) (g : Memc → Memc) : (h.modMemc g).mnd = h.mnd := rfl
@[simp] theorem Head.modMemc_shf (h : Head) (g : Memc → Memc) : (h.modMemc g).shf = h.shf := rfl
@[simp] theorem Head.modMemc_whl (h : Head) (g : Memc → Memc) : (h.modMemc g).whl = h.whl := rfl
@[simp] theorem Head.modMemc_pair (h : Head) (g : Memc → Memc) : (h.modMemc g).pair = h.pair := rfl
@[simp] theorem Head.modMemc_pan (h : Head) (g : Memc → Memc) : (h.modMemc g).pan = h.pan := rfl
@[simp] theorem Head.modMemc_pwr (h : Head) (g : Memc → Memc) : (h.modMemc g).pwr = h.pwr := rfl
@[simp] theorem Head.modMemc_cel (h : Head) (g : Memc → Memc) : (h.modMemc g).cel = h.cel := rfl
@[simp] theorem Head.modMemc_cal (h : Head) (g : Memc → Memc) : (h.modMemc g).cal = h.cal := rfl
@[simp] theorem Head.modMemc_fwu (h : Head) (g : Memc → Memc) : (h.modMemc g).fwu = h.fwu := rfl
@[simp] theorem Head.modMemc_pins (h : Head) (g : Memc → Memc) : (h.modMemc g).pins = h.pins := rfl
@[simp] theorem Head.modMemc_parade (h : Head) (g : Memc → Memc) : (h.modMemc g).parade = h.parade := rfl
@[simp] theorem Head.modMemc_paradeSeq (h : Head) (g : Memc → Memc) : (h.modMemc g).paradeSeq = h.paradeSeq := rfl
@[simp] theorem Head.modMemc_out (h : Head) (g : Memc → Memc) : (h.modMemc g).out = h.out := rfl
@[simp] theorem Head.modMemc_free (h : Head) (g : Memc → Memc) : (h.modMemc g).free = h.free := rfl

/-! ## emit -/

@[simp] theorem Head.emit_now (h : Head) (o : Out) : (h.emit o).now = h.now := rfl
@[simp] theorem Head.emit_fuse (h : Head) (o : Out) : (h.emit o).fuse = h.fuse := rfl
@[simp] theorem Head.emit_regs (h : Head) (o : Out) : (h.emit o).regs = h.regs := rfl
@[simp] theorem Head.emit_brk (h : Head) (o : Out) : (h.emit o).brk = h.brk := rfl
@[simp] theorem Head.emit_atc (h : Head) (o : Out) : (h.emit o).atc = h.atc := rfl
@[simp] theorem Head.emit_flt (h : Head) (o : Out) : (h.emit o).flt = h.flt := rfl
@[simp] theorem Head.emit_tsi (h : Head) (o : Out) : (h.emit o).tsi = h.tsi := rfl
@[simp] theorem Head.emit_hqe (h : Head) (o : Out) : (h.emit o).hqe = h.hqe := rfl
@[simp] theorem Head.emit_dp (h : Head) (o : Out) : (h.emit o).dp = h.dp := rfl
@[simp] theorem Head.emit_ldr (h : Head) (o : Out) : (h.emit o).ldr = h.ldr := rfl
@[simp] theorem Head.emit_cmp (h : Head) (o : Out) : (h.emit o).cmp = h.cmp := rfl
@[simp] theorem Head.emit_stg (h : Head) (o : Out) : (h.emit o).stg = h.stg := rfl
@[simp] theorem Head.emit_cph (h : Head) (o : Out) : (h.emit o).cph = h.cph := rfl
@[simp] theorem Head.emit_dgt (h : Head) (o : Out) : (h.emit o).dgt = h.dgt := rfl
@[simp] theorem Head.emit_pty (h : Head) (o : Out) : (h.emit o).pty = h.pty := rfl
@[simp] theorem Head.emit_mnd (h : Head) (o : Out) : (h.emit o).mnd = h.mnd := rfl
@[simp] theorem Head.emit_shf (h : Head) (o : Out) : (h.emit o).shf = h.shf := rfl
@[simp] theorem Head.emit_whl (h : Head) (o : Out) : (h.emit o).whl = h.whl := rfl
@[simp] theorem Head.emit_pair (h : Head) (o : Out) : (h.emit o).pair = h.pair := rfl
@[simp] theorem Head.emit_pan (h : Head) (o : Out) : (h.emit o).pan = h.pan := rfl
@[simp] theorem Head.emit_memc (h : Head) (o : Out) : (h.emit o).memc = h.memc := rfl
@[simp] theorem Head.emit_pwr (h : Head) (o : Out) : (h.emit o).pwr = h.pwr := rfl
@[simp] theorem Head.emit_cel (h : Head) (o : Out) : (h.emit o).cel = h.cel := rfl
@[simp] theorem Head.emit_cal (h : Head) (o : Out) : (h.emit o).cal = h.cal := rfl
@[simp] theorem Head.emit_fwu (h : Head) (o : Out) : (h.emit o).fwu = h.fwu := rfl
@[simp] theorem Head.emit_pins (h : Head) (o : Out) : (h.emit o).pins = h.pins := rfl
@[simp] theorem Head.emit_parade (h : Head) (o : Out) : (h.emit o).parade = h.parade := rfl
@[simp] theorem Head.emit_paradeSeq (h : Head) (o : Out) : (h.emit o).paradeSeq = h.paradeSeq := rfl
@[simp] theorem Head.emit_out (h : Head) (o : Out) : (h.emit o).out = o :: h.out := rfl
@[simp] theorem Head.emit_free (h : Head) (o : Out) : (h.emit o).free = h.free := rfl

/-! ## emits -/

@[simp] theorem Head.emits_now (h : Head) (os : List Out) : (h.emits os).now = h.now := rfl
@[simp] theorem Head.emits_fuse (h : Head) (os : List Out) : (h.emits os).fuse = h.fuse := rfl
@[simp] theorem Head.emits_regs (h : Head) (os : List Out) : (h.emits os).regs = h.regs := rfl
@[simp] theorem Head.emits_brk (h : Head) (os : List Out) : (h.emits os).brk = h.brk := rfl
@[simp] theorem Head.emits_atc (h : Head) (os : List Out) : (h.emits os).atc = h.atc := rfl
@[simp] theorem Head.emits_flt (h : Head) (os : List Out) : (h.emits os).flt = h.flt := rfl
@[simp] theorem Head.emits_tsi (h : Head) (os : List Out) : (h.emits os).tsi = h.tsi := rfl
@[simp] theorem Head.emits_hqe (h : Head) (os : List Out) : (h.emits os).hqe = h.hqe := rfl
@[simp] theorem Head.emits_dp (h : Head) (os : List Out) : (h.emits os).dp = h.dp := rfl
@[simp] theorem Head.emits_ldr (h : Head) (os : List Out) : (h.emits os).ldr = h.ldr := rfl
@[simp] theorem Head.emits_cmp (h : Head) (os : List Out) : (h.emits os).cmp = h.cmp := rfl
@[simp] theorem Head.emits_stg (h : Head) (os : List Out) : (h.emits os).stg = h.stg := rfl
@[simp] theorem Head.emits_cph (h : Head) (os : List Out) : (h.emits os).cph = h.cph := rfl
@[simp] theorem Head.emits_dgt (h : Head) (os : List Out) : (h.emits os).dgt = h.dgt := rfl
@[simp] theorem Head.emits_pty (h : Head) (os : List Out) : (h.emits os).pty = h.pty := rfl
@[simp] theorem Head.emits_mnd (h : Head) (os : List Out) : (h.emits os).mnd = h.mnd := rfl
@[simp] theorem Head.emits_shf (h : Head) (os : List Out) : (h.emits os).shf = h.shf := rfl
@[simp] theorem Head.emits_whl (h : Head) (os : List Out) : (h.emits os).whl = h.whl := rfl
@[simp] theorem Head.emits_pair (h : Head) (os : List Out) : (h.emits os).pair = h.pair := rfl
@[simp] theorem Head.emits_pan (h : Head) (os : List Out) : (h.emits os).pan = h.pan := rfl
@[simp] theorem Head.emits_memc (h : Head) (os : List Out) : (h.emits os).memc = h.memc := rfl
@[simp] theorem Head.emits_pwr (h : Head) (os : List Out) : (h.emits os).pwr = h.pwr := rfl
@[simp] theorem Head.emits_cel (h : Head) (os : List Out) : (h.emits os).cel = h.cel := rfl
@[simp] theorem Head.emits_cal (h : Head) (os : List Out) : (h.emits os).cal = h.cal := rfl
@[simp] theorem Head.emits_fwu (h : Head) (os : List Out) : (h.emits os).fwu = h.fwu := rfl
@[simp] theorem Head.emits_pins (h : Head) (os : List Out) : (h.emits os).pins = h.pins := rfl
@[simp] theorem Head.emits_parade (h : Head) (os : List Out) : (h.emits os).parade = h.parade := rfl
@[simp] theorem Head.emits_paradeSeq (h : Head) (os : List Out) : (h.emits os).paradeSeq = h.paradeSeq := rfl
@[simp] theorem Head.emits_out (h : Head) (os : List Out) : (h.emits os).out = os.reverse ++ h.out := rfl
@[simp] theorem Head.emits_free (h : Head) (os : List Out) : (h.emits os).free = h.free := rfl

/-! ## setReg -/

@[simp] theorem Head.setReg_now (h : Head) (k : Nat) (w : Word) : (h.setReg k w).now = h.now := rfl
@[simp] theorem Head.setReg_fuse (h : Head) (k : Nat) (w : Word) : (h.setReg k w).fuse = h.fuse := rfl
@[simp] theorem Head.setReg_regs (h : Head) (k : Nat) (w : Word) : (h.setReg k w).regs = regInsert k w (regReset k) (h.regs.filter fun x => x.1 != k) := rfl
@[simp] theorem Head.setReg_brk (h : Head) (k : Nat) (w : Word) : (h.setReg k w).brk = h.brk := rfl
@[simp] theorem Head.setReg_atc (h : Head) (k : Nat) (w : Word) : (h.setReg k w).atc = h.atc := rfl
@[simp] theorem Head.setReg_flt (h : Head) (k : Nat) (w : Word) : (h.setReg k w).flt = h.flt := rfl
@[simp] theorem Head.setReg_tsi (h : Head) (k : Nat) (w : Word) : (h.setReg k w).tsi = h.tsi := rfl
@[simp] theorem Head.setReg_hqe (h : Head) (k : Nat) (w : Word) : (h.setReg k w).hqe = h.hqe := rfl
@[simp] theorem Head.setReg_dp (h : Head) (k : Nat) (w : Word) : (h.setReg k w).dp = h.dp := rfl
@[simp] theorem Head.setReg_ldr (h : Head) (k : Nat) (w : Word) : (h.setReg k w).ldr = h.ldr := rfl
@[simp] theorem Head.setReg_cmp (h : Head) (k : Nat) (w : Word) : (h.setReg k w).cmp = h.cmp := rfl
@[simp] theorem Head.setReg_stg (h : Head) (k : Nat) (w : Word) : (h.setReg k w).stg = h.stg := rfl
@[simp] theorem Head.setReg_cph (h : Head) (k : Nat) (w : Word) : (h.setReg k w).cph = h.cph := rfl
@[simp] theorem Head.setReg_dgt (h : Head) (k : Nat) (w : Word) : (h.setReg k w).dgt = h.dgt := rfl
@[simp] theorem Head.setReg_pty (h : Head) (k : Nat) (w : Word) : (h.setReg k w).pty = h.pty := rfl
@[simp] theorem Head.setReg_mnd (h : Head) (k : Nat) (w : Word) : (h.setReg k w).mnd = h.mnd := rfl
@[simp] theorem Head.setReg_shf (h : Head) (k : Nat) (w : Word) : (h.setReg k w).shf = h.shf := rfl
@[simp] theorem Head.setReg_whl (h : Head) (k : Nat) (w : Word) : (h.setReg k w).whl = h.whl := rfl
@[simp] theorem Head.setReg_pair (h : Head) (k : Nat) (w : Word) : (h.setReg k w).pair = h.pair := rfl
@[simp] theorem Head.setReg_pan (h : Head) (k : Nat) (w : Word) : (h.setReg k w).pan = h.pan := rfl
@[simp] theorem Head.setReg_memc (h : Head) (k : Nat) (w : Word) : (h.setReg k w).memc = h.memc := rfl
@[simp] theorem Head.setReg_pwr (h : Head) (k : Nat) (w : Word) : (h.setReg k w).pwr = h.pwr := rfl
@[simp] theorem Head.setReg_cel (h : Head) (k : Nat) (w : Word) : (h.setReg k w).cel = h.cel := rfl
@[simp] theorem Head.setReg_cal (h : Head) (k : Nat) (w : Word) : (h.setReg k w).cal = h.cal := rfl
@[simp] theorem Head.setReg_fwu (h : Head) (k : Nat) (w : Word) : (h.setReg k w).fwu = h.fwu := rfl
@[simp] theorem Head.setReg_pins (h : Head) (k : Nat) (w : Word) : (h.setReg k w).pins = h.pins := rfl
@[simp] theorem Head.setReg_parade (h : Head) (k : Nat) (w : Word) : (h.setReg k w).parade = h.parade := rfl
@[simp] theorem Head.setReg_paradeSeq (h : Head) (k : Nat) (w : Word) : (h.setReg k w).paradeSeq = h.paradeSeq := rfl
@[simp] theorem Head.setReg_out (h : Head) (k : Nat) (w : Word) : (h.setReg k w).out = h.out := rfl
@[simp] theorem Head.setReg_free (h : Head) (k : Nat) (w : Word) : (h.setReg k w).free = h.free := rfl

/-! ## tick -/

@[simp] theorem Head.tick_now (h : Head)  : (h.tick).now = h.now + 1 := rfl
@[simp] theorem Head.tick_fuse (h : Head)  : (h.tick).fuse = h.fuse := rfl
@[simp] theorem Head.tick_regs (h : Head)  : (h.tick).regs = h.regs := rfl
@[simp] theorem Head.tick_brk (h : Head)  : (h.tick).brk = h.brk := rfl
@[simp] theorem Head.tick_atc (h : Head)  : (h.tick).atc = h.atc := rfl
@[simp] theorem Head.tick_flt (h : Head)  : (h.tick).flt = h.flt := rfl
@[simp] theorem Head.tick_tsi (h : Head)  : (h.tick).tsi = h.tsi := rfl
@[simp] theorem Head.tick_hqe (h : Head)  : (h.tick).hqe = h.hqe := rfl
@[simp] theorem Head.tick_dp (h : Head)  : (h.tick).dp = h.dp := rfl
@[simp] theorem Head.tick_ldr (h : Head)  : (h.tick).ldr = h.ldr := rfl
@[simp] theorem Head.tick_cmp (h : Head)  : (h.tick).cmp = h.cmp := rfl
@[simp] theorem Head.tick_stg (h : Head)  : (h.tick).stg = h.stg := rfl
@[simp] theorem Head.tick_cph (h : Head)  : (h.tick).cph = h.cph := rfl
@[simp] theorem Head.tick_dgt (h : Head)  : (h.tick).dgt = h.dgt := rfl
@[simp] theorem Head.tick_pty (h : Head)  : (h.tick).pty = h.pty := rfl
@[simp] theorem Head.tick_mnd (h : Head)  : (h.tick).mnd = h.mnd := rfl
@[simp] theorem Head.tick_shf (h : Head)  : (h.tick).shf = h.shf := rfl
@[simp] theorem Head.tick_whl (h : Head)  : (h.tick).whl = h.whl := rfl
@[simp] theorem Head.tick_pair (h : Head)  : (h.tick).pair = h.pair := rfl
@[simp] theorem Head.tick_pan (h : Head)  : (h.tick).pan = h.pan := rfl
@[simp] theorem Head.tick_memc (h : Head)  : (h.tick).memc = h.memc := rfl
@[simp] theorem Head.tick_pwr (h : Head)  : (h.tick).pwr = h.pwr := rfl
@[simp] theorem Head.tick_cel (h : Head)  : (h.tick).cel = h.cel := rfl
@[simp] theorem Head.tick_cal (h : Head)  : (h.tick).cal = h.cal := rfl
@[simp] theorem Head.tick_fwu (h : Head)  : (h.tick).fwu = h.fwu := rfl
@[simp] theorem Head.tick_pins (h : Head)  : (h.tick).pins = h.pins := rfl
@[simp] theorem Head.tick_parade (h : Head)  : (h.tick).parade = h.parade := rfl
@[simp] theorem Head.tick_paradeSeq (h : Head)  : (h.tick).paradeSeq = h.paradeSeq := rfl
@[simp] theorem Head.tick_out (h : Head)  : (h.tick).out = h.out := rfl
@[simp] theorem Head.tick_free (h : Head)  : (h.tick).free = h.free := rfl

/-! ## spend -/

@[simp] theorem Head.spend_now (h : Head)  : (h.spend).now = h.now := rfl
@[simp] theorem Head.spend_fuse (h : Head)  : (h.spend).fuse = h.fuse := rfl
@[simp] theorem Head.spend_regs (h : Head)  : (h.spend).regs = h.regs := rfl
@[simp] theorem Head.spend_brk (h : Head)  : (h.spend).brk = h.brk := rfl
@[simp] theorem Head.spend_atc (h : Head)  : (h.spend).atc = h.atc := rfl
@[simp] theorem Head.spend_flt (h : Head)  : (h.spend).flt = h.flt := rfl
@[simp] theorem Head.spend_tsi (h : Head)  : (h.spend).tsi = h.tsi := rfl
@[simp] theorem Head.spend_hqe (h : Head)  : (h.spend).hqe = h.hqe := rfl
@[simp] theorem Head.spend_dp (h : Head)  : (h.spend).dp = h.dp := rfl
@[simp] theorem Head.spend_ldr (h : Head)  : (h.spend).ldr = h.ldr := rfl
@[simp] theorem Head.spend_cmp (h : Head)  : (h.spend).cmp = h.cmp := rfl
@[simp] theorem Head.spend_stg (h : Head)  : (h.spend).stg = h.stg := rfl
@[simp] theorem Head.spend_cph (h : Head)  : (h.spend).cph = h.cph := rfl
@[simp] theorem Head.spend_dgt (h : Head)  : (h.spend).dgt = h.dgt := rfl
@[simp] theorem Head.spend_pty (h : Head)  : (h.spend).pty = h.pty := rfl
@[simp] theorem Head.spend_mnd (h : Head)  : (h.spend).mnd = h.mnd := rfl
@[simp] theorem Head.spend_shf (h : Head)  : (h.spend).shf = h.shf := rfl
@[simp] theorem Head.spend_whl (h : Head)  : (h.spend).whl = h.whl := rfl
@[simp] theorem Head.spend_pair (h : Head)  : (h.spend).pair = h.pair := rfl
@[simp] theorem Head.spend_pan (h : Head)  : (h.spend).pan = h.pan := rfl
@[simp] theorem Head.spend_memc (h : Head)  : (h.spend).memc = h.memc := rfl
@[simp] theorem Head.spend_pwr (h : Head)  : (h.spend).pwr = h.pwr := rfl
@[simp] theorem Head.spend_cel (h : Head)  : (h.spend).cel = h.cel := rfl
@[simp] theorem Head.spend_cal (h : Head)  : (h.spend).cal = h.cal := rfl
@[simp] theorem Head.spend_fwu (h : Head)  : (h.spend).fwu = h.fwu := rfl
@[simp] theorem Head.spend_pins (h : Head)  : (h.spend).pins = h.pins := rfl
@[simp] theorem Head.spend_parade (h : Head)  : (h.spend).parade = h.parade := rfl
@[simp] theorem Head.spend_paradeSeq (h : Head)  : (h.spend).paradeSeq = h.paradeSeq := rfl
@[simp] theorem Head.spend_out (h : Head)  : (h.spend).out = h.out := rfl
@[simp] theorem Head.spend_free (h : Head)  : (h.spend).free = h.free + 1 := rfl

/-! ## Registers written in part -/

@[simp] theorem Head.setFld_now (h : Head) (k hi lo v : Nat) : (h.setFld k hi lo v).now = h.now := rfl
@[simp] theorem Head.setFld_fuse (h : Head) (k hi lo v : Nat) : (h.setFld k hi lo v).fuse = h.fuse := rfl
@[simp] theorem Head.setFld_brk (h : Head) (k hi lo v : Nat) : (h.setFld k hi lo v).brk = h.brk := rfl
@[simp] theorem Head.setFld_atc (h : Head) (k hi lo v : Nat) : (h.setFld k hi lo v).atc = h.atc := rfl
@[simp] theorem Head.setFld_flt (h : Head) (k hi lo v : Nat) : (h.setFld k hi lo v).flt = h.flt := rfl
@[simp] theorem Head.setFld_tsi (h : Head) (k hi lo v : Nat) : (h.setFld k hi lo v).tsi = h.tsi := rfl
@[simp] theorem Head.setFld_hqe (h : Head) (k hi lo v : Nat) : (h.setFld k hi lo v).hqe = h.hqe := rfl
@[simp] theorem Head.setFld_dp (h : Head) (k hi lo v : Nat) : (h.setFld k hi lo v).dp = h.dp := rfl
@[simp] theorem Head.setFld_ldr (h : Head) (k hi lo v : Nat) : (h.setFld k hi lo v).ldr = h.ldr := rfl
@[simp] theorem Head.setFld_cmp (h : Head) (k hi lo v : Nat) : (h.setFld k hi lo v).cmp = h.cmp := rfl
@[simp] theorem Head.setFld_stg (h : Head) (k hi lo v : Nat) : (h.setFld k hi lo v).stg = h.stg := rfl
@[simp] theorem Head.setFld_cph (h : Head) (k hi lo v : Nat) : (h.setFld k hi lo v).cph = h.cph := rfl
@[simp] theorem Head.setFld_dgt (h : Head) (k hi lo v : Nat) : (h.setFld k hi lo v).dgt = h.dgt := rfl
@[simp] theorem Head.setFld_pty (h : Head) (k hi lo v : Nat) : (h.setFld k hi lo v).pty = h.pty := rfl
@[simp] theorem Head.setFld_mnd (h : Head) (k hi lo v : Nat) : (h.setFld k hi lo v).mnd = h.mnd := rfl
@[simp] theorem Head.setFld_shf (h : Head) (k hi lo v : Nat) : (h.setFld k hi lo v).shf = h.shf := rfl
@[simp] theorem Head.setFld_whl (h : Head) (k hi lo v : Nat) : (h.setFld k hi lo v).whl = h.whl := rfl
@[simp] theorem Head.setFld_pair (h : Head) (k hi lo v : Nat) : (h.setFld k hi lo v).pair = h.pair := rfl
@[simp] theorem Head.setFld_pan (h : Head) (k hi lo v : Nat) : (h.setFld k hi lo v).pan = h.pan := rfl
@[simp] theorem Head.setFld_memc (h : Head) (k hi lo v : Nat) : (h.setFld k hi lo v).memc = h.memc := rfl
@[simp] theorem Head.setFld_pwr (h : Head) (k hi lo v : Nat) : (h.setFld k hi lo v).pwr = h.pwr := rfl
@[simp] theorem Head.setFld_cel (h : Head) (k hi lo v : Nat) : (h.setFld k hi lo v).cel = h.cel := rfl
@[simp] theorem Head.setFld_cal (h : Head) (k hi lo v : Nat) : (h.setFld k hi lo v).cal = h.cal := rfl
@[simp] theorem Head.setFld_fwu (h : Head) (k hi lo v : Nat) : (h.setFld k hi lo v).fwu = h.fwu := rfl
@[simp] theorem Head.setFld_pins (h : Head) (k hi lo v : Nat) : (h.setFld k hi lo v).pins = h.pins := rfl
@[simp] theorem Head.setFld_parade (h : Head) (k hi lo v : Nat) : (h.setFld k hi lo v).parade = h.parade := rfl
@[simp] theorem Head.setFld_paradeSeq (h : Head) (k hi lo v : Nat) : (h.setFld k hi lo v).paradeSeq = h.paradeSeq := rfl
@[simp] theorem Head.setFld_out (h : Head) (k hi lo v : Nat) : (h.setFld k hi lo v).out = h.out := rfl
@[simp] theorem Head.setFld_free (h : Head) (k hi lo v : Nat) : (h.setFld k hi lo v).free = h.free := rfl

@[simp] theorem Head.orReg_now (h : Head) (k : Nat) (m : Word) : (h.orReg k m).now = h.now := rfl
@[simp] theorem Head.orReg_fuse (h : Head) (k : Nat) (m : Word) : (h.orReg k m).fuse = h.fuse := rfl
@[simp] theorem Head.orReg_brk (h : Head) (k : Nat) (m : Word) : (h.orReg k m).brk = h.brk := rfl
@[simp] theorem Head.orReg_atc (h : Head) (k : Nat) (m : Word) : (h.orReg k m).atc = h.atc := rfl
@[simp] theorem Head.orReg_flt (h : Head) (k : Nat) (m : Word) : (h.orReg k m).flt = h.flt := rfl
@[simp] theorem Head.orReg_tsi (h : Head) (k : Nat) (m : Word) : (h.orReg k m).tsi = h.tsi := rfl
@[simp] theorem Head.orReg_hqe (h : Head) (k : Nat) (m : Word) : (h.orReg k m).hqe = h.hqe := rfl
@[simp] theorem Head.orReg_dp (h : Head) (k : Nat) (m : Word) : (h.orReg k m).dp = h.dp := rfl
@[simp] theorem Head.orReg_ldr (h : Head) (k : Nat) (m : Word) : (h.orReg k m).ldr = h.ldr := rfl
@[simp] theorem Head.orReg_cmp (h : Head) (k : Nat) (m : Word) : (h.orReg k m).cmp = h.cmp := rfl
@[simp] theorem Head.orReg_stg (h : Head) (k : Nat) (m : Word) : (h.orReg k m).stg = h.stg := rfl
@[simp] theorem Head.orReg_cph (h : Head) (k : Nat) (m : Word) : (h.orReg k m).cph = h.cph := rfl
@[simp] theorem Head.orReg_dgt (h : Head) (k : Nat) (m : Word) : (h.orReg k m).dgt = h.dgt := rfl
@[simp] theorem Head.orReg_pty (h : Head) (k : Nat) (m : Word) : (h.orReg k m).pty = h.pty := rfl
@[simp] theorem Head.orReg_mnd (h : Head) (k : Nat) (m : Word) : (h.orReg k m).mnd = h.mnd := rfl
@[simp] theorem Head.orReg_shf (h : Head) (k : Nat) (m : Word) : (h.orReg k m).shf = h.shf := rfl
@[simp] theorem Head.orReg_whl (h : Head) (k : Nat) (m : Word) : (h.orReg k m).whl = h.whl := rfl
@[simp] theorem Head.orReg_pair (h : Head) (k : Nat) (m : Word) : (h.orReg k m).pair = h.pair := rfl
@[simp] theorem Head.orReg_pan (h : Head) (k : Nat) (m : Word) : (h.orReg k m).pan = h.pan := rfl
@[simp] theorem Head.orReg_memc (h : Head) (k : Nat) (m : Word) : (h.orReg k m).memc = h.memc := rfl
@[simp] theorem Head.orReg_pwr (h : Head) (k : Nat) (m : Word) : (h.orReg k m).pwr = h.pwr := rfl
@[simp] theorem Head.orReg_cel (h : Head) (k : Nat) (m : Word) : (h.orReg k m).cel = h.cel := rfl
@[simp] theorem Head.orReg_cal (h : Head) (k : Nat) (m : Word) : (h.orReg k m).cal = h.cal := rfl
@[simp] theorem Head.orReg_fwu (h : Head) (k : Nat) (m : Word) : (h.orReg k m).fwu = h.fwu := rfl
@[simp] theorem Head.orReg_pins (h : Head) (k : Nat) (m : Word) : (h.orReg k m).pins = h.pins := rfl
@[simp] theorem Head.orReg_parade (h : Head) (k : Nat) (m : Word) : (h.orReg k m).parade = h.parade := rfl
@[simp] theorem Head.orReg_paradeSeq (h : Head) (k : Nat) (m : Word) : (h.orReg k m).paradeSeq = h.paradeSeq := rfl
@[simp] theorem Head.orReg_out (h : Head) (k : Nat) (m : Word) : (h.orReg k m).out = h.out := rfl
@[simp] theorem Head.orReg_free (h : Head) (k : Nat) (m : Word) : (h.orReg k m).free = h.free := rfl

@[simp] theorem Head.clearReg_now (h : Head) (k : Nat) (m : Word) : (h.clearReg k m).now = h.now := rfl
@[simp] theorem Head.clearReg_fuse (h : Head) (k : Nat) (m : Word) : (h.clearReg k m).fuse = h.fuse := rfl
@[simp] theorem Head.clearReg_brk (h : Head) (k : Nat) (m : Word) : (h.clearReg k m).brk = h.brk := rfl
@[simp] theorem Head.clearReg_atc (h : Head) (k : Nat) (m : Word) : (h.clearReg k m).atc = h.atc := rfl
@[simp] theorem Head.clearReg_flt (h : Head) (k : Nat) (m : Word) : (h.clearReg k m).flt = h.flt := rfl
@[simp] theorem Head.clearReg_tsi (h : Head) (k : Nat) (m : Word) : (h.clearReg k m).tsi = h.tsi := rfl
@[simp] theorem Head.clearReg_hqe (h : Head) (k : Nat) (m : Word) : (h.clearReg k m).hqe = h.hqe := rfl
@[simp] theorem Head.clearReg_dp (h : Head) (k : Nat) (m : Word) : (h.clearReg k m).dp = h.dp := rfl
@[simp] theorem Head.clearReg_ldr (h : Head) (k : Nat) (m : Word) : (h.clearReg k m).ldr = h.ldr := rfl
@[simp] theorem Head.clearReg_cmp (h : Head) (k : Nat) (m : Word) : (h.clearReg k m).cmp = h.cmp := rfl
@[simp] theorem Head.clearReg_stg (h : Head) (k : Nat) (m : Word) : (h.clearReg k m).stg = h.stg := rfl
@[simp] theorem Head.clearReg_cph (h : Head) (k : Nat) (m : Word) : (h.clearReg k m).cph = h.cph := rfl
@[simp] theorem Head.clearReg_dgt (h : Head) (k : Nat) (m : Word) : (h.clearReg k m).dgt = h.dgt := rfl
@[simp] theorem Head.clearReg_pty (h : Head) (k : Nat) (m : Word) : (h.clearReg k m).pty = h.pty := rfl
@[simp] theorem Head.clearReg_mnd (h : Head) (k : Nat) (m : Word) : (h.clearReg k m).mnd = h.mnd := rfl
@[simp] theorem Head.clearReg_shf (h : Head) (k : Nat) (m : Word) : (h.clearReg k m).shf = h.shf := rfl
@[simp] theorem Head.clearReg_whl (h : Head) (k : Nat) (m : Word) : (h.clearReg k m).whl = h.whl := rfl
@[simp] theorem Head.clearReg_pair (h : Head) (k : Nat) (m : Word) : (h.clearReg k m).pair = h.pair := rfl
@[simp] theorem Head.clearReg_pan (h : Head) (k : Nat) (m : Word) : (h.clearReg k m).pan = h.pan := rfl
@[simp] theorem Head.clearReg_memc (h : Head) (k : Nat) (m : Word) : (h.clearReg k m).memc = h.memc := rfl
@[simp] theorem Head.clearReg_pwr (h : Head) (k : Nat) (m : Word) : (h.clearReg k m).pwr = h.pwr := rfl
@[simp] theorem Head.clearReg_cel (h : Head) (k : Nat) (m : Word) : (h.clearReg k m).cel = h.cel := rfl
@[simp] theorem Head.clearReg_cal (h : Head) (k : Nat) (m : Word) : (h.clearReg k m).cal = h.cal := rfl
@[simp] theorem Head.clearReg_fwu (h : Head) (k : Nat) (m : Word) : (h.clearReg k m).fwu = h.fwu := rfl
@[simp] theorem Head.clearReg_pins (h : Head) (k : Nat) (m : Word) : (h.clearReg k m).pins = h.pins := rfl
@[simp] theorem Head.clearReg_parade (h : Head) (k : Nat) (m : Word) : (h.clearReg k m).parade = h.parade := rfl
@[simp] theorem Head.clearReg_paradeSeq (h : Head) (k : Nat) (m : Word) : (h.clearReg k m).paradeSeq = h.paradeSeq := rfl
@[simp] theorem Head.clearReg_out (h : Head) (k : Nat) (m : Word) : (h.clearReg k m).out = h.out := rfl
@[simp] theorem Head.clearReg_free (h : Head) (k : Nat) (m : Word) : (h.clearReg k m).free = h.free := rfl

/-! ## Raising a source changes the sources and the condition bits alone -/

@[simp] theorem Head.raise_now (h : Head) (n : Nat) : (h.raise n).now = h.now := by unfold Head.raise; split <;> rfl
@[simp] theorem Head.raise_fuse (h : Head) (n : Nat) : (h.raise n).fuse = h.fuse := by unfold Head.raise; split <;> rfl
@[simp] theorem Head.raise_atc (h : Head) (n : Nat) : (h.raise n).atc = h.atc := by unfold Head.raise; split <;> rfl
@[simp] theorem Head.raise_flt (h : Head) (n : Nat) : (h.raise n).flt = h.flt := by unfold Head.raise; split <;> rfl
@[simp] theorem Head.raise_tsi (h : Head) (n : Nat) : (h.raise n).tsi = h.tsi := by unfold Head.raise; split <;> rfl
@[simp] theorem Head.raise_hqe (h : Head) (n : Nat) : (h.raise n).hqe = h.hqe := by unfold Head.raise; split <;> rfl
@[simp] theorem Head.raise_dp (h : Head) (n : Nat) : (h.raise n).dp = h.dp := by unfold Head.raise; split <;> rfl
@[simp] theorem Head.raise_ldr (h : Head) (n : Nat) : (h.raise n).ldr = h.ldr := by unfold Head.raise; split <;> rfl
@[simp] theorem Head.raise_cmp (h : Head) (n : Nat) : (h.raise n).cmp = h.cmp := by unfold Head.raise; split <;> rfl
@[simp] theorem Head.raise_stg (h : Head) (n : Nat) : (h.raise n).stg = h.stg := by unfold Head.raise; split <;> rfl
@[simp] theorem Head.raise_cph (h : Head) (n : Nat) : (h.raise n).cph = h.cph := by unfold Head.raise; split <;> rfl
@[simp] theorem Head.raise_dgt (h : Head) (n : Nat) : (h.raise n).dgt = h.dgt := by unfold Head.raise; split <;> rfl
@[simp] theorem Head.raise_pty (h : Head) (n : Nat) : (h.raise n).pty = h.pty := by unfold Head.raise; split <;> rfl
@[simp] theorem Head.raise_mnd (h : Head) (n : Nat) : (h.raise n).mnd = h.mnd := by unfold Head.raise; split <;> rfl
@[simp] theorem Head.raise_shf (h : Head) (n : Nat) : (h.raise n).shf = h.shf := by unfold Head.raise; split <;> rfl
@[simp] theorem Head.raise_whl (h : Head) (n : Nat) : (h.raise n).whl = h.whl := by unfold Head.raise; split <;> rfl
@[simp] theorem Head.raise_pair (h : Head) (n : Nat) : (h.raise n).pair = h.pair := by unfold Head.raise; split <;> rfl
@[simp] theorem Head.raise_pan (h : Head) (n : Nat) : (h.raise n).pan = h.pan := by unfold Head.raise; split <;> rfl
@[simp] theorem Head.raise_memc (h : Head) (n : Nat) : (h.raise n).memc = h.memc := by unfold Head.raise; split <;> rfl
@[simp] theorem Head.raise_pwr (h : Head) (n : Nat) : (h.raise n).pwr = h.pwr := by unfold Head.raise; split <;> rfl
@[simp] theorem Head.raise_cel (h : Head) (n : Nat) : (h.raise n).cel = h.cel := by unfold Head.raise; split <;> rfl
@[simp] theorem Head.raise_cal (h : Head) (n : Nat) : (h.raise n).cal = h.cal := by unfold Head.raise; split <;> rfl
@[simp] theorem Head.raise_fwu (h : Head) (n : Nat) : (h.raise n).fwu = h.fwu := by unfold Head.raise; split <;> rfl
@[simp] theorem Head.raise_pins (h : Head) (n : Nat) : (h.raise n).pins = h.pins := by unfold Head.raise; split <;> rfl
@[simp] theorem Head.raise_parade (h : Head) (n : Nat) : (h.raise n).parade = h.parade := by unfold Head.raise; split <;> rfl
@[simp] theorem Head.raise_paradeSeq (h : Head) (n : Nat) : (h.raise n).paradeSeq = h.paradeSeq := by unfold Head.raise; split <;> rfl
@[simp] theorem Head.raise_out (h : Head) (n : Nat) : (h.raise n).out = h.out := by unfold Head.raise; split <;> rfl
@[simp] theorem Head.raise_free (h : Head) (n : Nat) : (h.raise n).free = h.free := by unfold Head.raise; split <;> rfl

/-- A raise sets the source's state as R323 says. -/
theorem Head.raise_brk (h : Head) (n : Nat) : (h.raise n).brk = (h.putSrc (h.src n).raised).brk := by
  unfold Head.raise; split <;> rfl

/-! ## The three parts of the whole state -/

@[simp] theorem State.act_eq (s : State) (f : Head → Head) : s.act f = .next { s with head := f s.head } := rfl

end Sys2Proof.Machine
end

