-- ==== Sys2Proof/Laws/Registers.lean ====
section
/-!
SUPPORT. Laws of the register file: what a register reads as after a write to it or to another one, and the rising order of the table.
-/

namespace Sys2Proof.Machine

open Sys2Proof

/-- A value that is not the reset value is found where it was put. -/
theorem lookup_regInsert_self (k : Nat) {w r : Word} (hw : w ≠ r) (l : List (Nat × Word)) :
    (regInsert k w r l).lookup k = some w := by
  induction l with
  | nil => simp [regInsert, hw]
  | cons x l ih =>
    obtain ⟨k', w'⟩ := x
    unfold regInsert
    by_cases h1 : k < k'
    · simp [h1, hw]
    · by_cases h2 : k = k'
      · simp [h2, hw]
      · have : (k == k') = false := by simpa using h2
        simp [h1, h2, List.lookup_cons, this, ih]

/-- Another register is found as before. -/
theorem lookup_regInsert_other {k k₂ : Nat} (hk : k₂ ≠ k) (w r : Word) (l : List (Nat × Word)) :
    (regInsert k w r l).lookup k₂ = l.lookup k₂ := by
  have hk' : (k₂ == k) = false := by simpa using hk
  induction l with
  | nil =>
    unfold regInsert
    split <;> simp [List.lookup_cons, hk']
  | cons x l ih =>
    obtain ⟨k', w'⟩ := x
    unfold regInsert
    by_cases h1 : k < k'
    · rw [if_pos h1]
      split
      · rfl
      · simp [List.lookup_cons, hk']
    · rw [if_neg h1]
      by_cases h2 : k = k'
      · subst h2
        rw [if_pos rfl]
        split <;> simp [List.lookup_cons, hk']
      · rw [if_neg h2]
        simp only [List.lookup_cons, ih]

/-- Keys rise strictly. -/
def risingFrom : Nat → List (Nat × Word) → Bool
  | _, [] => true
  | lo, x :: l => decide (lo ≤ x.1) && risingFrom (x.1 + 1) l

theorem risingFrom_mono {lo lo' : Nat} {l : List (Nat × Word)} (h : lo' ≤ lo) (hl : risingFrom lo l = true) :
    risingFrom lo' l = true := by
  cases l with
  | nil => rfl
  | cons x l =>
    simp only [risingFrom, Bool.and_eq_true, decide_eq_true_eq] at hl ⊢
    exact ⟨by omega, hl.2⟩

/-- A register that is taken out of the table is not found. -/
theorem lookup_filter_self (k : Nat) (l : List (Nat × Word)) : (l.filter fun x => x.1 != k).lookup k = none := by
  induction l with
  | nil => rfl
  | cons x l ih =>
    obtain ⟨k', w⟩ := x
    by_cases hk : k' = k
    · simpa [hk] using ih
    · have : (k == k') = false := by simpa using fun e => hk e.symm
      simpa [hk, List.lookup_cons, this] using ih

/-- The others are found as before. -/
theorem lookup_filter_other {k k₂ : Nat} (hk : k₂ ≠ k) (l : List (Nat × Word)) :
    (l.filter fun x => x.1 != k).lookup k₂ = l.lookup k₂ := by
  induction l with
  | nil => rfl
  | cons x l ih =>
    obtain ⟨k', w⟩ := x
    by_cases e : k' = k
    · subst e
      have : (k₂ == k') = false := by simpa using hk
      rw [List.filter_cons_of_neg (by simp), List.lookup_cons, this]
      exact ih
    · simp [e, List.lookup_cons, ih]

/-- Putting the reset value in leaves the table as it is where the register is not listed. -/
theorem lookup_regInsert_reset (k : Nat) (r : Word) (l : List (Nat × Word)) (hl : l.lookup k = none) :
    (regInsert k r r l).lookup k = none := by
  induction l with
  | nil => simp [regInsert]
  | cons x l ih =>
    obtain ⟨k', w'⟩ := x
    by_cases h2 : k = k'
    · subst h2
      simp at hl
    · have hk : (k == k') = false := by simpa using h2
      simp only [List.lookup_cons, hk] at hl
      unfold regInsert
      by_cases h1 : k < k'
      · simp [h1, List.lookup_cons, hk, hl]
      · simp [h1, h2, List.lookup_cons, hk, ih hl]

/-- Taking entries out keeps the order. -/
theorem risingFrom_filter {lo : Nat} (p : Nat × Word → Bool) {l : List (Nat × Word)} (hl : risingFrom lo l = true) :
    risingFrom lo (l.filter p) = true := by
  induction l generalizing lo with
  | nil => rfl
  | cons x l ih =>
    simp only [risingFrom, Bool.and_eq_true, decide_eq_true_eq] at hl
    simp only [List.filter_cons]
    split
    · simp only [risingFrom, Bool.and_eq_true, decide_eq_true_eq]
      exact ⟨hl.1, ih hl.2⟩
    · exact risingFrom_mono (by omega) (ih hl.2)

theorem regInsert_rising {lo k : Nat} (w r : Word) {l : List (Nat × Word)} (hl : risingFrom lo l = true) (hk : lo ≤ k) :
    risingFrom lo (regInsert k w r l) = true := by
  induction l generalizing lo with
  | nil =>
    unfold regInsert
    split <;> simp [risingFrom, hk]
  | cons x l ih =>
    obtain ⟨k', w'⟩ := x
    have hl' := hl
    simp only [risingFrom, Bool.and_eq_true, decide_eq_true_eq] at hl'
    unfold regInsert
    by_cases h1 : k < k'
    · rw [if_pos h1]
      split
      · exact hl
      · simp only [risingFrom, Bool.and_eq_true, decide_eq_true_eq]
        exact ⟨hk, by omega, hl'.2⟩
    · rw [if_neg h1]
      by_cases h2 : k = k'
      · subst h2
        rw [if_pos rfl]
        split
        · exact risingFrom_mono (by omega) hl'.2
        · simp only [risingFrom, Bool.and_eq_true, decide_eq_true_eq]
          exact ⟨hk, hl'.2⟩
      · rw [if_neg h2]
        simp only [risingFrom, Bool.and_eq_true, decide_eq_true_eq]
        exact ⟨hl'.1, ih hl'.2 (by omega)⟩

/-- The register table is in its canonical order. -/
def Head.regsRise (h : Head) : Bool := risingFrom 0 h.regs

theorem Head.setReg_rise (h : Head) (k : Nat) (w : Word) (hr : h.regsRise = true) : (h.setReg k w).regsRise = true :=
  regInsert_rising w _ (risingFrom_filter _ hr) (Nat.zero_le k)

/-- A register reads what was written to it. -/
theorem Head.reg_setReg_self (h : Head) (k : Nat) (w : Word) : (h.setReg k w).reg k = w := by
  unfold Head.reg Head.setReg
  dsimp only
  by_cases hw : w = regReset k
  · rw [hw, lookup_regInsert_reset _ _ _ (lookup_filter_self k _)]
    rfl
  · rw [lookup_regInsert_self k hw]
    rfl

/-- Another register reads as before. -/
theorem Head.reg_setReg_other (h : Head) {k k₂ : Nat} (w : Word) (hk : k₂ ≠ k) : (h.setReg k w).reg k₂ = h.reg k₂ := by
  unfold Head.reg Head.setReg
  dsimp only
  rw [lookup_regInsert_other hk, lookup_filter_other hk]

/-- A set condition bit reads 1. -/
theorem Head.bit_orReg (h : Head) (k i : Nat) (hi : i < 32) : (h.orReg k (BitVec.ofNat 32 (2 ^ i))).bit k i = true := by
  unfold Head.bit Head.orReg
  rw [Head.reg_setReg_self, BitVec.getLsbD_or, BitVec.getLsbD_ofNat, Nat.testBit_two_pow]
  simp [hi]

end Sys2Proof.Machine
end

