-- ==== Sys2Proof/Laws/Barker.lean ====
section
/-!
SUPPORT. Laws of Barker's sources (15_faults_barker_attic.md R323).
-/

namespace Sys2Proof.Machine

open Sys2Proof

theorem Head.src_src (h : Head) (n : Nat) : (h.src n).src = n := by
  unfold Head.src
  cases hf : h.brk.find? (·.src == n) with
  | none => rfl
  | some x => simpa using List.find?_some hf

/-- A source that was put back reads as it was put, or as idle. -/
theorem Head.src_putSrc_self (h : Head) (x : SrcState) :
    (h.putSrc x).src x.src = if x.pending || x.inService || x.again then x else { src := x.src } := by
  unfold Head.putSrc Head.src
  dsimp only
  split
  · simp
  · have : (h.brk.filter fun y => y.src != x.src).find? (fun y => y.src == x.src) = none := by
      rw [List.find?_eq_none]
      intro y hy
      have := List.mem_filter.1 hy
      simpa using this.2
    rw [this]
    rfl

/-- Another source keeps its state. -/
theorem Head.src_putSrc_other (h : Head) (x : SrcState) {m : Nat} (hm : m ≠ x.src) : (h.putSrc x).src m = h.src m := by
  have hf : (h.brk.filter fun y => y.src != x.src).find? (fun y => y.src == m) = h.brk.find? fun y => y.src == m := by
    rw [List.find?_filter]
    congr 1
    funext y
    by_cases h : y.src = m
    · simp [h, hm]
    · simp [h]
  unfold Head.putSrc Head.src
  dsimp only
  split
  · have : (x.src == m) = false := by simpa using fun e : x.src = m => hm e.symm
    rw [List.find?_cons, this, hf]
  · rw [hf]

theorem SrcState.raised_listed (x : SrcState) : (x.raised.pending || x.raised.inService || x.raised.again) = true := by
  unfold SrcState.raised
  split
  · simp
  · split
    · next h => simp [h]
    · simp

theorem SrcState.raised_src (x : SrcState) : x.raised.src = x.src := by
  unfold SrcState.raised
  split
  · rfl
  · split <;> rfl

/-- The raised source. -/
theorem Head.raise_src_self (h : Head) (n : Nat) : (h.raise n).src n = (h.src n).raised := by
  have e : (h.raise n).src n = (h.putSrc (h.src n).raised).src n := by
    unfold Head.src
    rw [Head.raise_brk]
    rfl
  have hs : (h.src n).raised.src = n := by rw [SrcState.raised_src, Head.src_src]
  have := Head.src_putSrc_self h (h.src n).raised
  rw [hs] at this
  rw [e, this, if_pos (SrcState.raised_listed _)]

/-- A raise leaves every other source alone. -/
theorem Head.raise_src_other (h : Head) {n m : Nat} (hm : m ≠ n) : (h.raise n).src m = h.src m := by
  have e : (h.raise n).src m = (h.putSrc (h.src n).raised).src m := by
    unfold Head.src
    rw [Head.raise_brk]
    rfl
  rw [e, Head.src_putSrc_other]
  rw [SrcState.raised_src, Head.src_src]
  exact hm

end Sys2Proof.Machine
end

