-- ==== Sys2Proof/Laws/Memory.lean ====
section
/-!
SUPPORT. Laws of head memory: every operation keeps the canonical form, a read after a write gives the value written, and a write
leaves every other byte alone.
-/

namespace Sys2Proof.Machine

open Sys2Proof

/-! ## The canonical form -/

theorem Memory.wfFrom_nil (lo : Nat) : Memory.wfFrom lo [] = true := rfl

theorem Memory.wfFrom_cons (lo : Nat) (c : Host.Cell) (m : Memory) :
    Memory.wfFrom lo (c :: m) = true ↔ lo ≤ c.1 ∧ c.2 ≠ 0 ∧ Memory.wfFrom (c.1 + 1) m = true := by
  simp [Memory.wfFrom, and_assoc]

/-- A list canonical from an address on is canonical from every lower one. -/
theorem Memory.wfFrom_mono {lo lo' : Nat} {m : Memory} (h : lo' ≤ lo) (hm : Memory.wfFrom lo m = true) :
    Memory.wfFrom lo' m = true := by
  cases m with
  | nil => rfl
  | cons c m =>
    rw [Memory.wfFrom_cons] at hm ⊢
    exact ⟨Nat.le_trans h hm.1, hm.2⟩

/-- Nothing is listed below the bound. -/
theorem Memory.byte_below {lo a : Nat} {m : Memory} (hm : Memory.wfFrom lo m = true) (ha : a < lo) : Memory.byte m a = 0 := by
  induction m generalizing lo with
  | nil => rfl
  | cons c m ih =>
    rw [Memory.wfFrom_cons] at hm
    have : c.1 ≠ a := by omega
    simp only [Memory.byte, this, if_false]
    exact ih hm.2.2 (by omega)

theorem Memory.put_wfFrom {lo a : Nat} {m : Memory} (b : Byte) (hm : Memory.wfFrom lo m = true) (ha : lo ≤ a) :
    Memory.wfFrom lo (Memory.put m a b) = true := by
  induction m generalizing lo with
  | nil =>
    unfold Memory.put
    split
    · rfl
    · next hb => exact (Memory.wfFrom_cons _ _ _).2 ⟨ha, hb, rfl⟩
  | cons c m ih =>
    have hm' := hm
    rw [Memory.wfFrom_cons] at hm'
    obtain ⟨h1, h2, h3⟩ := hm'
    unfold Memory.put
    split
    · next hlt =>
      split
      · exact hm
      · next hb =>
        exact (Memory.wfFrom_cons _ _ _).2 ⟨ha, hb, (Memory.wfFrom_cons _ _ _).2 ⟨by simpa using hlt, h2, h3⟩⟩
    · split
      · next heq =>
        split
        · exact Memory.wfFrom_mono (by omega) h3
        · next hb => exact (Memory.wfFrom_cons _ _ _).2 ⟨ha, hb, by rw [heq]; exact h3⟩
      · exact (Memory.wfFrom_cons _ _ _).2 ⟨h1, h2, ih h3 (by omega)⟩

/-- A one-byte write keeps the canonical form. -/
theorem Memory.put_wf {m : Memory} (a : Nat) (b : Byte) (hm : Memory.wf m = true) : Memory.wf (Memory.put m a b) = true :=
  Memory.put_wfFrom b hm (Nat.zero_le a)

/-- A write keeps the canonical form. -/
theorem Memory.write_wf {m : Memory} (a : Nat) (bs : Bytes) (hm : Memory.wf m = true) : Memory.wf (Memory.write m a bs) = true := by
  induction bs generalizing m a with
  | nil => exact hm
  | cons b bs ih => exact ih _ (Memory.put_wf _ _ hm)

theorem Memory.keep_wfFrom {lo : Nat} {m : Memory} (p : Nat → Bool) (hm : Memory.wfFrom lo m = true) :
    Memory.wfFrom lo (Memory.keep m p) = true := by
  induction m generalizing lo with
  | nil => rfl
  | cons c m ih =>
    rw [Memory.wfFrom_cons] at hm
    unfold Memory.keep
    rw [List.filter_cons]
    split
    · exact (Memory.wfFrom_cons _ _ _).2 ⟨hm.1, hm.2.1, ih hm.2.2⟩
    · exact Memory.wfFrom_mono (by omega) (ih hm.2.2)

/-- Dropping ranges keeps the canonical form. -/
theorem Memory.keep_wf {m : Memory} (p : Nat → Bool) (hm : Memory.wf m = true) : Memory.wf (Memory.keep m p) = true :=
  Memory.keep_wfFrom p hm

/-- Writing lines back keeps the canonical form. -/
theorem Memory.writeBack_wf {m : Memory} (ls : List Line) (hm : Memory.wf m = true) : Memory.wf (Memory.writeBack m ls) = true := by
  induction ls generalizing m with
  | nil => exact hm
  | cons l ls ih =>
    unfold Memory.writeBack
    split
    · exact ih (Memory.write_wf _ _ hm)
    · exact ih hm

/-! ## Reading -/

theorem Memory.byte_put_from {lo : Nat} {m : Memory} (a x : Nat) (b : Byte) (hm : Memory.wfFrom lo m = true) :
    Memory.byte (Memory.put m a b) x = if x = a then b else Memory.byte m x := by
  induction m generalizing lo with
  | nil =>
    unfold Memory.put
    split
    · next hb =>
      split
      · exact hb.symm
      · rfl
    · by_cases hx : x = a
      · simp [Memory.byte, hx]
      · have : a ≠ x := fun e => hx e.symm
        simp [Memory.byte, hx, this]
  | cons c m ih =>
    rw [Memory.wfFrom_cons] at hm
    obtain ⟨h1, h2, h3⟩ := hm
    unfold Memory.put
    by_cases hlt : a < c.1
    · rw [if_pos hlt]
      by_cases hb : b = 0
      · rw [if_pos hb]
        by_cases hx : x = a
        · have hz : Memory.byte (c :: m) x = 0 :=
            Memory.byte_below (lo := c.1) ((Memory.wfFrom_cons _ _ _).2 ⟨Nat.le_refl _, h2, h3⟩) (by omega)
          rw [if_pos hx, hz, hb]
        · rw [if_neg hx]
      · rw [if_neg hb]
        by_cases hx : x = a
        · simp [Memory.byte, hx]
        · have : a ≠ x := fun e => hx e.symm
          simp [Memory.byte, hx, this]
    · rw [if_neg hlt]
      by_cases heq : a = c.1
      · rw [if_pos heq]
        by_cases hb : b = 0
        · rw [if_pos hb]
          by_cases hx : x = a
          · rw [if_pos hx, hb]
            exact Memory.byte_below h3 (by omega)
          · have : c.1 ≠ x := by omega
            simp [Memory.byte, hx, this]
        · rw [if_neg hb]
          by_cases hx : x = a
          · simp [Memory.byte, hx]
          · have h4 : a ≠ x := fun e => hx e.symm
            have h5 : c.1 ≠ x := by omega
            simp [Memory.byte, hx, h4, h5]
      · rw [if_neg heq]
        by_cases hc : c.1 = x
        · have : x ≠ a := by omega
          simp [Memory.byte, hc, this]
        · simp only [Memory.byte, hc, if_false]
          exact ih h3

/-- A byte after a one-byte write. -/
theorem Memory.byte_put {m : Memory} (a x : Nat) (b : Byte) (hm : Memory.wf m = true) :
    Memory.byte (Memory.put m a b) x = if x = a then b else Memory.byte m x :=
  Memory.byte_put_from a x b hm

/-- A write leaves every byte outside it alone. -/
theorem Memory.byte_write_outside {m : Memory} (a x : Nat) (bs : Bytes) (hm : Memory.wf m = true)
    (hx : x < a ∨ a + bs.length ≤ x) : Memory.byte (Memory.write m a bs) x = Memory.byte m x := by
  induction bs generalizing m a with
  | nil => rfl
  | cons b bs ih =>
    simp only [List.length_cons] at hx
    rw [Memory.write, ih (a + 1) (Memory.put_wf _ _ hm) (by omega), Memory.byte_put _ _ _ hm, if_neg (by omega)]

/-- A byte inside a write is the byte written. -/
theorem Memory.byte_write_inside {m : Memory} (a i : Nat) (bs : Bytes) (hm : Memory.wf m = true) (hi : i < bs.length) :
    Memory.byte (Memory.write m a bs) (a + i) = bs[i] := by
  induction bs generalizing m a i with
  | nil => exact absurd hi (Nat.not_lt_zero _)
  | cons b bs ih =>
    cases i with
    | zero =>
      rw [Memory.write, Memory.byte_write_outside _ _ _ (Memory.put_wf _ _ hm) (by omega), Memory.byte_put _ _ _ hm]
      simp
    | succ i =>
      have h := ih (m := Memory.put m a b) (a + 1) i (Memory.put_wf _ _ hm) (by simpa using hi)
      rw [Memory.write, show a + (i + 1) = a + 1 + i by omega, h]
      rfl

end Sys2Proof.Machine
end

