-- ==== Sys2Proof/Laws/HeadMemory.lean ====
section
/-!
SUPPORT. Every operation of the head that touches memory keeps its canonical form.
-/

namespace Sys2Proof.Machine

open Sys2Proof

@[simp] theorem State.modPan_mem (s : State) (f : Pan → Pan) : (s.modPan f).mem = s.mem := rfl
@[simp] theorem State.panCount_mem (s : State) (i n : Nat) : (s.panCount i n).mem = s.mem := rfl

/-- A fold of steps that each keep the canonical form keeps it. -/
theorem foldl_mem_wf {α : Type} (f : State → α → State) (hf : ∀ s a, Memory.wf s.mem = true → Memory.wf (f s a).mem = true)
    (l : List α) (s : State) (h : Memory.wf s.mem = true) : Memory.wf (l.foldl f s).mem = true := by
  induction l generalizing s with
  | nil => exact h
  | cons a l ih => exact ih _ (hf s a h)

theorem State.evict_wf (s : State) (slot : Option (Nat × Nat × Nat)) (h : Memory.wf s.mem = true) :
    Memory.wf (s.evict slot).mem = true := by
  unfold State.evict
  split
  · exact h
  · split
    · exact h
    · dsimp only
      split
      · exact Memory.write_wf _ _ h
      · exact h

theorem State.prefetch_wf (s : State) (cls stream a line : Nat) (h : Memory.wf s.mem = true) :
    Memory.wf (s.prefetch cls stream a line).mem = true := by
  unfold State.prefetch
  dsimp only
  split
  · exact h
  · split
    · exact h
    · exact State.evict_wf _ _ h

theorem State.advance_wf (s : State) (cls stream a : Nat) (h : Memory.wf s.mem = true) :
    Memory.wf (s.advance cls stream a).mem = true := by
  unfold State.advance
  dsimp only
  split
  · exact h
  · split
    · exact h
    · refine foldl_mem_wf _ (fun s i hs => ?_) _ _ h
      split
      · exact hs
      · exact State.prefetch_wf _ _ _ _ _ hs

theorem State.store_wf (s : State) (a : Nat) (w : Option Bytes) (h : Memory.wf s.mem = true) : Memory.wf (s.store a w).mem = true := by
  unfold State.store
  split
  · exact h
  · exact Memory.write_wf _ _ h

theorem State.hit_wf (s : State) (l : Line) (cls stream a : Nat) (w : Option Bytes) (h : Memory.wf s.mem = true) :
    Memory.wf (s.hit l cls stream a w).mem = true := by
  unfold State.hit
  dsimp only
  split <;> split <;>
    first
      | exact State.advance_wf _ _ _ _ (State.store_wf _ _ _ h)
      | exact State.advance_wf _ _ _ _ h
      | exact State.store_wf _ _ _ h
      | exact h

theorem State.miss_wf (s : State) (cls stream a : Nat) (w : Option Bytes) (h : Memory.wf s.mem = true) :
    Memory.wf (s.miss cls stream a w).mem = true := State.advance_wf _ _ _ _ (State.evict_wf _ _ h)

/-- PANTRY_ACCESS keeps the canonical form. -/
theorem State.access_wf (s : State) (cls stream a : Nat) (w : Option Bytes) (h : Memory.wf s.mem = true) :
    Memory.wf (s.access cls stream a w).mem = true := by
  unfold State.access
  dsimp only
  split
  · exact h
  · split
    · exact h
    · split
      · exact State.store_wf _ _ _ h
      · split
        · split
          · exact h
          · exact State.hit_wf _ _ _ _ _ _ h
        · split
          · exact h
          · split
            · exact State.store_wf _ _ _ h
            · exact State.miss_wf _ _ _ _ _ h

theorem State.land_wf (s : State) (f : Fill) (h : Memory.wf s.mem = true) : Memory.wf (s.land f).mem = true := by
  unfold State.land
  dsimp only
  split
  · split
    · exact h
    · exact Memory.write_wf _ _ h
  · split
    · split
      · exact Memory.write_wf _ _ h
      · exact h
    · exact h

/-- PANTRY_LINE_FILL keeps the canonical form. -/
theorem State.lineFill_wf (s : State) (a : Nat) (h : Memory.wf s.mem = true) : Memory.wf (s.lineFill a).mem = true := by
  unfold State.lineFill
  split
  · exact h
  · split
    · exact h
    · exact foldl_mem_wf _ (fun s x hs => State.access_wf _ _ _ _ _ hs) _ _ (State.land_wf s _ h)

/-- A DMA access keeps the canonical form. -/
theorem State.dma_wf (s : State) (a len : Nat) (w : Option Bytes) (h : Memory.wf s.mem = true) : Memory.wf (s.dma a len w).mem = true := by
  unfold State.dma
  cases w <;> dsimp only
  · split
    · exact h
    · split
      · exact h
      · split <;> exact h
  · split
    · exact h
    · split
      · exact h
      · exact Memory.write_wf _ _ h

theorem State.drained_wf (s : State) (h : Memory.wf s.mem = true) : Memory.wf s.drained.mem = true := by
  unfold State.drained
  split
  · exact h
  · exact Memory.writeBack_wf _ h

theorem State.newSlices_wf (s : State) (banks : List Nat) (h : Memory.wf s.mem = true) : Memory.wf (s.newSlices banks).mem = true := by
  unfold State.newSlices
  dsimp only
  split <;> exact Memory.writeBack_wf _ (Memory.writeBack_wf _ h)

theorem keptMemory_wf (target : Nat) {m : Memory} (h : Memory.wf m = true) : Memory.wf (keptMemory target m) = true := by
  unfold keptMemory
  split
  · exact Memory.keep_wf _ h
  · rfl

theorem State.jobEnd_wf (s : State) (r : JobResult) (h : Memory.wf s.mem = true) : Memory.wf (s.jobEnd r).mem = true := by
  unfold State.jobEnd
  dsimp only
  split
  · exact h
  · split
    · exact h
    · have hw : Memory.wf (s.jobWrite r.output).mem = true := State.dma_wf _ _ _ _ h
      split
      · exact hw
      · split <;> exact hw

theorem State.jobStart_wf (s : State) (h : Memory.wf s.mem = true) : Memory.wf s.jobStart.mem = true := by
  unfold State.jobStart
  dsimp only
  split
  · exact h
  · split
    · exact h
    · split
      · exact h
      · split
        · split
          · exact State.jobEnd_wf _ _ h
          · exact h
        · split
          · exact h
          · exact State.dma_wf _ _ _ _ h

theorem State.chanRunEnd_wf (s : State) (n : Nat) (h : Memory.wf s.mem = true) : Memory.wf (s.chanRunEnd n).mem = true := by
  unfold State.chanRunEnd
  dsimp only
  repeat' split
  all_goals first | exact h | exact State.dma_wf _ _ _ _ h

theorem State.quoteDone_wf (s : State) (sig : Bytes) (h : Memory.wf s.mem = true) : Memory.wf (s.quoteDone sig).mem = true := by
  unfold State.quoteDone
  extract_lets hd q s2
  have key : Memory.wf s2.mem = true := State.dma_wf s hd.fwu.attDst q.length (some q) h
  clear_value s2 q hd
  split
  · exact h
  · split
    · exact h
    · exact key

theorem State.tsiLoad_wf (s : State) (h : Memory.wf s.mem = true) : Memory.wf s.tsiLoad.mem = true := by
  unfold State.tsiLoad
  dsimp only
  split <;> exact h

theorem State.imageApply_wf (s : State) (h : Memory.wf s.mem = true) : Memory.wf s.imageApply.mem = true := by
  unfold State.imageApply
  dsimp only
  split
  · exact h
  · exact State.newSlices_wf _ _ h

theorem State.flushIfWritten_wf (s : State) (h : Memory.wf s.mem = true) : Memory.wf s.flushIfWritten.mem = true := by
  unfold State.flushIfWritten
  split
  · show Memory.wf (keptMemory 4 s.mem) = true
    exact keptMemory_wf _ h
  · exact h

theorem State.regLoads_wf (s : State) (a : Nat) (v : Word) (h : Memory.wf s.mem = true) : Memory.wf (s.regLoads a v).mem = true := by
  unfold State.regLoads
  split
  · exact State.tsiLoad_wf _ h
  · split
    · exact State.jobStart_wf _ h
    · exact h

end Sys2Proof.Machine
end

