-- ==== Sys2Proof/Laws/Host.lean ====
section
/-!
SUPPORT. What a completion does (03_host_queues_and_ordering.md R54, R74), and what a ready command runs.
-/

namespace Sys2Proof.Machine

open Sys2Proof

theorem when_eq (h : Head) (b : Bool) (f : Head → Head) : h.when b f = if b then f h else h := rfl

/-- Freed slots change the queues alone. -/
theorem freeSlots_frame (h : Head) (c q n : Nat) : h.freeSlots c q n = { h with hqe := (h.freeSlots c q n).hqe } := by
  unfold Head.freeSlots
  split <;> rfl

theorem freeSlots_ctrls (h : Head) (c q n : Nat) : (h.freeSlots c q n).hqe.ctrls = h.hqe.ctrls := by
  unfold Head.freeSlots
  split <;> rfl

/-- A posted completion changes the queues and the outputs alone. -/
theorem post_frame (h : Head) (c : Ctx) (st : Status) (d : Nat) :
    h.post c st d = { h with hqe := (h.post c st d).hqe, out := (h.post c st d).out } := by
  unfold Head.post
  split
  · rfl
  · simp only [when_eq]
    split <;> rfl

theorem post_ctrls (h : Head) (c : Ctx) (st : Status) (d : Nat) : (h.post c st d).hqe.ctrls = h.hqe.ctrls := by
  unfold Head.post
  split
  · rfl
  · simp only [when_eq]
    split <;> rfl

theorem post_out (h : Head) (c : Ctx) (st : Status) (d : Nat) (hs : c.silent = false) :
    (h.post c st d).out = .completion c.cntlid c.qid c.cap.cid st d (decide (st.sct = 2))
      (((h.hqe.qpair? c.cntlid c.qid).map (·.sqhd)).getD 0) :: h.out := by
  unfold Head.post
  rw [hs]
  simp only [when_eq]
  split
  · contradiction
  · split <;> rfl

/-- After the posting a completion changes the queues alone, and no controller. -/
theorem complete_post (h : Head) (c : Ctx) (st : Status) (d : Nat) :
    ∃ q, h.complete c st d = { h.post c st d with hqe := q } ∧ q.ctrls = (h.post c st d).hqe.ctrls := by
  unfold Head.complete
  generalize h.post c st d = p
  simp only [when_eq]
  cases c.admin <;> cases c.holdsSlot
  · exact ⟨_, rfl, rfl⟩
  · exact ⟨_, freeSlots_frame _ _ _ _, freeSlots_ctrls _ _ _ _⟩
  · exact ⟨_, rfl, rfl⟩
  · exact ⟨_, freeSlots_frame _ _ _ _, freeSlots_ctrls _ _ _ _⟩

/-- A completion changes the queues and the outputs alone. -/
theorem complete_frame (h : Head) (c : Ctx) (st : Status) (d : Nat) :
    h.complete c st d = { h with hqe := (h.complete c st d).hqe, out := (h.complete c st d).out } := by
  obtain ⟨q, e, _⟩ := complete_post h c st d
  rw [e, post_frame]

/-- The completion of a command that is not silent is the newest output, after what was there. -/
theorem complete_out (h : Head) (c : Ctx) (st : Status) (d : Nat) (hs : c.silent = false) :
    ∃ sq, (h.complete c st d).out = .completion c.cntlid c.qid c.cap.cid st d (decide (st.sct = 2)) sq :: h.out := by
  obtain ⟨q, e, _⟩ := complete_post h c st d
  rw [e]
  exact ⟨_, post_out h c st d hs⟩

theorem complete_ctrls (h : Head) (c : Ctx) (st : Status) (d : Nat) : (h.complete c st d).hqe.ctrls = h.hqe.ctrls := by
  obtain ⟨q, e, hq⟩ := complete_post h c st d
  rw [e]
  exact hq.trans (post_ctrls h c st d)

/-- A command past the fence of the opcode that its row names is run. -/
theorem ready_of_holds {s : State} {n op : Nat} {c : Ctx} {a : Bool} (hr : s.holdsReady n c a op) (f : Ctx → Head) :
    s.head.ready n a op f = f c := by
  obtain ⟨h1, h2, h3, h4, h5⟩ := hr
  unfold Head.ready Head.withCtx
  rw [h1]
  simp only [h2, h3, h4]
  cases a <;> simp_all

end Sys2Proof.Machine
end

