-- ==== Sys2Proof/WellFormed.lean ====
section
/-!
DEFINITION. The limits that the spec's tables set on the operands of a command: a command outside them names nothing of the
head. The meanings do not rest on it; it says which terms stand for commands that can occur.
-/

namespace Sys2Proof

/-- A control-space address: word aligned, below 2^24 (00_scope.md R6). -/
def controlAddr (a : Nat) : Bool := decide (a % 4 = 0 ∧ a < 2 ^ 24)

/-- A capsule's narrow fields (R50, R61). -/
def Capsule.wf (c : Capsule) : Bool := decide (c.cid < 2 ^ 16 ∧ c.opcode < 256 ∧ c.nsid < 2 ^ 32)

/-- The operands of a command stay within the spec's tables. -/
def Instr.wf : Instr → Bool
  | .registerWrite core a _ => decide (core < 16) && controlAddr a
  | .unmappedAccess a _ => controlAddr a
  | .capsuleAccept n q c => decide (1 ≤ n ∧ n ≤ 1024 ∧ q ≤ 1023) && c.wf
  | .inCapsuleSlotFreed p => decide (p < 8)
  | .connect c => decide (c.port < 8 ∧ c.sqsize < 2 ^ 16)
  | .zEngineBoundary site _ => decide (site < 36)
  | .outputStallRelease site => decide (site < 36)
  | .boothMicrocodeLoaded site => decide (site < 36)
  | .dgtClaim core ch | .dgtRelease core ch | .dgtBegin core ch | .dgtRestore core ch | .dgtGo core ch
  | .dgtSuspend core ch | .dgtSqueeze core ch => decide (core < 16 ∧ ch < 4)
  | .dgtLastWord core ch _ => decide (core < 16 ∧ ch < 4)
  | .dgtExpectWrite core ch k _ => decide (core < 16 ∧ ch < 4 ∧ k < 16)
  | .dgtRunEnd ch => decide (ch < 4)
  | .landingWriteRequest r => decide (r.row < 32 ∧ r.block.length = 4096)
  | .moduleStatusReport s m _ => decide (s < 128 ∧ m < 48)
  | .moduleInserted s m => decide (s < 128 ∧ m < 48)
  | .backendPortLost p _ => decide (p < 16)
  | .backendPortLinkUp p _ _ => decide (p < 16)
  | .hostPortLinkDown p => decide (p < 8)
  | .shelfBusStuck b _ => decide (b < 4)
  | .ringDemandWake r => decide (r < 4)
  | .ringRegate r => decide (r < 4)
  | .railOutOfRegulation r => decide (r < 6)
  | .brkClaim core => decide (core < 16)
  | .brkDone core n => decide (core < 16 ∧ n < 1152)
  | .brkRaise n => decide (n < 1152)
  | .atcReadSlot n => decide (n < 12288)
  | .domainFirstAccess d => decide (d < 162)
  | .domainNotReady d => decide (d < 162)
  | .sramEccError b _ _ => decide (b < 64)
  | .hbmEccError s p _ _ => decide (s < 4 ∧ p < 32)
  | .ddrEccError c _ _ => decide (c < 8)
  | .hbmSpareCopyDone s => decide (s < 4)
  | .faultCount c _ _ => decide (c < 16)
  | .faultAgeOut c _ => decide (c < 16)
  | _ => true

end Sys2Proof
end

