-- ==== Sys2Proof/Tests/Slice0.lean ====
section
/-!
SUPPORT. Own tests: ill-formed terms are refused, worked examples of the spec, and a witness for the hypotheses of each statement.
-/

namespace Sys2Proof.Tests

open Sys2Proof Sys2Proof.Machine

/-- A state with a given head, no memory written and nothing waiting. -/
def onHead (h : Head) : State := { head := h }

/-- A head whose control cores run. -/
def awake : Head := { fwu := { running := true } }
/-- A head with its DDR5 memory. -/
def memHead0 : Head := { memc := { dpc := 1, dimmGib := 64 } }

/-! ### Terms that are not well formed, one for each check -/

theorem test_illFormed_registers : (Instr.registerWrite 16 0 0).wf = false ∧ (Instr.registerWrite 0 2 0).wf = false ∧
    (Instr.registerWrite 0 (2 ^ 24) 0).wf = false ∧ (Instr.unmappedAccess 1 true).wf = false ∧ (Instr.registerWrite 15 0x1A0000 0).wf = true := by decide
theorem test_illFormed_host : (Instr.capsuleAccept 0 0 { cid := 0, opcode := 0, nsid := 0 }).wf = false ∧
    (Instr.capsuleAccept 1 1024 { cid := 0, opcode := 0, nsid := 0 }).wf = false ∧
    (Instr.capsuleAccept 1 1 { cid := 65536, opcode := 0, nsid := 0 }).wf = false ∧ (Instr.inCapsuleSlotFreed 8).wf = false ∧
    (Instr.hostPortLinkDown 8).wf = false := by decide
theorem test_illFormed_sites : (Instr.zEngineBoundary 36 true).wf = false ∧ (Instr.outputStallRelease 36).wf = false ∧
    (Instr.boothMicrocodeLoaded 36).wf = false ∧ (Instr.ringDemandWake 4).wf = false ∧ (Instr.ringRegate 4).wf = false := by decide
theorem test_illFormed_digest : (Instr.dgtClaim 16 0).wf = false ∧ (Instr.dgtGo 0 4).wf = false ∧ (Instr.dgtLastWord 0 4 0).wf = false ∧
    (Instr.dgtExpectWrite 0 0 16 0).wf = false ∧ (Instr.dgtRunEnd 4).wf = false := by decide
theorem test_illFormed_backend : (Instr.moduleInserted 128 0).wf = false ∧ (Instr.moduleStatusReport 0 48 .late).wf = false ∧
    (Instr.backendPortLost 16 true).wf = false ∧ (Instr.backendPortLinkUp 16 8 6).wf = false ∧ (Instr.shelfBusStuck 4 true).wf = false ∧
    (Instr.landingWriteRequest { troupe := .a, stripe := 0, row := 32, data := 0, block := [], guard := 0 }).wf = false := by decide
theorem test_illFormed_faults : (Instr.brkClaim 16).wf = false ∧ (Instr.brkDone 0 1152).wf = false ∧ (Instr.brkRaise 1152).wf = false ∧
    (Instr.atcReadSlot 12288).wf = false ∧ (Instr.faultCount 16 0 false).wf = false ∧ (Instr.faultAgeOut 16 0).wf = false ∧
    (Instr.railOutOfRegulation 6).wf = false := by decide
theorem test_illFormed_memory : (Instr.domainFirstAccess 162).wf = false ∧ (Instr.domainNotReady 162).wf = false ∧
    (Instr.ddrEccError 8 0 true).wf = false ∧ (Instr.hbmSpareCopyDone 4).wf = false := by decide

/-! ### Worked examples of the spec -/

/-- The default mask of the chunker with M_S and M_L (04_chunking_and_dedup.md R82). -/
theorem test_chunker_masks : maskS 0xB5D6A58000000000 = 0xB5D6A58000030000 ∧ maskL 0xB5D6A58000000000 = 0xB5D6A40000000000 := by decide +kernel
/-- The example of R90: bank, the two buckets and the tag. -/
theorem test_larder_buckets : larderBank [0x3A, 0x91, 0x07, 0xC4, 0x5E, 0xB2, 0x6D, 0x11, 0x9C, 0x03] = 4 ∧
    larderI1 [0x3A, 0x91, 0x07, 0xC4, 0x5E, 0xB2, 0x6D, 0x11, 0x9C, 0x03] = 0x5B25E ∧
    larderTag [0x3A, 0x91, 0x07, 0xC4, 0x5E, 0xB2, 0x6D, 0x11, 0x9C, 0x03] = 0x039C ∧ larderXor 0x5B25E 0x039C = 0x6FF66 := by decide
/-- The parity of R168's example, and the recovery of D_1 from P. -/
theorem test_parity_example : parityPQ 1 [[0x3C], [0xA7], [0x15], [0xF0], [0x82], [0x6B]] = ([0x97], [0xC1]) := by decide +kernel
theorem test_parity_recovers : rebuildData 1 [some [0x3C], none, some [0x15], some [0xF0], some [0x82], some [0x6B]] (some [0x97]) none =
    some [[0x3C], [0xA7], [0x15], [0xF0], [0x82], [0x6B]] := by decide +kernel
/-- The IV bytes of the example after R132: site 12, epoch 3, counter 5,242,880. -/
theorem test_iv_example : ({} : Head).iv 12 3 5242880 = [0x03, 0x00, 0x00, 0x18, 0x00, 0x00, 0x50, 0x00, 0x00, 0x00, 0x00, 0x00] := by
  simp only [Head.iv]; decide +kernel
/-- The hold-up example of R309 and R310: 8,858,370,048 bytes at 150 GB/s need 4.41 J, triggered at 12.10 V; 48 V store 113.4 J in 100 mF. -/
theorem test_holdup_example : 70 * 4 + 70 * 1000 * (8589934592 + 268435456) / 150000000000 = 4413 ∧
    isqrt 24 (36000000 + 2 * 4413 * 125 * 10000 / 100) = 12096 ∧ 100 * (48000 * 48000 - 36000000) / 2000000 = 113400 := by decide
/-- Standard test vectors: XXH64 and SHA-256 of "abc". -/
theorem test_xxh64_abc : xxh64 [0x61, 0x62, 0x63] = 0x44BC2CF5AD770999 := by decide +kernel
theorem test_sha256_abc : (sha256 [0x61, 0x62, 0x63]).take 4 = [0xBA, 0x78, 0x16, 0xBF] := by decide +kernel
/-- A W1C bit written 1 clears, a bit of another type keeps its value (00_scope.md R7). -/
theorem test_barker_example : ((onHead awake).head.raise 940).src 940 = ((onHead awake).head.src 940).raised := by decide +kernel

/-! ### BarkerSourceServiceCycle -/

def pending700 : Head := { brk := [{ src := 700, pending := true }], regs := [(Adr.BRK_CORE_CFG 0, 0x8)] }
theorem test_wit_claim : pending700.topSource (pending700.claimable 0) = some 700 := by decide
theorem test_wit_done : ((onHead { brk := [{ src := 700, pending := true, inService := true }] }).head.src 700).inService = true := by decide

/-! ### DoorbellRaise -/

theorem test_wit_doorbell : (onHead {}).head.srcSet 1056 = 0 ∧
    (onHead { regs := [(bankKey 1056 Adr.BRK_SRC_CFG, 0x11F0F)] }).head.srcSet 1056 ≠ 0 ∧
    (onHead {}).head.atc.queue.length < 256 := by decide

/-! ### CapsuleTakesArrivalNumberAndSlot -/

def qp1 : QPair := { cntlid := 1, qid := 1, port := 0, transport := .rdma, size := 8 }
def capRead : Capsule := { cid := 3, opcode := 2, nsid := 1 }
theorem test_wit_capsule : (onHead { hqe := { qpairs := [qp1] } }).head.portsOpen = true ∧
    (onHead { hqe := { qpairs := [qp1] } }).head.hqe.qpair? 1 1 = some qp1 ∧ qp1.entries.length < qp1.size ∧ capRead.inCapsule = none ∧
    ({ capRead with inCapsule := some [0] } : Capsule).inCapsule.isSome = true ∧
    (onHead { hqe := { qpairs := [qp1] } }).head.slotFree qp1 = true ∧
    (onHead { hqe := { qpairs := [qp1] } }).head.slotFree { qp1 with slots := 8 } = false := by decide
theorem test_wit_slotFreed : (onHead { hqe := { qpairs := [{ qp1 with heldBack := [capRead] }] } }).head.heldQueue 0 =
      some { qp1 with heldBack := [capRead] } ∧
    (onHead { hqe := { qpairs := [{ qp1 with heldBack := [capRead] }] } }).head.hqe.qpair? 1 1 = some { qp1 with heldBack := [capRead] } := by
  decide

/-! ### FetchContextAndFence -/

def ctx0 : Ctx := { id := 0, cntlid := 1, qid := 1, cap := capRead, arrival := 1, admin := false, phase := .fence, at_ := 0 }
theorem test_wit_fetch :
    (onHead { hqe := { qpairs := [{ qp1 with qid := 0, entries := [⟨capRead, 1⟩] }] } }).head.pick =
      some ({ qp1 with qid := 0, entries := [⟨capRead, 1⟩] }, ⟨capRead, 1⟩) ∧
    (onHead { hqe := { qpairs := [{ qp1 with qid := 0, entries := [⟨capRead, 1⟩] }] } }).head.ctxFree true = true := by decide
theorem test_wit_ctxFreed : (onHead { hqe := { ctxs := [{ ctx0 with phase := .done }] } }).head.hqe.ctx? 0 = some { ctx0 with phase := .done } := by
  decide
def ctxFlush : Ctx := { ctx0 with cap := { capRead with opcode := 0 } }
def flushNs : Head :=
  { tsi := { sections := { domain := some [⟨0, 1, 1, 0, 0, 0, 0, 0, 0⟩] } }
    stg := { unsealed := true }
    pair := { a := { role := 1, state := 2 } }
    hqe := { namespaces := [⟨1, .a, 0, 8, false⟩], ctxs := [ctxFlush] } }
theorem test_wit_fence : flushNs.hqe.ctx? 0 = some ctxFlush ∧ ctxFlush.phase = .fence ∧ flushNs.mustWait ctxFlush = false ∧
    flushNs.ioRefusal ctxFlush.cap (checkRanges ctxFlush.cap) = none := by decide

/-! ### ConnectionsEndAndTheirQueuesGo -/

theorem test_wit_disconnect : (onHead { hqe := { qpairs := [qp1, { qp1 with qid := 0 }] } }).head.hqe.qpair? 1 1 = some qp1 ∧
    (onHead { hqe := { qpairs := [qp1, { qp1 with qid := 0 }] } }).head.hqe.qpair? 1 0 = some { qp1 with qid := 0 } := by decide
theorem test_wit_keepAlive : (onHead { now := 300000, hqe := { ctrls := [{ cntlid := 1, kato := 150 }] } }).head.hqe.ctrl? 1 =
      some { cntlid := 1, kato := 150 } ∧ 0 + ((150 + 99) / 100 * 100 + 100) * 1000 ≤ (onHead { now := 300000 }).head.now := by decide

/-! ### ConnectCreatesControllerOrQueue -/

def conn : ConnectCmd := { port := 0, transport := .rdma, qid := 0, cntlid := 0, sqsize := 31, kato := 100, discovery := false, hostNqn := [1], cid := 9 }
theorem test_wit_connect : (onHead {}).head.portsOpen = true ∧ conn.qid = 0 ∧ conn.sqsize ≤ 31 ∧ conn.kato ≠ 0 ∧
    (onHead {}).head.hqe.qpairs.length < 4096 := by decide
theorem test_wit_connect_free : (onHead {}).head.freeCntlids ≠ [] := by
  have hm : (1 : Nat) ∈ (onHead {}).head.freeCntlids :=
    List.mem_filter.2 ⟨List.mem_map.2 ⟨0, List.mem_range.2 (Nat.succ_pos _), rfl⟩, rfl⟩
  intro h
  rw [h] at hm
  exact absurd hm List.not_mem_nil
theorem test_wit_connect_io : (onHead { hqe := { ctrls := [{ cntlid := 1 }] } }).head.hqe.ctrl? 1 = some { cntlid := 1 } ∧
    1 ≤ (onHead {}).head.ioqs { cntlid := 1 } ∧ (onHead {}).head.hqe.qpair? 1 1 = none := by decide

/-! ### PropertiesAndControllerReset -/

def ctxAdmin (op nsid : Nat) (dw11 dw12 : Word) : Ctx :=
  { id := 0, cntlid := 1, qid := 0, cap := { cid := 3, opcode := op, nsid := nsid, dw11 := dw11, dw12 := dw12 }, arrival := 1,
    admin := true, phase := .ready, at_ := 0 }
def adminHead (c : Ctx) : Head := { hqe := { ctrls := [{ cntlid := 1 }], ctxs := [c] } }
theorem test_wit_propertySet : (adminHead (ctxAdmin 0x7F 0 0x14 1)).hqe.ctx? 0 = some (ctxAdmin 0x7F 0 0x14 1) ∧
    (adminHead (ctxAdmin 0x7F 0 0x14 1)).hqe.ctrl? 1 = some { cntlid := 1 } ∧ ({ cntlid := 1 } : Ctrl).cc.getLsbD 0 = false ∧
    (1#32).getLsbD 0 = true ∧ bits 15 14 (1#32).toNat = 0 := by decide
theorem test_wit_propertyGet : (adminHead (ctxAdmin 0x7F 4 0x1C 0)).hqe.ctx? 0 = some (ctxAdmin 0x7F 4 0x1C 0) := by decide
theorem test_wit_resetDone : (onHead { hqe := { ctrls := [{ cntlid := 1, resetting := some true }] } }).head.hqe.ctrl? 1 =
    some { cntlid := 1, resetting := some true } := by decide

/-! ### FlushWaitsForOlderWriters -/

def flushReady : Head := { hqe := { ctxs := [{ ctxFlush with phase := .ready }] } }
theorem test_wit_flush : (onHead flushReady).holdsReady 0 { ctxFlush with phase := .ready } false opFlush ∧
    flushReady.olderWriters { ctxFlush with phase := .ready } = [] := by
  refine ⟨⟨rfl, rfl, rfl, rfl, Or.inr (by decide)⟩, by decide⟩
def ctxWz : Ctx := { id := 1, cntlid := 1, qid := 1, cap := { cid := 4, opcode := 8, nsid := 1 }, arrival := 1, admin := false, phase := .waitAck, at_ := 0 }
theorem test_wit_flush_waits : ({ flushReady with hqe := { ctxs := [{ ctxFlush with phase := .ready, arrival := 2 }, ctxWz] } } : Head).olderWriters
    { ctxFlush with phase := .ready, arrival := 2 } ≠ [] := by decide
theorem test_wit_flushComplete : ({ hqe := { ctxs := [{ ctxFlush with phase := .running, waits := [7] }] } } : Head).unended 7 = false := by decide

/-! ### ReadAndCompareRunOnStoredChunks -/

def ctxRead : Ctx := { ctx0 with phase := .ready }
theorem test_wit_read : (onHead { hqe := { ctxs := [ctxRead] } }).holdsReady 0 ctxRead false opRead ∧
    (onHead { hqe := { ctxs := [ctxRead] } }).head.darkShelves [] = [] ∧ (onHead {}).head.startAll 0 [] = some {} := by
  refine ⟨⟨rfl, rfl, rfl, rfl, Or.inr (by decide)⟩, rfl, rfl⟩
def coldChunk : Head :=
  { hqe := { ctxs := [ctxRead] }
    dp := { extents := [{ nsid := 1, start := 0, len := 4096, chunk := some 1, offset := 0, apptag := 0 }]
            chunks := [{ uid := 1, troupe := .a, domain := 0, fp := [], stripe := 5 }] }
    pty := { stripes := [{ number := 5, troupe := .a, geom := 0, k := 4, shelf := 3, group := 0, unit := 0, ring := 0, phase := .committed }] }
    shf := { shelves := [{ shelf := 3, state := 1 }] } }
theorem test_wit_read_dark : (onHead coldChunk).holdsReady 0 ctxRead false opRead ∧ coldChunk.darkShelves
    (coldChunk.dp.withHistory (coldChunk.dp.chunksOf 1 0 1)) = [3] := by
  refine ⟨⟨rfl, rfl, rfl, rfl, Or.inr (by decide)⟩, by decide⟩
theorem test_wit_compare : (onHead { hqe := { ctxs := [{ ctxRead with cap := { capRead with opcode := 5 } }] } }).holdsReady 0
    { ctxRead with cap := { capRead with opcode := 5 } } false opCompare := ⟨rfl, rfl, rfl, rfl, Or.inr (by decide)⟩

/-! ### WritersDispatchAndMapZeroes -/

def ioHead (op : Nat) (dw11 : Word) (d : Option Bytes) : Head :=
  { pair := { a := { role := 1, state := 2 } }
    hqe := { namespaces := [⟨1, .a, 0, 8, false⟩], ctxs := [{ ctxRead with cap := { capRead with opcode := op, dw11 := dw11, inCapsule := d } }] } }
def ioCtx (op : Nat) (dw11 : Word) (d : Option Bytes) : Ctx := { ctxRead with cap := { capRead with opcode := op, dw11 := dw11, inCapsule := d } }
theorem test_wit_writeZeroes : (onHead (ioHead 8 0 none)).holdsReady 0 (ioCtx 8 0 none) false opWriteZeroes ∧
    (ioHead 8 0 none).hqe.ns? 1 = some ⟨1, .a, 0, 8, false⟩ ∧ (ioHead 8 0 none).noSpace .a 0 = false ∧ (ioHead 8 0 none).mayIssue .a = true := by
  refine ⟨⟨rfl, rfl, rfl, rfl, Or.inr (by decide)⟩, by decide, by decide, by decide⟩
theorem test_wit_dsm : (onHead (ioHead 9 4 (some []))).holdsReady 0 (ioCtx 9 4 (some [])) false opDsm ∧
    lengthRefuses ⟨1, .a, 0, 8, false⟩ (ioCtx 9 4 (some [])).cap [] = none ∧
    (ioHead 9 4 (some [])).mustWait (ioCtx 9 4 (some [])) = false := by
  refine ⟨⟨rfl, rfl, rfl, rfl, Or.inr (by decide)⟩, by decide, by decide⟩
def writeHead : Head := { ioHead 1 0 none with
  fuse := { grade := 3 }
  tsi := { microcode := [0], sections := { site := some [⟨1, 0, 15⟩], dring := some [1], domain := some [⟨0, 1, 1, 0, 0, 0, 0, 0, 0⟩] } } }
theorem test_wit_write : (onHead writeHead).holdsReady 0 (ioCtx 1 0 none) false opWrite ∧ writeHead.noSpace .a 0 = false ∧
    (writeHead.dispatchSite (ioCtx 1 0 none) ⟨1, .a, 0, 8, false⟩).2 = some 0 := by
  refine ⟨⟨rfl, rfl, rfl, rfl, Or.inr (by decide)⟩, by decide, by decide⟩

/-! ### WriteBurstsAreRequestedAndTaken -/

def runCtx : Ctx := { ioCtx 1 0 none with phase := .running, site := 0, grant := none }
theorem test_wit_burst : ({ writeHead with hqe := { writeHead.hqe with ctxs := [runCtx] } } : Head).takesBursts 0 = true ∧
    ({ writeHead with hqe := { writeHead.hqe with ctxs := [runCtx] } } : Head).burstRoom 0 = true ∧
    ({ writeHead with hqe := { writeHead.hqe with ctxs := [runCtx] } } : Head).paced = false ∧ runCtx.asked < runCtx.cap.required := by decide
theorem test_wit_arrival : (onHead { hqe := { ctxs := [{ runCtx with grant := some (0, 1) }], qpairs := [{ qp1 with transport := .tcp }] } }).head.hqe.ctx? 0 =
    some { runCtx with grant := some (0, [7#8].length) } ∧
    (onHead { hqe := { qpairs := [{ qp1 with transport := .tcp }] } }).head.hqe.qpair? 1 1 = some { qp1 with transport := .tcp } := by decide

/-! ### StageInHoldsAndRelease -/

def stageHead (op : Nat) : Head := { hqe := { ctxs := [ioCtx op 0 none] } }
theorem test_wit_stageIn : (onHead (stageHead opStageIn)).holdsReady 0 (ioCtx opStageIn 0 none) false opStageIn ∧
    (stageHead opStageIn).rangeShelves (ioCtx opStageIn 0 none) true = [] := by
  refine ⟨⟨rfl, rfl, rfl, rfl, Or.inr (by decide)⟩, by decide⟩
def stageCold : Head := { coldChunk with
  pair := { coldChunk.pair with icl := true }
  hqe := { ctxs := [ioCtx opStageIn 0 none] }
  shf := { coldChunk.shf with policy := 0, figures := [(3, 0x00C80064, 0x1202, 0x07D00960)] }
  regs := [(bankKey 3 Adr.SHF_SHELF_CFG, 1)] }
theorem test_wit_stageIn_dark : stageCold.rangeShelves (ioCtx opStageIn 0 none) true = [3] ∧
    [3].filter (fun x => (stageCold.shf.shelf x).state != 3) = [3] := by decide
theorem test_wit_stageIn_room : 1 ≤ stageCold.openable ∧ stageCold.cannotWake = false := by decide
theorem test_wit_stageRelease : (onHead (stageHead opStageRelease)).holdsReady 0 (ioCtx opStageRelease 0 none) false opStageRelease :=
  ⟨rfl, rfl, rfl, rfl, Or.inr (by decide)⟩
theorem test_wit_stageComplete : (onHead { hqe := { ctxs := [{ ioCtx opStageIn 0 none with phase := .held }] } }).head.hqe.ctx? 0 =
    some { ioCtx opStageIn 0 none with phase := .held } := by decide

/-! ### AdminQueriesAnswer -/

def ctxAdm (op : Nat) (dw10 : Word) : Ctx :=
  { id := 0, cntlid := 1, qid := 0, cap := { cid := 3, opcode := op, nsid := 0, dw10 := dw10 }, arrival := 1, admin := true, phase := .ready, at_ := 0 }
def admHead (c : Ctx) : Head := { hqe := { ctrls := [{ cntlid := 1 }], ctxs := [c] } }
theorem test_wit_identify : (onHead (admHead (ctxAdm 0x06 1))).holdsCmd 0 (ctxAdm 0x06 1) true 0x06 ∧
    (admHead (ctxAdm 0x06 1)).hqe.ctrl? 1 = some { cntlid := 1 } ∧ (ctxAdm 0x06 1).cap.dw10.toNat % 256 = 1 :=
  ⟨⟨⟨rfl, rfl, rfl, rfl, Or.inl rfl⟩, rfl⟩, rfl, rfl⟩
theorem test_wit_identify_ns : (onHead (admHead (ctxAdm 0x06 0))).holdsCmd 0 (ctxAdm 0x06 0) true 0x06 ∧
    (admHead (ctxAdm 0x06 0)).hqe.ns? 0 = none ∧ (ctxAdm 0x06 0).cap.dw10.toNat % 256 = 0 :=
  ⟨⟨⟨rfl, rfl, rfl, rfl, Or.inl rfl⟩, rfl⟩, rfl, rfl⟩
theorem test_wit_getLog : (onHead (admHead (ctxAdm 0x02 0x8002))).holdsCmd 0 (ctxAdm 0x02 0x8002) true 0x02 ∧
    (ctxAdm 0x02 0x8002).cap.dw10.toNat % 256 = 2 ∧ (ctxAdm 0x02 0x8002).cap.dw10.getLsbD 15 = true ∧
    (admHead (ctxAdm 0x02 0x8002)).logPage { cntlid := 1 } 2 0 4 = some (((admHead (ctxAdm 0x02 0x8002)).stdLog { cntlid := 1 } 2 4).drop 0) ∧
    (admHead (ctxAdm 0x02 0x8002)).logPage { cntlid := 1 } 0x55 0 4 = none :=
  ⟨⟨⟨rfl, rfl, rfl, rfl, Or.inl rfl⟩, rfl⟩, by decide, by decide, rfl, rfl⟩
theorem test_wit_abort : (onHead (admHead (ctxAdm 0x08 0))).holdsCmd 0 (ctxAdm 0x08 0) true 0x08 ∧
    (onHead (admHead (ctxAdm 0x18 0))).holdsCmd 0 (ctxAdm 0x18 0) true 0x18 ∧
    (onHead (admHead (ctxAdm 0x7F 0))).holdsCmd 0 (ctxAdm 0x7F 0) true 0x7F :=
  ⟨⟨⟨rfl, rfl, rfl, rfl, Or.inl rfl⟩, rfl⟩, ⟨⟨rfl, rfl, rfl, rfl, Or.inl rfl⟩, rfl⟩, ⟨rfl, rfl, rfl, rfl, Or.inl rfl⟩, rfl⟩

/-! ### FeaturesAndEventRequests -/

theorem test_wit_setFeatures : (onHead (admHead (ctxAdm 0x09 0x0F))).holdsCmd 0 (ctxAdm 0x09 0x0F) true 0x09 ∧
    (onHead (admHead (ctxAdm 0x09 0xC1))).holdsCmd 0 (ctxAdm 0x09 0xC1) true 0x09 ∧
    (onHead (admHead (ctxAdm 0x09 0x07))).holdsCmd 0 (ctxAdm 0x09 0x07) true 0x09 :=
  ⟨⟨⟨rfl, rfl, rfl, rfl, Or.inl rfl⟩, rfl⟩, ⟨⟨rfl, rfl, rfl, rfl, Or.inl rfl⟩, rfl⟩, ⟨rfl, rfl, rfl, rfl, Or.inl rfl⟩, rfl⟩
theorem test_wit_getFeatures : (onHead (admHead (ctxAdm 0x0A 0xC1))).holdsCmd 0 (ctxAdm 0x0A 0xC1) true 0x0A ∧
    (onHead (admHead (ctxAdm 0x0A 0x20F))).holdsCmd 0 (ctxAdm 0x0A 0x20F) true 0x0A ∧
    (ctxAdm 0x0A 0x20F).cap.dw10.toNat / 256 % 8 = 2 ∧ (ctxAdm 0x0A 0x20F).cap.dw10.toNat % 256 = 0x0F :=
  ⟨⟨⟨rfl, rfl, rfl, rfl, Or.inl rfl⟩, rfl⟩, ⟨⟨rfl, rfl, rfl, rfl, Or.inl rfl⟩, rfl⟩, rfl, rfl⟩
theorem test_wit_aer : (onHead (admHead (ctxAdm 0x0C 0))).holdsCmd 0 (ctxAdm 0x0C 0) true 0x0C ∧
    (admHead (ctxAdm 0x0C 0)).hqe.ctrl? 1 = some { cntlid := 1 } ∧ ({ cntlid := 1 } : Ctrl).aers.length < 8 ∧ ({ cntlid := 1 } : Ctrl).events = [] :=
  ⟨⟨⟨rfl, rfl, rfl, rfl, Or.inl rfl⟩, rfl⟩, rfl, by decide, rfl⟩
theorem test_wit_aer_event (e : AsyncEvent) : ({ cntlid := 1, events := [e] } : Ctrl).events = e :: [] := rfl

/-! ### SelfTestsAndSanitize -/

theorem test_wit_selfTest : (onHead (admHead (ctxAdm 0x14 1))).holdsCmd 0 (ctxAdm 0x14 1) true 0x14 ∧
    (admHead (ctxAdm 0x14 1)).hqe.selfTest = none := ⟨⟨⟨rfl, rfl, rfl, rfl, Or.inl rfl⟩, rfl⟩, rfl⟩
theorem test_wit_suspend : (onHead { now := 3000, hqe := { ctxs := [ctxRead], selfTest := some { kind := 1, since := some 1000 } } }).head.hostIo = true ∧
    (0 + (3000 - 1000)) % 1000 = 0 := by decide
theorem test_wit_resume : (onHead { now := 20000, hqe := { lastIo := 9000, selfTest := some { kind := 1, ran := 4000, since := none } } }).head.hostIo = false ∧
    9000 + 10000 ≤ 20000 := by decide
theorem test_wit_sanitize : (onHead (admHead (ctxAdm 0x84 4))).holdsCmd 0 (ctxAdm 0x84 4) true 0x84 ∧
    (admHead (ctxAdm 0x84 4)).stg.armedUntil = none ∧ (admHead (ctxAdm 0x84 4)).stg.erasing = false ∧
    ({ admHead (ctxAdm 0x84 4) with stg := { armedUntil := some 5 } } : Head).now < 5 :=
  ⟨⟨⟨rfl, rfl, rfl, rfl, Or.inl rfl⟩, rfl⟩, rfl, rfl, by decide⟩

/-! ### FirmwareDownloadCommitSchedule -/

def ctxDl : Ctx := { ctxAdm 0x11 0x3FFF with cap := { (ctxAdm 0x11 0x3FFF).cap with dw11 := 0x4000, sgl := [65536] } }
theorem test_wit_download : (onHead (admHead ctxDl)).holdsCmd 0 ctxDl true 0x11 ∧ (ctxDl.cap.dw11.toNat * 4) % 65536 = 0 ∧
    (ctxDl.cap.dw10.toNat + 1) * 4 = 65536 ∧ ctxDl.cap.dw11.toNat * 4 + 65536 ≤ 2 ^ 27 ∧ 65536 ≤ ctxDl.cap.sgl.sum ∧
    ({} : Head).fwu.trial = false ∧ ({} : Head).fwu.schedule = none ∧ ({} : Head).fwu.bctl.trial = 0 :=
  ⟨⟨⟨rfl, rfl, rfl, rfl, Or.inl rfl⟩, rfl⟩, by decide, by decide, by decide, by decide, rfl, rfl, rfl⟩
theorem test_wit_download_bad : (onHead (admHead { ctxDl with cap := { ctxDl.cap with dw11 := 1 } })).holdsCmd 0
      { ctxDl with cap := { ctxDl.cap with dw11 := 1 } } true 0x11 ∧ (({ ctxDl.cap with dw11 := 1 } : Capsule).dw11.toNat * 4) % 65536 ≠ 0 :=
  ⟨⟨⟨rfl, rfl, rfl, rfl, Or.inl rfl⟩, rfl⟩, by decide⟩
theorem test_wit_commit_bad : (onHead (admHead (ctxAdm 0x10 0x18))).holdsCmd 0 (ctxAdm 0x10 0x18) true 0x10 ∧
    3 ≤ (ctxAdm 0x10 0x18).cap.dw10.toNat / 8 % 8 := ⟨⟨⟨rfl, rfl, rfl, rfl, Or.inl rfl⟩, rfl⟩, by decide⟩
def fwHead (c : Ctx) : Head := { admHead c with
  fwu := { bctlA := { ok := true, valid := 6#16, active := 1 } }, whl := { lock := 2 }, pair := { icl := true } }
theorem test_wit_commit : (ctxAdm 0x10 0x12).cap.dw10.toNat / 8 % 8 = 2 ∧ (ctxAdm 0x10 0x12).cap.dw10.toNat % 8 = 2 ∧
    (fwHead (ctxAdm 0x10 0x12)).fwu.bctl.isValid 2 = true ∧ (fwHead (ctxAdm 0x10 0x12)).fwu.bctl.active = 1 ∧
    (fwHead (ctxAdm 0x10 0x12)).updateRefused = none := by decide
def ctxSched : Ctx := { ctxAdm 0xC6 2 with cap := { (ctxAdm 0xC6 2).cap with dw11 := 11 } }
theorem test_wit_schedule : (onHead (fwHead ctxSched)).holdsCmd 0 ctxSched true 0xC6 ∧ ctxSched.cap.dw10.toNat % 4 = 2 ∧
    (fwHead ctxSched).whl.lock ≠ 0 ∧
    (fwHead ctxSched).ptpNs + 10000000000 ≤ (ctxSched.cap.dw11.toNat + ctxSched.cap.dw12.toNat * 2 ^ 32) * 1000000000 + ctxSched.cap.dw13.toNat ∧
    (fwHead ctxSched).fwu.schedule = none := ⟨⟨⟨rfl, rfl, rfl, rfl, Or.inl rfl⟩, rfl⟩, by decide, by decide, by decide, rfl⟩
theorem test_wit_schedule_peer : (fwHead ctxSched).peerAllows true = true := by decide

/-! ### VendorAdminCommands -/

theorem test_wit_parade : (onHead (admHead (ctxAdm 0xC0 0))).holdsCmd 0 (ctxAdm 0xC0 0) true 0xC0 ∧
    (onHead (admHead (ctxAdm 0xC5 0))).holdsCmd 0 (ctxAdm 0xC5 0) true 0xC5 ∧ ({} : Head).pair.icl = false ∧
    (onHead (admHead (ctxAdm 0xC3 0))).holdsCmd 0 (ctxAdm 0xC3 0) true 0xC3 ∧ (ctxAdm 0xC3 0).cap.sgl.sum < 64 :=
  ⟨⟨⟨rfl, rfl, rfl, rfl, Or.inl rfl⟩, rfl⟩, ⟨⟨rfl, rfl, rfl, rfl, Or.inl rfl⟩, rfl⟩, rfl, ⟨⟨rfl, rfl, rfl, rfl, Or.inl rfl⟩, rfl⟩, by decide⟩
def thawHead (f : Option Freeze) : Head := { hqe := { (admHead (ctxAdm 0xC1 1)).hqe with qpairs := [{ qp1 with frozen := f }] } }
theorem test_wit_thaw (f : Option Freeze) : (onHead (thawHead f)).holdsCmd 0 (ctxAdm 0xC1 1) true 0xC1 ∧
    (thawHead f).hqe.qpair? 1 1 = some { qp1 with frozen := f } := ⟨⟨⟨rfl, rfl, rfl, rfl, Or.inl rfl⟩, rfl⟩, rfl⟩
theorem test_wit_doze : (onHead (admHead (ctxAdm 0xC7 2))).holdsCmd 0 (ctxAdm 0xC7 2) true 0xC7 ∧ (ctxAdm 0xC7 2).cap.dw10.toNat % 8 = 2 ∧
    ({} : Head).stg.erasing = false ∧ ({} : Head).pwr.entry = none ∧ ({} : Head).pair.a.state ≤ 2 ∧ ({} : Head).pwr.state ≠ 2 :=
  ⟨⟨⟨rfl, rfl, rfl, rfl, Or.inl rfl⟩, rfl⟩, by decide, rfl, rfl, by decide, by decide⟩
def revHead : Head :=
  { pwr := { entry := some { target := 2, mask := 0, acceptedAt := 0, ctx := none } }, hqe := { ctxs := [{ ctx0 with powerHeld := true }] } }
theorem test_wit_reversal : (onHead revHead).head.heldCmds.any (·.id == 0) = true := by decide
theorem test_wit_giveToken : ∃ tok, tokenOp (fit 64 tok) = 7 := ⟨zeros 4 ++ [7] ++ zeros 59, by decide⟩

/-! ### FaultCountingAndAttic -/

theorem test_wit_faultCount : (onHead {}).head.partOut 2 5 = false ∧ ((onHead {}).head.flt.part 2 5).state ≤ 1 ∧
    (onHead {}).head.inWindow ((onHead {}).head.windowH 2) [] = [] ∧
    ((onHead {}).head.inWindow ((onHead {}).head.windowH 2) (((onHead {}).head.opNow :: ((onHead {}).head.flt.part 2 5).times).take 256)).length <
      (onHead {}).head.thresh 2 := by decide
def rec1 : AtticRec := { seq := 1, severity := 1, source := 5, code := 0 }
theorem test_wit_atticWrite : ({ queue := [rec1] } : Attic).queue = rec1 :: [] ∧ (({ queue := [] } : Attic).slotFor 1).isSome = true := by decide
theorem test_wit_setCommit : (onHead {}).head.fld Adr.ATC_SET_SEL 4 0 ≠ 0 ∧ (onHead ((({} : Head)).setFld Adr.ATC_SET_SEL 4 0 0)).head.fld Adr.ATC_SET_SEL 4 0 = 0 := by decide

/-! ### DedupDecidesByTheTables -/

def pc1 : PChunk := { id := 1, ctx := 0, site := 0, nsid := 1, domain := 1, troupe := .a, start := 0, data := [1], tail := false, forced := false, stage := .cut }
def fpHead : Head := { (({} : Head)).setFld Adr.LDR_CTRL 0 0 0 with dp := { pchunks := [pc1] } }
theorem test_wit_fingerprint : fpHead.dp.pchunk? 1 = some pc1 ∧ pc1.stage = .cut ∧ fpHead.verifyMode 1 ≠ 0 ∧
    fpHead.bit Adr.LDR_CTRL 0 = false ∧ fpHead.ldr.pending = [] := by decide
theorem test_wit_farAnswer : ((({ dp := { pchunks := [{ pc1 with stage := .farWait }] } } : Head).setFld Adr.LDR_FAR_SIZE 7 7 1).farValid = true) ∧
    ({ dp := { pchunks := [{ pc1 with stage := .farWait }] } } : Head).farHit pc1.fp = false ∧
    ({ ldr := { stash := [(farTag [], ({} : Head).farJ1 [])] } } : Head).farHit [] = true := by decide +kernel
theorem test_wit_pageWait : (onHead { ldr := { fetching := [(.a, 3)] } }).head.ldr.fetching.contains (Troupe.a, 3) = true ∧
    (onHead { ldr := { fetching := [(.a, 3)] } }).head.dp.pchunks = [] := by decide
theorem test_wit_byteCompare : ({ pchunks := [{ pc1 with stage := .compareWait 7, sealed := true }] } : Dp).pchunk? 1 =
    some { pc1 with stage := .compareWait 7, sealed := true } ∧ pc1.data = [1] ∧ ([2] : Bytes) ≠ pc1.data := by decide

/-! ### LarderGenerationsTurn -/

theorem test_wit_turn : ({ ldr := { clearing := some 2 } } : Head).ldr.clearing.isSome = true ∧ ({} : Head).ldr.clearing = none := by decide
theorem genOcc_one (l : List Nat) : ({ larder := [(0, l)] } : Ldr).genOcc 0 = l.length := by simp [Ldr.genOcc]
theorem test_wit_fill : ∃ l : Ldr, l.clearing = none ∧ ({} : Head).genFillPct * 12582912 ≤ l.genOcc 0 * 100 :=
  ⟨{ larder := [(0, List.replicate 12582912 0)] }, rfl, by rw [genOcc_one, List.length_replicate]; decide⟩
theorem test_wit_noFill : ({} : Ldr).genOcc 0 * 100 < ({} : Head).genFillPct * 12582912 := by decide

/-! ### CompressionEnginesAndJobs -/

theorem test_wit_engine : ({} : Head).dp.booths.length = 36 → (({} : Head).dp.booth 0).stalled = false := fun _ => by decide
theorem test_wit_boundary : (({} : Head).dp.booth 0).holding = none := by decide
theorem test_wit_segIdle : ({ cmp := { segs := [{ id := 3, nsid := 1, site := 0, nextLba := 0, lastAt := 0, segment := 0 }] } } : Head).cmp.segs.find? (·.id == 3) ≠ none := by decide
theorem test_wit_jobKind : ((((({} : Head)).setFld Adr.CMP_JOB_CTRL 6 4 5)).jobSample).kind = 5 := by decide
theorem test_wit_jobEnd : (onHead awake).head.rangePopulated ddrBase 0 = true := by decide
/-- An engine whose block does not fit its output buffer. -/
def pcEq : PChunk := { pc1 with data := [7, 7] }
def fullBooth (stalled : Bool) : Head :=
  let b : Booth := { site := 0, streams := [{ sid := 4, kind := 0, owner := 1, units := [⟨1, 2, true⟩] }], holder := some 4, outUsed := 65534 }
  { dp := { pchunks := [pcEq], booths := { b with stalled := stalled } :: (({} : Dp).booths.drop 1) } }
theorem test_wit_stall : ((fullBooth false).dp.booth 0).holding = some { sid := 4, kind := 0, owner := 1, units := [⟨1, 2, true⟩] } ∧
    (fullBooth false).dp.pchunk? 1 = some pcEq ∧ 65536 < (fullBooth false).outNow ((fullBooth false).dp.booth 0) + 4 ∧
    ((fullBooth true).dp.booth 0).stalled = true ∧ ((fullBooth true).dp.booth 0).holding.bind (·.units.head?) = some ⟨1, 2, true⟩ := by
  decide +kernel
theorem test_wit_stall_block : ((fullBooth false).blockOf pcEq ⟨1, 2, true⟩).length = 4 := by
  simp [Head.blockOf, zBlock, pcEq, pc1, slice, leBytes, flag]
/-- A head with one live site. -/
def siteHead (h : Head) : Head := { h with tsi := { sections := { site := some [⟨1, 0, 0xF⟩] }, microcode := [0] } }
theorem test_wit_live : (siteHead {}).live 0 = true ∧ ({} : Head).live 0 = false := by decide
theorem test_wit_jobStart : ({ siteHead memHead0 with cmp := {} } : Head).jobSite 0 = some 0 ∧
    ((siteHead memHead0).setReg Adr.CMP_JOB_LEN 8).jobSample.len ≠ 0 ∧ ((siteHead memHead0).setReg Adr.CMP_JOB_LEN 8).jobSample.kind ≤ 3 ∧
    (siteHead memHead0).rangePopulated ddrBase 8 = true := by decide +kernel
theorem test_wit_jobResult : ({ code := 0, outputFull := false, consumed := 4, output := [1, 2], checked := true } : JobResult).output.length ≤ 8 ∧
    memHead0.rangePopulated ddrBase 2 = true := by decide

/-! ### PantryAccessesAndSnoops -/

def memHead : Head := { memc := { dpc := 1, dimmGib := 64 } }
theorem test_wit_dma : (onHead memHead).head.rangePopulated ddrBase 4 = true ∧ (onHead memHead).head.rangePopulated 5 4 = false ∧
    (onHead memHead).head.populated ddrBase = true ∧ (onHead memHead).head.populated 5 = false := by decide
def line0 : Line := { addr := 0x41000000000 / 64, bank := 0, set := 0, way := 0, data := zeros 64, dirty := false, used := 3, cls := 0 }
theorem test_wit_hit : ({ lines := [line0] } : Pan).line? 0x41000000000 = some line0 ∧ line0.used ≠ 0 ∧ ({} : Pan).fill? 0 = none := by decide
def panHead : Head := { memHead with pan := { state := 1, lines := [line0] } }
theorem test_wit_pan : (onHead panHead).head.pan.state = 1 ∧ (onHead panHead).head.pan.line? 0x41000000000 = some line0 ∧
    (onHead panHead).head.allocates 5 = false ∧ memHead.populated ddrBase = true ∧
    ({ tsi := { sections := { bank := some ([], [⟨3, 0xF, 0, 64⟩]) } } } : Head).populated 5 = true ∧
    ({ tsi := { sections := { bank := some ([], [⟨3, 0xF, 0, 64⟩]) } } } : Head).allocates 5 = false ∧
    ({ fills := [{ addr := 0, cls := 0, stream := 0, write := none, slot := none, again := false }] } : Pan).fill? 0 ≠ none := by decide +kernel

/-! ### MemoryErrorsAreCountedAndHandled -/

theorem test_wit_spareCopy : ({ memc := { hbm := [{ stack := 2, copying := some 7 }] } } : Head).memc.hbm.find? (·.stack == 2) =
    some { stack := 2, copying := some 7 } := by decide
theorem test_wit_unmapped : memHead.populated 5 = false ∧ memHead.populated ddrBase = true := by decide

/-! ### OwnerTokensHaveTheirEffect -/

def tokenBody (op a0 a1 : Nat) : Bytes := leBytes 4 0x544E574F ++ leBytes 2 op ++ zeros 2 ++ zeros 8 ++ leBytes 8 5 ++ leBytes 4 a0 ++ leBytes 4 a1
/-- A running head of owner key zero with a token of the owner in its mailbox. -/
def tokHead (op a0 : Nat) (a1 : Nat := 0) : Head :=
  let tok := tokenBody op a0 a1 ++ hmac256 (zeros 32) (tokenBody op a0 a1)
  let h : Head := { awake with stg := { owner := some (zeros 32), lastSeq := 4 } }
  h.forEach (List.range 16) fun h n => h.setReg (Adr.STG_TOKEN n) (BitVec.ofNat 32 (leAt (4 * n) 4 tok))
theorem test_wit_token_lock : (onHead (tokHead 5 0)).holdsToken 5 := by unfold State.holdsToken; decide +kernel
theorem test_wit_token_arm : (onHead (tokHead 0xB 60)).holdsToken 0xB := by unfold State.holdsToken; decide +kernel
def linked (h : Head) : Head := { h with pair := { icl := true } }
theorem test_wit_token_create : (onHead (linked { tokHead 2 3 with stg := { (tokHead 2 3).stg with unsealed := true } })).holdsToken 2 := by unfold State.holdsToken; decide +kernel
theorem test_wit_token_destroy : (onHead (linked { tokHead 3 3 with stg := { (tokHead 3 3).stg with slots := [{ slot := 3, state := 2 }] } })).holdsToken 3 := by
  unfold State.holdsToken; decide +kernel
theorem test_wit_token_unseal : (onHead (tokHead 1 0)).holdsToken 1 := by unfold State.holdsToken; decide +kernel
theorem test_wit_token_map : (onHead (linked { tokHead 4 0 0xFF00 with stg := { (tokHead 4 0 0xFF00).stg with slots := [{ slot := 0, state := 2 }] } })).holdsToken 4 := by
  unfold State.holdsToken; decide +kernel
theorem test_wit_token_unlock : (onHead (tokHead 6 0)).holdsToken 6 ∧ (onHead (tokHead 7 0)).holdsToken 7 ∧ (onHead (tokHead 8 0)).holdsToken 8 := by
  unfold State.holdsToken; decide +kernel
theorem test_wit_token_zeroise : (onHead (tokHead 9 0)).holdsToken 9 ∧ (onHead (tokHead 0xA 0)).holdsToken 0xA := by
  unfold State.holdsToken; decide +kernel

/-! ### TokensThatAreRejectedChangeNoKey -/

theorem test_wit_token_bad : (onHead awake).head.judgeToken (onHead awake).head.mailbox ≠ 0 ∧ (onHead awake).head.awake = true ∧
    (onHead awake).head.stg.owner = none := by decide

/-! ### KeysRetireExpireAndSeal -/

theorem test_wit_retire : ({ slots := [{ slot := 3, state := 2, retiring := true }] } : Stg).slot 3 =
    { slot := 3, state := 2, retiring := true } := by decide
theorem test_wit_leases : ({ leases := [⟨3, 0, 5, 9⟩] } : Stg).leases.any (fun l => l.slot == 3 && decide (l.next < l.stop)) = true := by decide
theorem test_wit_peerUnseal : (({ stg := { pairKey := some [] }, pair := { icl := true } } : Head).setFld Adr.STG_CTRL 1 1 1).bit Adr.STG_CTRL 1 = true ∧
    ({ stg := { pairKey := some [], owner := some [] }, pair := { icl := true, a := { role := 1 } } } : Head).flown ≠ [] := by decide
theorem test_wit_decode : decodeEnd { uid := 1, troupe := .a, domain := 0, fp := [] } { headerOk := true, tagOk := true, code := 0, plain := [] } = .good ∧
    ({ stg := { slots := [{ slot := 0, state := 2 }] } } : Head).keyFailure { uid := 1, troupe := .a, domain := 0, fp := [] } = none := by decide

/-! ### DigestChannelsRunMessages -/

theorem test_wit_chan : (onHead {}).head.dgt.chans.find? (·.ch == 2) = some { ch := 2 } ∧ ({ ch := 2 } : Chan).state = 0 ∧
    (0 : Nat) < 16 := by decide
def chanHead (c : Chan) : Head := { memHead with dgt := { chans := [c] } }
theorem test_wit_chan_states : (onHead (chanHead { ch := 1, state := 2, len := 8 })).head.dgt.chans.find? (·.ch == 1) =
      some { ch := 1, state := 2, len := 8 } ∧
    (onHead (chanHead { ch := 1, state := 3, run := some (ddrBase, 4) })).head.rangePopulated ddrBase 4 = true := by decide
theorem test_wit_begin : ((onHead (chanHead { ch := 1, state := 1, owner := 3 })).head.sampleChan { ch := 1, state := 1, owner := 3 }).mode = 0 ∧
    algDefined ((onHead (chanHead { ch := 1, state := 1 })).head.sampleChan { ch := 1, state := 1 }).alg = true ∧ algDefined 7 = false ∧
    (onHead (chanHead { ch := 1, state := 1 })).head.recordBody { ch := 1, state := 1 } [] = none := by decide
theorem test_wit_words : (8 : Nat) % 4 = 0 ∧ 4 * (9 / 4) < 4 + 8 ∧ 0 + 8 ≤ 4 * (9 / 4) ∧ (9 : Nat) % 4 = 1 ∧ 64 % algBlock 1 = 0 := by decide

/-! ### AnotherCoresChannelIsRefused -/

theorem test_wit_otherCore : (onHead (chanHead { ch := 1, state := 2, owner := 3 })).head.dgt.chans.find? (·.ch == 1) =
    some { ch := 1, state := 2, owner := 3 } ∧ (3 : Nat) ≠ 4 := by decide

/-! ### RowLocksAndBackEndCompletions -/

def rowReq : RowWrite := { stripe := 4, row := 2, data := 1, troupe := .a, block := [] }
theorem test_wit_rowLock : (onHead { pty := { rows := [rowReq] } }).head.row? 4 2 = none ∧
    (onHead { pty := { rows := [rowReq] } }).head.rebuildHolds 4 2 = false ∧
    (onHead { pty := { rows := [rowReq] } }).head.pty.rows.find? (fun r => r.stripe == 4 && r.row == 2) = some rowReq := by decide
def opDone : BackOp := { op := 9, member := 0, mdl := 0, status := some 0 }
def bund : Bundle := { id := 1, kind := .journal 4, cls := 1, troupe := .a, shelf := 0, stripe := 4, ops := [opDone], readyAt := 0, launched := some (0, 0, 0), lateAfter := 5 }
theorem test_wit_completion : (onHead { pty := { bundles := [bund] } }).head.flying? 9 = some (bund, opDone) ∧
    (onHead { pty := { bundles := [bund] } }).head.cal.flush ≠ 1 ∧ (0 : Nat) ≠ lateStatus ∧
    (onHead { pty := { bundles := [bund] } }).head.now < 0 + bund.lateAfter ∧ (onHead {}).head.flying? 9 = none := by decide
theorem test_wit_lateOp : (onHead { now := 5, pty := { bundles := [{ bund with ops := [{ opDone with status := none }] }] } }).head.flying? 9 =
    some ({ bund with ops := [{ opDone with status := none }] }, { opDone with status := none }) ∧ 0 + bund.lateAfter ≤ 5 := by decide
def stripe0 : Stripe := { number := 4, troupe := .a, geom := 0, k := 4, shelf := 5, group := 0, unit := 0, ring := 0, closeAt := 9 }
theorem test_wit_close : ({ pty := { stripes := [stripe0] } } : Head).stripe? 4 = some stripe0 ∧ stripe0.phase = .opened ∧ stripe0.closeAt ≠ 0 := by decide
def vaultOps : Bundle :=
  { id := 1, kind := .vault 7, cls := 1, troupe := .a, shelf := 0, stripe := 0, readyAt := 0, launched := some (0, 0, 0), lateAfter := 5
    ops := [{ opDone with status := none }, { opDone with op := 10, status := none }] }
theorem test_wit_vault : (onHead { pty := { bundles := [vaultOps] } }).head.flying? 9 = some (vaultOps, { opDone with status := none }) ∧
    vaultOps.ops.any (fun x => x.op != 9 && x.status.isNone) = true := by decide
theorem test_wit_landing : ({ pty := { landing := [(4, 0, 0, [])] }, pair := { a := { role := 1 } } } : Head).pty.landing.any (·.1 == 4) = true ∧
    ({ pair := { a := { role := 1 } } } : Head).flies .a = true := by decide

/-! ### ModulesAreReportedAdmittedAndRebuilt -/

def absentHead : Head := ({ mnd := { modules := [{ shelf := 0, mdl := 0, state := 5 }] }, pair := { spareMaster := true } } : Head).setFld Adr.MND_CFG 8 8 0
theorem test_wit_admit : absentHead.mnd.modules.any (fun x => x.shelf == absentHead.fld Adr.MND_MEMBER_SEL 6 0 &&
      x.mdl == absentHead.fld Adr.MND_MEMBER_SEL 13 8 && x.state == 5) = true ∧
    absentHead.bit Adr.MND_CFG 8 = false ∧ absentHead.dp.pchunks = [] ∧ 1 < (absentHead.mnd.mdl 0 0).state ∧ 0 < absentHead.wearPct := by decide
def rebuild0 : Rebuild := { id := 3, shelf := 0, mdl := 1, spareKind := 0 }
theorem test_wit_rebuild : (onHead { mnd := { rebuilds := [rebuild0] } }).head.mnd.rebuilds.find? (·.id == 3) = some rebuild0 ∧ rebuild0.spareKind ≠ 3 ∧
    (onHead {}).head.mnd.rebuilds.find? (·.id == 3) = none ∧
    ((onHead { mnd := { jrnEff := [(0, 0, some 6), (0, 0, none)] } }).head.mnd.jrnEff[troupeBit .a]?).bind (·.2.2) = some 6 := by decide
def group0 : Group := { id := 2, troupe := .a, geom := 0, k := 4, shelf := 5, members := [], units := 8, closed := true }
def groupHead : Head := { pty := { groups := [group0] }, shf := { shelves := [{ shelf := 5, state := 3 }] } }
theorem test_wit_reclaim : groupHead.pty.groups.find? (·.id == 2) = some group0 ∧ (groupHead.shf.shelf 5).state = 3 ∧
    0 < group0.k * group0.units * unitBytes * groupHead.livePct ∧ groupHead.groupChunks 2 = [] := by decide

/-! ### ReshapeJobsStartPauseAndAbort -/

def rshHead (st : Nat) : Head := { mnd := { reshape := { state := st } } }
theorem test_wit_reshape : (rshHead 1).mnd.reshape.state = 1 ∧ (rshHead 2).mnd.reshape.state = 2 ∧
    (rshHead 0).reshapeReason ((rshHead 0).fld Adr.MND_RSH_CFG 6 0) .a ((rshHead 0).fld Adr.MND_RSH_CFG 12 8) ((rshHead 0).fld Adr.MND_RSH_CFG 20 16) ≠ 0 := by
  decide
theorem test_wit_batch : ({ mnd := { reshape := { state := 1, inBatch := [3] } }, pair := { a := { openBeat := 1 } } } : Head).batchDone = true := by decide

/-! ### PatrolVisitsStepEndAndOverdue -/

theorem test_wit_patrolEnd : (onHead { mnd := { patrol := [(3, 1, 8)] } }).head.mnd.patrol.find? (·.1 == 3) = some (3, 1, 8) := by decide
def patrolHead : Head := { pty := { stripes := [{ stripe0 with phase := .committed }] }, shf := { shelves := [{ shelf := 5, state := 3 }] } }
theorem test_wit_patrolStep : patrolHead.stripe? 4 = some { stripe0 with phase := .committed } ∧ (patrolHead.shf.shelf 5).state = 3 ∧
    patrolHead.chunksIn [4] = [] ∧ patrolHead.mnd.patrol = [] ∧ patrolHead.pty.groups.find? (·.id == 0) = none := by decide
theorem test_wit_overdue : ({ awake with now := 10 ^ 15 } : Head).landing 5 = false ∧
    assocGet 5 0 ({ awake with now := 10 ^ 15 } : Head).mnd.lastPatrol + ({ awake with now := 10 ^ 15 } : Head).patrolDays * 86400 < ({ awake with now := 10 ^ 15 } : Head).opNow := by
  decide +kernel

/-! ### ShelvesWakeOpenAndClose -/

def shelfHead (x : Shelf) : Head := { shf := { shelves := [x] } }
theorem test_wit_shelf : (shelfHead { shelf := 5, state := 4 }).shf.shelf 5 = { shelf := 5, state := 4 } ∧
    (shelfHead { shelf := 5, state := 2, linked := true }).shf.shelf 5 = { shelf := 5, state := 2, linked := true } ∧
    (shelfHead { shelf := 5, state := 4 }).pair.spareMaster = false := by decide
theorem test_wit_wakeTimeout : ({ shelfHead { shelf := 5, state := 2, failed := 2 } with now := 10 ^ 9 } : Head).now ≥
    0 + 2 * ({ shelfHead { shelf := 5, state := 2, failed := 2 } with now := 10 ^ 9 } : Head).wakeMs 5 * 1000 := by decide
theorem test_wit_demand : ({ shelfHead { shelf := 5 } with pair := { icl := true } } : Head).pair.icl = true ∧ (shelfHead { shelf := 5 }).pair.icl = false ∧
    (shelfHead { shelf := 5, state := 3 }).shf.shelf 5 = { shelf := 5, state := 3 } := by decide
theorem test_wit_open : (shelfHead { shelf := 5, state := 2, linked := true }).shf.demands = [] ∧
    (shelfHead { shelf := 5, state := 2, linked := true }).landing 5 = false ∧
    (shelfHead { shelf := 5, state := 2, linked := true }).mnd.relocate = [] ∧ (shelfHead { shelf := 5, state := 2 }).pty.groups = [] := by decide

/-! ### BackEndPortsBridgesAndBaton -/

theorem test_wit_portLost : ((onHead {}).head.shf.port 3).lost = false ∧ (onHead {}).head.flies .a = false ∧ (onHead {}).head.flies .b = false := by
  decide
theorem test_wit_fenced : (onHead { pair := { a := { role := 1 }, fencing := [(2, .a)] } }).head.flies .a = true ∧
    (2, Troupe.a) ∈ (onHead { pair := { a := { role := 1 }, fencing := [(2, .a)] } }).head.pair.fencing := by decide
theorem test_wit_refusal : (onHead { pty := { bundles := [{ bund with ops := [{ opDone with status := none }] }] } }).head.flying? 9 =
    some ({ bund with ops := [{ opDone with status := none }] }, { opDone with status := none }) ∧
    readsOf bund.kind 0 = false := by decide

/-! ### WheelSlotsBeatsAndCycles -/

def whlHead : Head := { now := 1000, whl := { running := true, slot := 255, slotAt := 900, cycle := 4, sealedFor := 7 } }
theorem test_wit_slot : whlHead.whl.running = true ∧ whlHead.whl.slotAt + 16 + (if whlHead.whl.slot = 255 then whlHead.whl.stretch else 0) ≤ whlHead.now ∧
    whlHead.whl.sealedFor ≠ whlHead.whl.slotCount + 1 ∧ whlHead.pty.bundles.filter (·.launched.isNone) = [] := by decide
def edgeHead : Head := { whl := { running := true, slot := 0, cycle := 4, cycleDone := some 3, edgeDone := some 3 } }
theorem test_wit_edge : edgeHead.whl.slot % 16 = 0 ∧ edgeHead.whl.edgeDone ≠ some edgeHead.whl.beat ∧ edgeHead.whl.cycleDone ≠ some edgeHead.whl.cycle := by
  decide

/-! ### WheelReferencesAreLostAndFound -/

theorem test_wit_refs : (onHead { whl := { running := true }, pair := { absent := true } }).head.whl.driver = false ∧
    (onHead { whl := { running := true }, pair := { absent := true } }).head.pair.absent = true ∧ whlHead.whl.lock ≠ 5 := by decide
theorem test_wit_ptp : ({ whl := { running := true, driver := true, ptpLocked := true } } : Head).whl.ptpLocked = true ∧
    (({ whl := { running := true, driver := true } } : Head).setFld Adr.WHL_CFG 0 0 1).bit Adr.WHL_CFG 0 = true := by decide

/-! ### PairMessagesReachTheTroupe -/

def trpHead (p : Trp) : Head := { pair := { a := p } }
theorem test_wit_follows : ((trpHead { role := 2, state := 1 }).pair.trp .a).follows = true ∧ (trpHead { role := 1, state := 1 }).flies .a = true ∧
    ((trpHead { role := 1, state := 1 }).pair.trp .a).follows = false ∧ ((trpHead { role := 3, state := 6 }).pair.trp .a).role = 3 ∧
    parseJrn .a [] = none := by decide
theorem test_wit_confirm : ({ staged := [{ handle := 4, troupe := .a, uid := none, bytes := [], guard := 0, dirty := true }] } : Dp).staged.find?
    (fun x => x.handle == 4 && x.troupe == .a && !x.mirror) ≠ none := by decide
theorem test_wit_chunkGuard : crc64 [1, 2] ≠ 0 ∧ ((trpHead { role := 2, state := 1 }).pair.trp .a).waitingOrders = [] ∧
    ((trpHead {}).pair.trp .a).role = 0 := by decide +kernel
def armedPair : Armed := { imageId := 1, raw := [], beat := 9, pairScoped := true, derived := false }
theorem test_wit_imageArm : ({ tsi := { armed := some armedPair, active := some { kind := 0, imageId := 1 } } } : Head).tsi.armed = some armedPair ∧
    armedPair.pairScoped = true ∧ armedPair.committed = false ∧ armedPair.offered = false ∧ ({} : Head).tsi.armed = none := by decide
theorem test_wit_marker : ((trpHead { role := 2, state := 1, openRecs := [{ type := 2, order := 7 }] }).pair.trp .a).marks = [] ∧
    (∀ r ∈ ((trpHead { role := 2, state := 1, openRecs := [{ type := 2, order := 7 }] }).pair.trp .a).openRecs, r.order ≤ 7) ∧
    parseJrn .a (zeros 32) = none ∧ (zeros 32).length = 32 := by decide +kernel

/-! ### FreezesKeeperAndBaton -/

def claimHead : Head := { now := 100, pair := { a := { claiming := true, fallAt := 10 }, keeperOk := true } }
theorem test_wit_baton : (claimHead.pair.trp .a).claiming = true ∧ claimHead.pair.keeperOk = true ∧ lineOf claimHead.pair.see .a = false ∧
    lineOf claimHead.pair.hold .a = false ∧ (claimHead.pair.trp .a).fallAt + 20 ≤ claimHead.now := by decide
def windowHead : Head := { now := 100, pair := { a := { claiming := true, confirmAt := 10 }, keeperOk := true, hold := 1 } }
theorem test_wit_batonWindow : lineOf windowHead.pair.hold .a = true ∧ (windowHead.pair.trp .a).confirmAt + 2 ≤ windowHead.now := by decide
theorem test_wit_takeover : lineOf ({ confirmed := 1 } : Pair).confirmed .a = true ∧ ((trpHead { state := 4, replay := true }).pair.trp .a).state = 4 ∧
    ((trpHead { state := 4, replay := true }).pair.trp .a).replay = true := by decide
def beat0 : Beat := { beat := 1, records := [], prev := [], digest := [], orderDigest := [], closedAt := 0 }
theorem test_wit_digestLate : ({ trpHead { role := 1, state := 1, beats := [beat0] } with now := 64 } : Head).now ≥ beat0.closedAt + 64 ∧
    beat0.matched = false := by decide
theorem test_wit_keeper : ({ pair := { hold := 1, a := { role := 1, state := 1 } }, whl := { cycle := 9 } } : Head).flown.filter
      (fun t => (({ pair := { hold := 1, a := { role := 1, state := 1 } } } : Head).pair.trp t).state != 3) = [.a] ∧
    0 + orIfZero 1 (({} : Head).fld Adr.TRP_CFG 5 4) ≤ ({ whl := { cycle := 9 } } : Head).whl.beat := by decide
theorem test_wit_outcome : ((trpHead { role := 1, state := 3, outcome := 2, outcomeBeat := 0 }).pair.trp .a).outcomeBeat ≤ (trpHead {}).whl.beat ∧
    lineOf ({ see := 1 } : Pair).see .a = true := by decide

/-! ### HandoversRunToTheirBeat -/

def handHead (x : Handover) : Head := { whl := { cycle := 2 }, pair := { a := { role := 1, state := 5, handover := some x } } }
theorem test_wit_handover : ((handHead { giving := true, beat := 3 }).pair.trp .a).handover = some { giving := true, beat := 3 } ∧
    3 * 16 ≤ (handHead { giving := true, beat := 3 }).whl.slotCount + 3 ∧ (handHead { giving := true, beat := 3 }).troupeCtxs .a = [] ∧
    ((handHead { giving := true, beat := 3 }).pair.trp .a).beats.all (·.matched) = true := by decide
def ctxNs : Head := { handHead { giving := true, beat := 3 } with hqe := { namespaces := [⟨1, .a, 0, 8, false⟩], ctxs := [{ ctx0 with phase := .running }] } }
theorem test_wit_handover_ctx : ctxNs.troupeCtxs .a ≠ [] ∧ ((handHead { giving := true, beat := 3, committed := true }).pair.trp .a).handover =
    some { giving := true, beat := 3, committed := true } ∧ 2 * 16 ≤ (handHead { giving := true, beat := 2 }).whl.slotCount := by decide
theorem test_wit_startWait : ({ awake with now := 10 ^ 9, pair := { absent := true } } : Head).pair.startAt +
    orIfZero 1 (({ awake with now := 10 ^ 9 } : Head).fld Adr.TRP_CFG 15 8) * 100000 ≤ 10 ^ 9 ∧ awake.fwu.phase = 0 := by decide

/-! ### IclinLinkAndResync -/

theorem test_wit_linkUp : awake.pair.icl = false ∧ awake.fwu.running = true ∧ (16 : Nat) ≤ 64 ∧ (1 : Nat) ≠ awake.headId := by decide
theorem test_wit_joinCounts : ({ awake with pair := { see := 1 }, whl := { running := true } } : Head).pair.hold = 0 ∧
    ({ awake with pair := { see := 1 }, whl := { running := true } } : Head).pair.see ≠ 0 ∧ awake.fwu.running = true := by decide
theorem test_wit_resync : ((trpHead { role := 1, state := 2 }).pair.trp .a).state = 2 ∧ (trpHead { role := 1, state := 2 }).pair.resyncActive = false ∧
    ((trpHead { role := 1, state := 2 }).pair.trp .a).joinAtEdge = false := by decide
theorem test_wit_linkDown : ({ pair := { icl := true } } : Head).fwu.restartDue = false ∧ ({ pair := { icl := true } } : Head).pair.a.handover = none ∧
    ({ pair := { icl := true } } : Head).pair.a.state ≠ 3 := by decide
theorem test_wit_join : ({ pair := { icl := true, peerRole := (1, 0) }, stg := { pairKey := some [] } } : Head).canJoin .a = true ∧
    ((trpHead { role := 3, state := 6 }).pair.trp .a).state = 6 := by decide

/-! ### PowerStatesAndPortsDown -/

def entryHead (n : Nat) : Head := { now := 100, pwr := { entry := some { target := n, mask := 0, acceptedAt := 0, ctx := none } } }
theorem test_wit_entry : (entryHead 2).heldCmds = [] ∧ (entryHead 2).whl.slot % 16 = 0 ∧ 0 + 48 ≤ (entryHead 2).now ∧
    (entryHead 4).entryOver = true ∧ (entryHead 4).shelvesLeft = [] := by decide
theorem test_wit_ring : bitAt 1 (({ pwr := { state := 1, ringsOn := 0 } } : Head)).ringMask = true ∧
    ({ pwr := { state := 1, ringsOn := 0 } } : Head).pwr.govGated.getLsbD 1 = false ∧
    ({ now := 10 ^ 9, pwr := { state := 1, demandWoken := [(1, 0)] } } : Head).ringBusy 1 = false ∧
    0 + orIfZero 1 (({} : Head).fld Adr.PWR_CTRL 15 0) * 1000 ≤ 10 ^ 9 := by decide

/-! ### DomainsAndClocksWake -/

theorem test_wit_domain : awake.awake = true ∧ awake.domainEnabled 141 = true ∧ awake.domainEnabled 3 = false := by decide
theorem test_wit_domain_off : (Domain.get ([{ dom := 141 }] : List Domain) 141).state = 0 ∨ (Domain.get ([] : List Domain) 141).state ≠ 1 ∧
    (Domain.get ([{ dom := 5, state := 1, stalled := true }] : List Domain) 5).state = 1 := by decide
theorem test_wit_stalled : (Domain.get ([{ dom := 5, state := 1, stalled := true }] : List Domain) 5).stalled = true ∧
    ({ awake with pwr := { pllLock := 1 } } : Head).pwr.pllLock.getLsbD 0 = true := by decide

/-! ### SleepingHeadsWake -/

def sleeper : Head := (({ pwr := { state := 4 }, cel := { vinLoss := true, calValid := true } } : Head).setFld Adr.CEL_ALARM_HI 31 31 1).setFld Adr.CEL_WAKE_CFG 1 1 1
theorem test_wit_sleeper : sleeper.pwr.waking = none ∧ sleeper.cel.tripped = false ∧ sleeper.cel.failed = false ∧ sleeper.asleep = true ∧
    sleeper.bit Adr.CEL_ALARM_HI 31 = true ∧ sleeper.bit Adr.CEL_WAKE_CFG 1 = true := by decide
theorem test_wit_tick : ({ pwr := { state := 3 } } : Head).pwr.waking = none ∧
    ({ pwr := { waking := some 2 }, fwu := { running := true } } : Head).pwr.waking = some 2 ∧
    assocGet 3 0 ({ waking := some 2 } : Pwr).attempts < 3 := by decide

/-! ### SuppliesResetAndCalendar -/

theorem test_wit_supplies : (onHead {}).head.fwu.running = false ∧ (onHead {}).head.pwr.state ≠ 3 ∧ (onHead {}).head.pwr.state ≠ 4 ∧
    (onHead {}).head.heldReset = false ∧ tapHolds (onHead { pins := { resetLow := true } }).head.pins.tap = false := by decide

/-! ### CalliopeSamplesSwapsAndFlushes -/

def sample0 : PowerSample := { vinMv := 12000, clamped := false, dieC := 40, sensor := 0, vhMv := 30000, railMv := [], railMa := [], powerMw := 0, tripping := 0 }
theorem test_wit_sample : limitsExceeded sample0 = false ∧ limitsExceeded { sample0 with dieC := 126 } = true ∧ awake.awake = true ∧
    (onHead awake).head.cal.rails.length = 6 ∧ awake.cal.swapPending = false := by decide
theorem test_wit_holdup : (awake.setFld Adr.CAL_HUP_CFG 15 0 500).fld Adr.CAL_HUP_CFG 15 0 ≠ 0 ∧ awake.fld Adr.CAL_HUP_CFG 15 0 = 0 ∧ (0 : Nat) < 12000 ∧
    (awake.setFld Adr.CAL_EW 9 0 500).fld Adr.CAL_EW 9 0 ≠ 0 ∧ awake.cal.flush ≠ 1 := by decide

/-! ### ThiezLoadsChecksAndArms -/

def tsiHead (n : Nat) : Head := { tsi := { state := n } }
theorem test_wit_tsi : (tsiHead 6).tsi.state = 6 ∧ (tsiHead 0).tsi.staging = none ∧ (tsiHead 2).tsi.state = 2 ∧ (tsiHead 4).edgeOk 5 = true ∧
    (tsiHead 4).edgeOk 0 = false := by decide
theorem test_wit_tsiLoad : (tsiHead 0).fld Adr.TSI_SRC_LEN 23 0 ≤ 0x800000 ∧ ((tsiHead 4).setReg Adr.TSI_ARM_BEAT 5).reg Adr.TSI_ARM_BEAT = 5 ∧
    ((tsiHead 4).setReg Adr.TSI_ARM_BEAT 5).fullBeat 5 = 5 := by decide

/-! ### ArmedImagesCommitAndApplyAtTheirEdge -/

def armed0 : Armed := { imageId := 1, raw := [], beat := 0, pairScoped := false, derived := false, affected := [] }
theorem test_wit_armed : ({ tsi := { armed := some armed0 } } : Head).tsi.armed = some armed0 ∧ armed0.committed = false ∧
    armed0.beat * 16 ≤ ({ tsi := { armed := some armed0 } } : Head).whl.slotCount + 2 ∧ ({} : Head).tsi.active = none ∧
    0 < ({} : Head).sitesPresent ∧ ({} : Head).tsi.substitutions = [] := by decide
def appliedHead : Head := { whl := { cycle := 1 }, tsi := { armed := some { armed0 with committed := true, beat := 2 }, appliedBeat := 2 } }
theorem test_wit_applied : appliedHead.tsi.appliedBeat = 2 ∧ appliedHead.tsi.raw = armed0.raw ∧ 2 * 16 + 1 ≤ appliedHead.whl.slotCount := by decide

/-! ### UpdatesActivateConfirmAndAttest -/

theorem test_wit_fwu : ({} : Head).fwu.schedule = none ∧ ({} : Head).confirmable = false ∧ ({} : Head).fwu.attBusy = false ∧
    ({} : Head).fwu.attIndex < 2 ^ 40 ∧ ({} : Head).fwu.bctl.isValid (({} : Head).fld Adr.FWU_CTRL 5 4) = false ∧
    ({} : Head).fwu.trial = false := by decide
theorem test_wit_confirmable : ({ fwu := { trial := true, bctlA := { ok := true, trial := 2 } }, pair := { absent := true, a := { role := 1 } } } : Head).confirmable =
    true := by decide
def edgeReady : Head := ({ fwu := { schedule := some (2, 0) }, pair := { absent := true }, cal := { availMj := 200, needMj := 100 } } : Head).setFld Adr.FWU_CFG 0 0 1
theorem test_wit_activation : edgeReady.updateRefused = none ∧ edgeReady.peerAllows true = true ∧ edgeReady.fwu.schedule = some (2, 0) := by decide
def svnImage : Bytes :=
  leBytes 4 0x544F4F42 ++ leBytes 2 1 ++ [0, 3] ++ zeros 12 ++ leBytes 4 2048 ++ zeros 17 ++ [5] ++ zeros 22 ++
    ([1, 2, 3, 4, 5] : List Nat).flatMap fun t => leBytes 8 t ++ leBytes 4 (if t = 3 then 2048 else 0) ++ leBytes 4 0 ++ zeros 32
theorem test_wit_svn : (parseBoot (svnImage ++ zeros (2048 - svnImage.length))).map (·.svn) = some 3 := by decide +kernel
theorem test_wit_bridge : ({ fwu := { bridges := [(4, [], 1, 1)] }, shf := { shelves := [{ shelf := 4, state := 1 }] }, pair := { spareMaster := true } } : Head).landing 4 =
    false ∧ (({} : Head).setFld Adr.FWU_CFG 1 1 1).bit Adr.FWU_CFG 1 = true := by decide

/-! ### TestPortLinksAndModuleSlots -/

theorem test_wit_tap : tapHolds (some .extest) = true ∧ tapHolds none = false ∧ (onHead {}).head.hqe.qpairs.filter (·.port == 3) = [] ∧
    ((onHead awake).head.shf.port 3).lost = false ∧ ((onHead awake).head.shf.port 3).narrow = false := by decide
theorem test_wit_slots : absentHead.mnd.modules.find? (fun m => m.shelf == 3 && m.mdl == 4) = none ∧
    ({ modules := [{ shelf := 3, mdl := 4, state := 0 }] } : Mnd).modules.find? (fun m => m.shelf == 3 && m.mdl == 4) =
      some { shelf := 3, mdl := 4, state := 0 } ∧ tapHolds (onHead { pins := { tap := some .highz } }).head.pins.tap = true := by decide

/-! ### RegisterWritesFollowTheFieldTypes -/

theorem test_wit_regWrite : awake.awake = true ∧ (regRow Adr.HQE_CFG).isSome = true ∧ regRow 3 = none ∧ awake.disabled Adr.HQE_CFG = false ∧ dgtChan Adr.HQE_CFG = none ∧ awake.noEntry Adr.HQE_CFG = false := by decide
theorem test_wit_disabled : dgtChan Adr.TSI_CTRL = none ∧ ({} : Head).armed = false ∧ ({} : Head).awake = false := by decide

/-! ### IdleStepAdvancesTimeAlone -/

theorem test_wit_idle : (onHead {}).pending = [] := by decide

/-! ### MemoryStaysCanonicalInEveryStep -/

theorem test_wit_inv : State.reset.Inv := by unfold State.Inv; decide

/-! ### OnlyThePackageLimitsStop -/

theorem test_wit_limits : withinLimits .commandFetch = true ∧ withinLimits (.holdupUpdate 65000) = true ∧
    withinLimits (.holdupUpdate 65001) = false := by decide

/-! ### CommandsOfTheHeadLeaveMemory -/

theorem test_wit_headOnly : reachesMemory .commandFetch = false ∧ reachesMemory (.keepAlive 0) = false := by decide

/-! ### ZeroedBlocksReadAsZeros -/

def zeroNs : Head :=
  { tsi := { sections := { domain := some [⟨0, 1, 1, 0, 0, 0, 0, 0, 0⟩] } }
    stg := { unsealed := true }
    pair := { a := { role := 1, state := 2 } }
    hqe := { namespaces := [⟨1, .a, 0, 8, false⟩], ctxs := [
      { ctx0 with phase := .ready, cap := { capRead with opcode := 8 } },
      { ctx0 with id := 1, phase := .ready, cap := { capRead with opcode := 2 } },
      { ctx0 with id := 2, phase := .ready, cap := { capRead with opcode := 9, dw11 := 4, inCapsule := some [] }, ranges := [(0, 1)] }] } }
theorem test_wit_zeroRead : (onHead zeroNs).head.hqe.ctx? 1 = some { ctx0 with id := 1, phase := .ready, cap := { capRead with opcode := 2 } } ∧
    (onHead zeroNs).head.dp.extentsOf 1 0 4096 = [] ∧ capRead.pract = false ∧ (onHead zeroNs).head.pwr.level < 3 := by decide
theorem test_wit_zeroed : (onHead zeroNs).head.noSpace .a 0 = false ∧ (onHead zeroNs).head.mayIssue .a = true ∧
    lengthRefuses ⟨1, .a, 0, 8, false⟩ { capRead with opcode := 9, dw11 := 4, inCapsule := some [] } [(0, 1)] = none := by decide

/-! ### ChunksPartitionTheStream -/

theorem test_wit_chunker : (⟨[1, 2], 2, 0⟩ : CutState).n = (⟨[1, 2], 2, 0⟩ : CutState).rev.length ∧
    (⟨[1, 2], 2, 0⟩ : CutState).n < 262144 := by decide

/-! ### ParityRecoversOneOrTwoLosses -/

theorem test_wit_parity : ([[1, 2], [3, 4], [5, 6]] : List Bytes).length ≤ 22 ∧ (∀ b ∈ ([[1, 2], [3, 4], [5, 6]] : List Bytes), b.length = 2) ∧
    ([none, none, none] : List (Option Bytes)).getD 2 none = none := by decide

end Sys2Proof.Tests
end

section
/-!
SUPPORT. Register writes (00_scope.md R7, R8): what a write does to each bit of a register, which sources it raises, and what the
two rows of the control space answer in each of their cases.
-/

namespace Sys2Proof.Machine

open Sys2Proof

/-! ## Records leave the sources as they are, but for the one of dropped records -/

/-- The state of a source rests on the list of sources alone. -/
theorem Head.src_congr {h g : Head} (e : h.brk = g.brk) (n : Nat) : h.src n = g.src n := by
  unfold Head.src
  rw [e]

theorem Head.dropRecord_src_other (h : Head) (sev : Nat) {n : Nat} (hn : n ≠ 996) : (h.dropRecord sev).src n = h.src n := by
  unfold Head.dropRecord
  dsimp only
  split
  · exact Head.raise_src_other _ hn
  · rfl

theorem Head.enqueue_src_other (h : Head) (sev src code : Nat) (payload : Bytes) {n : Nat} (hn : n ≠ 996) :
    (h.enqueue sev src code payload).src n = h.src n := by
  unfold Head.enqueue
  split
  · exact Head.dropRecord_src_other h sev hn
  · rfl

/-- A report raises its source, whether or not the queue has room for its record. -/
theorem Head.report_src_self (h : Head) {n : Nat} (sev : Nat) (payload : Bytes) (hn : n ≠ 996) :
    (h.report n sev payload).src n = (h.src n).raised :=
  (Head.enqueue_src_other (h.raise n) sev n _ payload hn).trans (Head.raise_src_self h n)

/-! ## The fields of a register -/

/-- Taking the bits of `set` from one word and clearing the bits of `clear` in the rest of another. -/
theorem getLsbD_mask_merge (old v set clear : Word) {i : Nat} (hi : i < 32) :
    ((old &&& ~~~set &&& ~~~clear) ||| (v &&& set)).getLsbD i =
      if set.getLsbD i then v.getLsbD i else if clear.getLsbD i then false else old.getLsbD i := by
  simp only [BitVec.getLsbD_or, BitVec.getLsbD_and, BitVec.getLsbD_not, hi, decide_true, Bool.true_and]
  cases set.getLsbD i
  · cases clear.getLsbD i <;> simp
  · simp

/-- What a write leaves in each bit, by the access type of the bit (R7, R8). -/
theorem RegRow.written_getLsbD (r : RegRow) (armed : Bool) (old v : Word) {i : Nat} (hi : i < 32) :
    (r.written armed old v).getLsbD i =
      (if r.rw.getLsbD i || (!armed && r.rwa.getLsbD i) then v.getLsbD i
       else if r.w1c.getLsbD i && v.getLsbD i then false else old.getLsbD i) := by
  have hset : (r.rw ||| if armed then 0 else r.rwa).getLsbD i = (r.rw.getLsbD i || (!armed && r.rwa.getLsbD i)) := by
    cases armed <;> simp
  unfold RegRow.written
  rw [getLsbD_mask_merge _ _ _ _ hi, hset, BitVec.getLsbD_and]

/-- A write that changes no RWA bit of an armed block stores the fields and does no more. -/
theorem Head.storeFields_accepted (h : Head) (r : RegRow) (a : Nat) (v : Word)
    (ha : h.armed = false ∨ (v &&& r.rwa) = (h.reg (h.keyOf a) &&& r.rwa)) :
    h.storeFields r a v = h.setReg (h.keyOf a) (r.written h.armed (h.reg (h.keyOf a)) v) := by
  have hr : (h.armed && (v &&& r.rwa) != (h.reg (h.keyOf a) &&& r.rwa)) = false := by
    obtain ha | ha := ha <;> simp [ha]
  unfold Head.storeFields
  dsimp only
  rw [hr]
  rfl

/-- A write that would change an RWA bit of an armed block raises source 928. -/
theorem Head.storeFields_refused_src (h : Head) (r : RegRow) (a : Nat) (v : Word) (ha : h.armed = true)
    (hv : (v &&& r.rwa) ≠ (h.reg (h.keyOf a) &&& r.rwa)) : (h.storeFields r a v).src 928 = (h.src 928).raised := by
  have hr : (h.armed && (v &&& r.rwa) != (h.reg (h.keyOf a) &&& r.rwa)) = true := by simp [ha, hv]
  unfold Head.storeFields
  dsimp only
  rw [hr]
  calc
    _ = ((h.setReg (h.keyOf a) (r.written h.armed (h.reg (h.keyOf a)) v)).src 928).raised :=
      Head.report_src_self _ _ _ (by decide)
    _ = (h.src 928).raised := by rw [Head.src_congr (Head.setReg_brk ..)]

/-! ## The rows REGISTER_WRITE and UNMAPPED_ACCESS -/

/-- A disabled block, or an entry that does not exist, takes no write. -/
theorem Head.regWrite_closed (h : Head) (core : Nat) (r : RegRow) (a : Nat) (v : Word)
    (hd : h.disabled a = true ∨ h.noEntry a = true) : h.regWrite core r a v = h := by
  unfold Head.regWrite
  rw [if_pos hd]

/-- Outside the digest channels a write stores the fields, then the staged fields, then acts. -/
theorem Head.regWrite_outside_channels (h : Head) (core : Nat) (r : RegRow) (a : Nat) (v : Word) (hd : h.disabled a = false)
    (he : h.noEntry a = false) (hc : dgtChan a = none) :
    h.regWrite core r a v =
      (((h.storeFields r a v).stageFields r a v).actLow a v).actHigh a (h.reg (h.keyOf a)) v := by
  simp [Head.regWrite, hd, he, hc]

theorem exec_registerWrite (c a : Nat) (v : Word) (s : State) : exec (.registerWrite c a v) s = execRegisterWrite c a v s := rfl

theorem exec_unmappedAccess (a : Nat) (w : Bool) (s : State) :
    exec (.unmappedAccess a w) s = .next { s with head := if s.head.awake then s.head.strayAccess a else s.head } := rfl

/-- A core that does not exist, or one of a head that does not run, writes nothing. -/
theorem exec_registerWrite_noCore (s : State) (c a : Nat) (v : Word) (h : 16 ≤ c ∨ s.head.awake = false) :
    exec (.registerWrite c a v) s = .next s := by
  rw [exec_registerWrite, execRegisterWrite, if_pos (by simpa using h)]

section running
variable (s : State) {c : Nat} (a : Nat) (v : Word) (hc : c < 16) (hs : s.head.awake = true)
include hc hs

/-- A write to an address without a register is discarded and raises source 929. -/
theorem exec_registerWrite_unmapped (hr : regRow a = none) :
    exec (.registerWrite c a v) s = .next { s with head := s.head.raise 929 } := by
  rw [exec_registerWrite, execRegisterWrite, if_neg (by simp [hc, hs])]
  simp only [hr]

/-- A write to a register whose actions do not reach head memory is a write of the head. -/
theorem exec_registerWrite_mapped {r : RegRow} (hr : regRow a = some r) (ht : a ≠ Adr.TSI_CTRL) (hj : a ≠ Adr.CMP_JOB_CTRL) :
    exec (.registerWrite c a v) s = .next { s with head := s.head.regWrite c r a v } := by
  rw [exec_registerWrite, execRegisterWrite, if_neg (by simp [hc, hs])]
  simp only [hr, ht, hj, or_self, if_false]

end running

/-- An access to an address without a register raises source 929. -/
theorem Head.strayAccess_unmapped (h : Head) {a : Nat} (hr : regRow a = none) : h.strayAccess a = h.raise 929 := by
  rw [Head.strayAccess, hr]
  rfl

/-- An access to an address that has a register raises nothing. -/
theorem Head.strayAccess_mapped (h : Head) {a : Nat} (hr : (regRow a).isSome = true) : h.strayAccess a = h := by
  rw [Head.strayAccess, if_neg (by simpa using Option.isSome_iff_ne_none.1 hr)]

/-- The row UNMAPPED_ACCESS has an effect only while the cores run and the address has no register. -/
theorem exec_unmappedAccess_noEffect (s : State) (a : Nat) (w : Bool) (h : s.head.awake = false ∨ (regRow a).isSome = true) :
    exec (.unmappedAccess a w) s = .next s := by
  rw [exec_unmappedAccess]
  obtain hs | hr := h
  · simp [hs]
  · simp [Head.strayAccess_mapped _ hr]

theorem exec_unmappedAccess_unmapped (s : State) (a : Nat) (w : Bool) (hs : s.head.awake = true) (hr : regRow a = none) :
    exec (.unmappedAccess a w) s = .next { s with head := s.head.raise 929 } := by
  rw [exec_unmappedAccess, if_pos hs, Head.strayAccess_unmapped _ hr]

/-- Settles O51, from the cases of the two rows and the bits of a written register. -/
theorem registerWritesFollowTheFieldTypes : Obligations.RegisterWritesFollowTheFieldTypes := by
  unfold Obligations.RegisterWritesFollowTheFieldTypes
  refine ⟨?noCore, ?unmappedWrite, ?unmapped, ?mapped, ?bits, ?store, ?write, ?closed⟩
  case noCore => exact fun s c a v h => ⟨s.head, exec_registerWrite_noCore s c a v h, rfl⟩
  case unmappedWrite => exact fun s c a v hc hs hr => ⟨_, exec_registerWrite_unmapped s a v hc hs hr, rfl⟩
  case unmapped => exact fun s a w hs hr => ⟨_, exec_unmappedAccess_unmapped s a w hs hr, rfl⟩
  case mapped => exact fun s a w h => ⟨s.head, exec_unmappedAccess_noEffect s a w h, rfl⟩
  case bits => exact fun r armed old v i hi => r.written_getLsbD armed old v hi
  case store =>
    rintro s r a v _ rfl
    exact ⟨s.head.storeFields_accepted r a v, s.head.storeFields_refused_src r a v⟩
  case write =>
    intro s c a v r hc hs hr ht hj hd he hch
    exact ⟨_, exec_registerWrite_mapped s a v hc hs hr ht hj, s.head.regWrite_outside_channels c r a v hd he hch⟩
  case closed =>
    intro s c a v r hc hs hr ht hj hd
    exact ⟨_, exec_registerWrite_mapped s a v hc hs hr ht hj, s.head.regWrite_closed c r a v hd⟩

end Sys2Proof.Machine
end

section
/-!
SUPPORT. Writers without data in hand (01_head_architecture.md R13, R18; 03_host_queues_and_ordering.md R59, R60): the dispatch of a
Write to a booth, and the ranges that Write Zeroes and Dataset Management map to the zero extent.
-/

namespace Sys2Proof.Machine

open Sys2Proof

/-- An update that keeps the contexts' numbers is read back from the context it was made on. -/
theorem Head.ctx?_modCtx_self (h : Head) (n : Nat) (f : Ctx → Ctx) (hf : ∀ x, (f x).id = x.id) :
    (h.modCtx n f).hqe.ctx? n = (h.hqe.ctx? n).map f := by
  have hid : ((fun x => x.id == n) ∘ fun x : Ctx => if x.id = n then f x else x) = fun x => x.id == n := by
    funext x
    by_cases hx : x.id = n <;> simp [hx, hf]
  unfold Head.modCtx Hqe.ctx?
  rw [Head.modHqe_hqe, ← List.map_append, List.find?_map, hid]
  refine Option.map_congr fun x hx => ?_
  rw [if_pos (by simpa using List.find?_some hx)]

/-- A Descriptor is an output; the head stays as it was. -/
theorem Head.describe_frame (h : Head) (t : Troupe) (c : Ctx) : h.describe t c = { h with out := (h.describe t c).out } := by
  unfold Head.describe
  rw [when_eq]
  split <;> rfl

/-- A Write whose data is still to come runs at the booth that took it. -/
theorem Head.dispatchWrite_noData {h h₁ : Head} {c : Ctx} {ns : Namespace} {site : Nat} (hn : h.hqe.ns? c.cap.nsid = some ns)
    (hd : h.dispatchSite c ns = (h₁, some site)) (hc : c.cap.inCapsule = none) :
    h.dispatchWrite c = (h₁.modCtx c.id fun x => { x with phase := .running, site := site }).describe ns.troupe c := by
  simp only [Head.dispatchWrite, hn, hd, hc]

/-- With the AD bit clear nothing is deallocated. -/
theorem Head.deallocate_noAd (h : Head) (c : Ctx) (rs : List (Nat × Nat)) (ha : c.cap.dw11.getLsbD 2 = false) :
    h.deallocate c rs = h.complete c stSuccess 0 := by
  unfold Head.deallocate
  rw [ha]
  rfl

/-- Ranges that came in the capsule, in the namespace's range and past the fence, are mapped to the zero extent. -/
theorem Head.deallocate_inCapsule {h : Head} {c : Ctx} {ns : Namespace} (rs : List (Nat × Nat)) (ha : c.cap.dw11.getLsbD 2 = true)
    (hc : c.cap.inCapsule.isSome = true) (hn : h.hqe.ns? c.cap.nsid = some ns) (hl : lengthRefuses ns c.cap c.ranges = none)
    (hw : (h.modCtx c.id fun x => { x with ranges := c.ranges }).mustWait c = false) (hs : h.noSpace ns.troupe ns.domain = false)
    (hm : h.mayIssue ns.troupe = true) :
    h.deallocate c rs = (h.modCtx c.id fun x => { x with ranges := c.ranges }).zeroWriter c ns c.ranges := by
  have hs' : (h.modCtx c.id fun x => { x with ranges := c.ranges }).noSpace ns.troupe ns.domain = false := hs
  have hm' : (h.modCtx c.id fun x => { x with ranges := c.ranges }).mayIssue ns.troupe = true := hm
  simp [Head.deallocate, ha, hc, hn, hl, hw, hs', hm']

/-- A writer of one range that is not empty maps that range and waits for the beat it was mapped in. -/
theorem Head.zeroWriter_singleton (h : Head) (c : Ctx) (ns : Namespace) (lba n : Nat) :
    h.zeroWriter c ns [(lba, n + 1)] =
      (((h.describe ns.troupe c).zeroRange ns.troupe ns.domain ns.nsid lba (n + 1)).modCtx c.id fun x => { x with
        phase := .waitAck, issued := true
        lastBeat := some ((((h.describe ns.troupe c).zeroRange ns.troupe ns.domain ns.nsid lba (n + 1)).pair.trp ns.troupe).openBeat) }).tryAck
          c.id := rfl

section ready
variable {s : State} {n : Nat} {c : Ctx} {ns : Namespace}

/-- A ready Write of a namespace with room is dispatched. -/
theorem exec_write_room (hr : s.holdsReady n c false opWrite) (hn : s.head.hqe.ns? c.cap.nsid = some ns)
    (hs : s.head.noSpace ns.troupe ns.domain = false) : exec (.write n) s = .next { s with head := s.head.dispatchWrite c } := by
  show execWrite n s = _
  simp [execWrite, ready_of_holds hr, hn, hs]

/-- A ready Write Zeroes of a namespace with room, whose map updates may issue, maps its range. -/
theorem exec_writeZeroes_room (hr : s.holdsReady n c false opWriteZeroes) (hn : s.head.hqe.ns? c.cap.nsid = some ns)
    (hs : s.head.noSpace ns.troupe ns.domain = false) (hm : s.head.mayIssue ns.troupe = true) :
    exec (.writeZeroes n) s = .next { s with head := s.head.zeroWriter c ns [(c.cap.slba, c.cap.nlb + 1)] } := by
  show execWriteZeroes n s = _
  simp [execWriteZeroes, ready_of_holds hr, hn, hs, hm]

/-- A ready Dataset Management command deallocates the ranges that came with it. -/
theorem exec_datasetManagement_ready (rs : List (Nat × Nat)) (hr : s.holdsReady n c false opDsm) :
    exec (.datasetManagement n rs) s =
      .next { s with head := s.head.deallocate c (rs.take (c.cap.dw10.toNat % 256 + 1)) } := by
  show execDatasetManagement n rs s = _
  simp [execDatasetManagement, ready_of_holds hr]

end ready

/-- Settles O10, row by row from what each row answers for a ready command. -/
theorem writersDispatchAndMapZeroes : Obligations.WritersDispatchAndMapZeroes := by
  unfold Obligations.WritersDispatchAndMapZeroes
  refine ⟨?write, ?zeroes, ?noAd, ?ad⟩
  case write =>
    intro s n c ns h₁ site hr hn hs hc hd
    refine ⟨_, exec_write_room hr hn hs, ?_⟩
    rw [Head.dispatchWrite_noData hn hd hc, Head.describe_frame]
    exact ⟨h₁.ctx?_modCtx_self c.id _ fun _ => rfl, rfl⟩
  case zeroes =>
    intro s n c ns hr hn hs hm
    exact ⟨_, exec_writeZeroes_room hr hn hs hm, Head.zeroWriter_singleton ..⟩
  case noAd =>
    intro s n c rs hr ha hq
    refine ⟨_, exec_datasetManagement_ready rs hr, ?_⟩
    rw [Head.deallocate_noAd _ _ _ ha]
    obtain ⟨sq, e⟩ := complete_out s.head c stSuccess 0 hq
    exact ⟨⟨_, sq, by rw [e]; rfl⟩, complete_frame ..⟩
  case ad =>
    intro s n c ns rs hr ha hc hn hl hw hs hm
    exact ⟨_, exec_datasetManagement_ready rs hr, Head.deallocate_inCapsule _ ha hc hn hl hw hs hm⟩

end Sys2Proof.Machine
end

section
/-!
SUPPORT. The edges of the Wheel (10_shelves_and_the_wheel.md R231 to R233; 01_head_architecture.md R17): the counts that locks, offsets
and steps leave alone, and what a seal and each edge do at their time and do not do before it.
-/

namespace Sys2Proof.Machine

open Sys2Proof

/-! ## Records leave the Wheel alone -/

@[simp] theorem Head.dropRecord_whl (h : Head) (sev : Nat) : (h.dropRecord sev).whl = h.whl := by
  unfold Head.dropRecord
  dsimp only
  split
  · exact Head.raise_whl ..
  · rfl

@[simp] theorem Head.enqueue_whl (h : Head) (sev src code : Nat) (payload : Bytes) : (h.enqueue sev src code payload).whl = h.whl := by
  unfold Head.enqueue
  split
  · exact Head.dropRecord_whl ..
  · rfl

@[simp] theorem Head.report_whl (h : Head) (n sev : Nat) (payload : Bytes) : (h.report n sev payload).whl = h.whl := by
  simp [Head.report, Head.record]

/-! ## The counts of the Wheel -/

/-- Where the Wheel stands, and which cycles are done and reserved: slot, slot start, cycle, cycle done, cycles reserved. -/
def Whl.counts (w : Whl) : Nat × Nat × Nat × Option Nat × Nat := (w.slot, w.slotAt, w.cycle, w.cycleDone, w.reserved)

theorem Whl.counts_inj {w : Whl} {slot at_ cycle : Nat} {done : Option Nat} {reserved : Nat}
    (h : w.counts = (slot, at_, cycle, done, reserved)) :
    w.slot = slot ∧ w.slotAt = at_ ∧ w.cycle = cycle ∧ w.cycleDone = done ∧ w.reserved = reserved := by
  simpa only [Whl.counts, Prod.mk.injEq] using h

/-- A reading of the head: the counts of the Wheel, and Calliope's record. -/
def Head.dial (h : Head) : (Nat × Nat × Nat × Option Nat × Nat) × Cal := (h.whl.counts, h.cal)

/-- A conditional change of the head that keeps a reading of it keeps that reading either way. -/
theorem Head.when_reading {α : Type} (r : Head → α) {h : Head} {b : Bool} {f : Head → Head} (hf : r (f h) = r h) :
    r (h.when b f) = r h := by
  cases b
  · rfl
  · exact hf

theorem Head.emit_dial (h : Head) (o : Out) : (h.emit o).dial = h.dial := rfl
theorem Head.modPair_dial (h : Head) (f : Pair → Pair) : (h.modPair f).dial = h.dial := rfl
theorem Head.raise_dial (h : Head) (n : Nat) : (h.raise n).dial = h.dial := by simp [Head.dial]

/-- A step lengthens the cycle and touches none of the counts. -/
theorem Head.startStep_counts (h : Head) (o : Int) : (h.startStep o).whl.counts = h.whl.counts := by
  simp [Head.startStep, Whl.counts]

/-- A measured offset changes the locks, the sources and the step that is due, and neither the counts nor Calliope's record. -/
theorem Head.checkOffset_dial (h : Head) (o : Option Int) : (h.checkOffset o).dial = h.dial := by
  unfold Head.checkOffset
  cases o with
  | none =>
    dsimp only
    split <;> rfl
  | some o =>
    dsimp -zeta only
    extract_lets was n g due stepped
    have hg : g.dial = h.dial := by
      simp only [g, Head.dial, Head.modWhl_whl, Head.modWhl_cal]
      split <;> rfl
    have hs : stepped.dial = h.dial := hg
    clear_value g stepped
    split
    · exact hg
    split
    · exact (Head.when_reading Head.dial (Head.raise_dial ..)).trans hg
    · exact (Head.when_reading Head.dial (Head.raise_dial ..)).trans hs

/-! ## Slot starts -/

/-- The Wheel stands still, or the time of the slot start has not come. -/
theorem Head.slotStart_early {h : Head} (o : Option Int)
    (he : h.whl.running = false ∨ h.now < h.whl.slotAt + 16 + (if h.whl.slot = 255 then h.whl.stretch else 0)) :
    h.slotStart o = h := by
  unfold Head.slotStart
  exact if_pos (by simpa using he)

/-- At its time a slot start counts the slot on, and the cycle after slot 255, and hands the next slot's plan over. -/
theorem Head.slotStart_due {h : Head} (o : Option Int) (hr : h.whl.running = true)
    (ht : h.whl.slotAt + 16 + (if h.whl.slot = 255 then h.whl.stretch else 0) ≤ h.now) :
    (h.slotStart o).whl.counts = ((h.whl.slot + 1) % 256, h.now,
      (if h.whl.slot = 255 then (h.whl.cycle + 1) % 2 ^ 40 else h.whl.cycle), h.whl.cycleDone, h.whl.reserved) ∧
    (h.slotStart o).cal.plan = h.cal.nextPlan := by
  unfold Head.slotStart
  extract_lets w last moved takes taken pulsed driven checked told planned
  rw [if_neg (by simp [w, last, hr, ht])]
  have hd : told.dial = moved.dial :=
    calc told.dial = checked.dial :=
          Head.when_reading Head.dial ((Head.emit_dial ..).trans ((Head.emit_dial ..).trans (Head.modPair_dial ..)))
      _ = driven.dial := Head.checkOffset_dial ..
      _ = pulsed.dial := Head.when_reading Head.dial (Head.emit_dial ..)
      _ = taken.dial := Head.emit_dial ..
      _ = moved.dial := Head.when_reading Head.dial (Head.raise_dial ..)
  clear_value told
  obtain ⟨hw, hc⟩ := Prod.mk.inj hd
  exact ⟨hw, congrArg Cal.nextPlan hc⟩

/-! ## Seals -/

/-- The Wheel stands still, the next slot is sealed, or the time of its seal has not come. -/
theorem Head.sealSlot_early {h : Head} (he : h.whl.running = false ∨ h.whl.sealedFor = h.whl.slotCount + 1 ∨
      h.now < h.whl.slotAt + 14 + (if h.whl.slot = 255 then h.whl.stretch else 0)) : h.sealSlot = h := by
  unfold Head.sealSlot
  exact if_pos (by simpa using he)

/-- With no bundle waiting a seal launches nothing and hands the next slot's plan over. -/
theorem Head.sealSlot_noBundle {h : Head} (hr : h.whl.running = true) (hn : h.whl.sealedFor ≠ h.whl.slotCount + 1)
    (ht : h.whl.slotAt + 14 + (if h.whl.slot = 255 then h.whl.stretch else 0) ≤ h.now)
    (hb : h.pty.bundles.filter (·.launched.isNone) = []) :
    h.sealSlot = { h with
      whl := { h.whl with sealedFor := h.whl.slotCount + 1, launching := (h.whl.slotCount + 1, 0) :: h.whl.launching }
      cal := { h.cal with
        nextPlan := h.planCounts (h.whl.slotCount + 1) []
        planned := ((h.dp.booths.filter (·.holder.isSome)).length, h.pwr.duty, h.runningRings.length) } } := by
  unfold Head.sealSlot
  dsimp only
  rw [if_neg (by simp [hr, hn, ht]), hb]
  rfl

/-! ## Beat edges -/

/-- The Wheel stands still, or the slot in hand begins no beat, or that beat's edge has been taken. -/
theorem Head.beatEdge_none {h : Head} (he : h.whl.running = false ∨ h.whl.slot % 16 ≠ 0 ∨ h.whl.edgeDone = some h.whl.beat) :
    h.beatEdge = h := by
  unfold Head.beatEdge
  exact if_pos (by simpa using he)

/-- A beat edge closes the beats of both troupes; then what takes effect at a beat edge does. -/
theorem Head.beatEdge_due {h h₁ h₂ : Head} (hr : h.whl.running = true) (hs : h.whl.slot % 16 = 0)
    (hd : h.whl.edgeDone ≠ some h.whl.beat)
    (h₁_eq : h₁ = ((((h.modWhl fun w => { w with edgeDone := some w.beat }).beatTroupe .a).beatTroupe .b).setRates).governBeat.beatLink)
    (h₂_eq : h₂ = (h₁.modCal fun c => { c with volume := h₁.flushVolume }).applyStaged) :
    h.beatEdge = h₂.placeWaiting.tellShelves.tryAcks.activationStep := by
  unfold Head.beatEdge
  rw [if_neg (by simp [hr, hs, hd]), h₂_eq, h₁_eq]

/-! ## Cycle edges -/

/-- The Wheel stands still, or the slot in hand begins no cycle, or that cycle's edge has been taken. -/
theorem Head.cycleEdge_none {h : Head} (he : h.whl.running = false ∨ h.whl.slot ≠ 0 ∨ h.whl.cycleDone = some h.whl.cycle) :
    h.cycleEdge = h := by
  unfold Head.cycleEdge
  exact if_pos (by simpa using he)

section due
variable {h : Head} (hr : h.whl.running = true) (hs : h.whl.slot = 0) (hd : h.whl.cycleDone ≠ some h.whl.cycle)
include hr hs hd

/-- A cycle edge is noted as done, and reserves counts ahead when fewer than 2 are left. -/
theorem Head.cycleEdge_counts : h.cycleEdge.whl.counts = (h.whl.slot, h.whl.slotAt, h.whl.cycle, some h.whl.cycle,
    if h.whl.reserved ≤ h.whl.cycle + 1 then h.whl.reserved + 65536 else h.whl.reserved) := by
  unfold Head.cycleEdge
  extract_lets w stepped noted learning told locked slewed
  rw [if_neg (by simp [w, hr, hs, hd])]
  have ht : told.whl = noted.whl := Head.when_reading Head.whl rfl
  have hm : slewed.whl.counts = told.whl.counts := by
    clear_value told locked
    simp only [slewed]
    split
    · split
      · rfl
      · split
        · rfl
        · exact Head.startStep_counts ..
    · split
      · split
        · rfl
        · exact Head.startStep_counts ..
      · rfl
  calc (slewed.relock (slewed.whl.lock == 5)).whl.counts = slewed.whl.counts := rfl
    _ = noted.whl.counts := by rw [hm, ht]
    _ = _ := rfl

/-- A head that neither drives the Wheel nor has a step due ends the cycle edge with no cycle lengthened. -/
theorem Head.cycleEdge_stretch (hf : h.whl.driver = false) (hn : h.whl.stepDue = false) : h.cycleEdge.whl.stretch = 0 := by
  unfold Head.cycleEdge
  extract_lets w stepped noted learning told locked slewed
  rw [if_neg (by simp [w, hr, hs, hd])]
  have ht : told.whl = noted.whl := Head.when_reading Head.whl rfl
  have hdrv : told.whl.driver = false := by simp [ht, noted, hf]
  have hstep : told.whl.stepDue = false := by rw [ht]; exact hn
  have hm : slewed = told := by simp [slewed, locked, hdrv, hstep]
  calc (slewed.relock (slewed.whl.lock == 5)).whl.stretch = slewed.whl.stretch := rfl
    _ = noted.whl.stretch := by rw [hm, ht]
    _ = 0 := rfl

end due

/-! ## The rows of the edges -/

theorem exec_slotStart (o : Option Int) (s : State) : exec (.slotStart o) s = .next { s with head := s.head.slotStart o } := rfl
theorem exec_slotSeal (s : State) : exec .slotSeal s = .next { s with head := s.head.sealSlot } := rfl
theorem exec_beatEdge (s : State) : exec .beatEdge s = .next { s with head := s.head.beatEdge } := rfl
theorem exec_cycleEdge (s : State) : exec .cycleEdge s = .next { s with head := s.head.cycleEdge } := rfl

/-- Settles O36, row by row from what a seal and each edge do at their time and before it. -/
theorem wheelSlotsBeatsAndCycles : Obligations.WheelSlotsBeatsAndCycles := by
  unfold Obligations.WheelSlotsBeatsAndCycles
  refine ⟨?slotEarly, ?slot, ?sealEarly, ?sealed, ?beatNone, ?beat, ?cycleNone, ?cycle⟩
  case slotEarly => exact fun s o he => ⟨_, exec_slotStart o s, Head.slotStart_early o he⟩
  case slot =>
    intro s o hr ht
    obtain ⟨hw, hp⟩ := Head.slotStart_due o hr ht
    obtain ⟨hslot, hat, hcycle, -, -⟩ := Whl.counts_inj hw
    exact ⟨_, exec_slotStart o s, hslot, hat, hcycle, hp⟩
  case sealEarly => exact fun s he => ⟨_, exec_slotSeal s, Head.sealSlot_early he⟩
  case sealed =>
    intro s hr hn ht hb
    refine ⟨_, exec_slotSeal s, ?_⟩
    rw [Head.sealSlot_noBundle hr hn ht hb]
    exact ⟨rfl, rfl, rfl, rfl, rfl⟩
  case beatNone => exact fun s he => ⟨_, exec_beatEdge s, Head.beatEdge_none he⟩
  case beat => exact fun s h₁ h₂ hr hs hd e₁ e₂ => ⟨_, exec_beatEdge s, Head.beatEdge_due hr hs hd e₁ e₂⟩
  case cycleNone => exact fun s he => ⟨_, exec_cycleEdge s, Head.cycleEdge_none he⟩
  case cycle =>
    intro s hr hs hd
    obtain ⟨-, -, hcycle, hdone, hres⟩ := Whl.counts_inj (Head.cycleEdge_counts hr hs hd)
    exact ⟨_, exec_cycleEdge s, hdone, hcycle, hres, Head.cycleEdge_stretch hr hs hd⟩

end Sys2Proof.Machine
end

section
/-!
SUPPORT. The image loader up to the arm (02_thiez_structural_image.md R32 to R36): what a load, the end of its copy, a check and its
end, an arm, a cancel and a discard do in each stage, and the parts of the head that a record leaves alone.
-/

namespace Sys2Proof.Machine

open Sys2Proof

/-! ## Reports change the sources, the condition bits and the Attic alone -/

theorem Head.raise_frame (h : Head) (n : Nat) : h.raise n = { h with regs := (h.raise n).regs, brk := (h.raise n).brk } := by
  unfold Head.raise
  split <;> rfl

theorem Head.dropRecord_frame (h : Head) (sev : Nat) : h.dropRecord sev =
    { h with regs := (h.dropRecord sev).regs, brk := (h.dropRecord sev).brk, atc := (h.dropRecord sev).atc } := by
  unfold Head.dropRecord
  dsimp only
  split
  · rw [Head.raise_frame]
  · rfl

theorem Head.enqueue_frame (h : Head) (sev src code : Nat) (payload : Bytes) : h.enqueue sev src code payload =
    { h with regs := (h.enqueue sev src code payload).regs, brk := (h.enqueue sev src code payload).brk,
             atc := (h.enqueue sev src code payload).atc } := by
  unfold Head.enqueue
  split
  · exact Head.dropRecord_frame h sev
  · rfl

theorem Head.report_frame (h : Head) (n sev : Nat) (payload : Bytes) : h.report n sev payload =
    { h with regs := (h.report n sev payload).regs, brk := (h.report n sev payload).brk, atc := (h.report n sev payload).atc } := by
  unfold Head.report Head.record
  rw [Head.enqueue_frame, Head.raise_frame]

@[simp] theorem Head.report_tsi (h : Head) (n sev : Nat) (payload : Bytes) : (h.report n sev payload).tsi = h.tsi := by
  rw [Head.report_frame]

/-! ## Load -/

theorem exec_tsiLoad (s : State) : exec .tsiLoad s = .next s.tsiLoad := rfl

/-- A load in ARMED or APPLYING, or of more than 8 MiB, is refused. -/
theorem State.tsiLoad_refused {s : State}
    (hr : s.head.tsi.state = 6 ∨ s.head.tsi.state = 7 ∨ 0x800000 < s.head.fld Adr.TSI_SRC_LEN 23 0) :
    s.tsiLoad = { s with head := s.head.loadRefused } := by
  unfold State.tsiLoad
  exact if_pos (by tauto)

/-- With nothing staged there is nothing to merge with: a load outside CHECKING copies its bytes. -/
theorem State.tsiLoad_copies {s : State} (h6 : s.head.tsi.state ≠ 6) (h7 : s.head.tsi.state ≠ 7) (h3 : s.head.tsi.state ≠ 3)
    (hs : s.head.tsi.staging = none) (hn : s.head.fld Adr.TSI_SRC_LEN 23 0 ≤ 0x800000) :
    s.tsiLoad = { s with head := s.head.modTsi fun t => { t with
      state := 1, checked := none
      loading := some (s.dmaBytes (s.head.fld Adr.TSI_SRC_LO 31 6 * 64 + s.head.fld Adr.TSI_SRC_HI 15 0 * 2 ^ 32)
        (s.head.fld Adr.TSI_SRC_LEN 23 0)) } } := by
  unfold State.tsiLoad
  dsimp only
  rw [if_neg (by simp [h6, h7, hs, hn]), min_eq_left hn, when_eq, if_neg (by simp [h3])]

/-- Only a load under way has an end. -/
theorem exec_tsiLoadDone_idle {s : State} (e : Bool) (h1 : s.head.tsi.state ≠ 1) : exec (.tsiLoadDone e) s = .next s := by
  show execTsiLoadDone e s = _
  simp [execTsiLoadDone, h1]

/-- The end of a copy stages the parsed image, or ends in FAILED when the source failed. -/
theorem exec_tsiLoadDone_loading {s : State} {bs : Bytes} (e : Bool) (h1 : s.head.tsi.state = 1)
    (hl : s.head.tsi.loading = some bs) :
    exec (.tsiLoadDone e) s = .next { s with head := s.head.modTsi fun t =>
      if e then { t with state := 5, loading := none }
      else { t with state := 2, loading := none, staging := some (mergeStaged t.staging (parseImage bs)) } } := by
  show execTsiLoadDone e s = _
  simp [execTsiLoadDone, h1, hl]

/-! ## Check -/

theorem exec_tsiCheck (s : State) : exec .tsiCheck s = .next { s with head := s.head.tsiCheck } := rfl
theorem exec_tsiCheckDone (r : Bytes) (s : State) : exec (.tsiCheckDone r) s = .next { s with head := s.head.checkDone r } := rfl

section checking
variable {h : Head} {i : Image} {r : Bytes} (h3 : h.tsi.state = 3) (hi : h.tsi.staging = some i)
include h3 hi

/-- A check that ends with code 0 leaves CHECKED with the merged image. -/
theorem Head.checkDone_good (hc : (h.checkImage i r).1 = 0) :
    h.checkDone r = h.modTsi fun t => { t with state := 4, check := h.checkImage i r, checked := some (h.merged i) } := by
  simp [Head.checkDone, h3, hi, hc]

/-- A check that ends with another code leaves FAILED and a report of source 932. -/
theorem Head.checkDone_bad (hc : (h.checkImage i r).1 ≠ 0) :
    h.checkDone r = (h.modTsi fun t => { t with state := 5, check := h.checkImage i r, checked := none }).report 932 sevNotice
      (leBytes 1 (h.checkImage i r).1 ++ leBytes 1 (h.checkImage i r).2.1 ++ leBytes 2 (h.checkImage i r).2.2) := by
  simp [Head.checkDone, h3, hi, hc]

end checking

/-! ## Arm, cancel, discard -/

theorem exec_tsiArm (s : State) : exec .tsiArm s = .next { s with head := s.head.tsiArm } := rfl
theorem exec_tsiCancel (s : State) : exec .tsiCancel s = .next { s with head := s.head.tsiCancel } := rfl
theorem exec_tsiDiscard (s : State) : exec .tsiDiscard s = .next { s with head := s.head.tsiDiscard } := rfl

/-- Only a CHECKED image is armed. -/
theorem Head.tsiArm_unchecked {h : Head} (h4 : h.tsi.state ≠ 4) : h.tsiArm = h := by
  simp [Head.tsiArm, h4]

section arming
variable {h : Head} {raw : List (Nat × Bytes)} {i : Image} (h4 : h.tsi.state = 4) (hr : h.tsi.checked = some raw)
  (hi : h.tsi.staging = some i) (hw : rawOf raw 9 = rawOf h.tsi.raw 9) (hb : (h.reg Adr.TSI_ARM_BEAT).toNat ≠ 0)
include h4 hr hi hw hb

/-- An arm for an edge that is too near sets ARM_LATE alone. -/
theorem Head.tsiArm_late (he : h.edgeOk (h.fullBeat (h.reg Adr.TSI_ARM_BEAT).toNat) = false) :
    h.tsiArm = h.orReg Adr.TSI_STATUS 0x20 := by
  simp [Head.tsiArm, h4, hr, hi, hw, hb, he]

/-- An arm for an edge far enough ahead leaves ARMED for that edge. -/
theorem Head.tsiArm_inTime (he : h.edgeOk (h.fullBeat (h.reg Adr.TSI_ARM_BEAT).toNat) = true) :
    h.tsiArm = h.modTsi fun t => { t with
      state := 6
      armed := some { imageId := i.imageId, raw := raw, beat := h.fullBeat (h.reg Adr.TSI_ARM_BEAT).toNat, derived := false
                      pairScoped := pairDigest raw != pairDigest h.tsi.raw, affected := affectedSites t.raw raw } } := by
  simp [Head.tsiArm, h4, hr, hi, hw, hb, he]

end arming

/-- A cancel before the commit point leaves CHECKED. -/
theorem Head.tsiCancel_armed {h : Head} (h6 : h.tsi.state = 6) (hp : h.tsi.pastCommit = false) :
    h.tsiCancel = h.modTsi fun t => { t with state := 4, armed := none } :=
  if_pos (by simp [h6, hp])

theorem Head.tsiCancel_unarmed {h : Head} (h6 : h.tsi.state ≠ 6) : h.tsiCancel = h := if_neg (by simp [h6])

/-- Settles O47, stage by stage from what each row does in it. -/
theorem thiezLoadsChecksAndArms : Obligations.ThiezLoadsChecksAndArms := by
  unfold Obligations.ThiezLoadsChecksAndArms
  refine ⟨?loadRefused, ?load, ?loadDone, ?loadDoneIdle, ?check, ?checkIdle, ?checkDone, ?arm, ?armIdle, ?armed, ?cancelIdle, ?discard⟩
  case loadRefused =>
    intro s hr
    refine ⟨s.head.loadRefused, ?_, rfl, ?_⟩
    · rw [exec_tsiLoad, State.tsiLoad_refused hr]
    · exact (Head.raise_tsi ..).trans (Head.orReg_tsi ..)
  case load =>
    rintro s _ _ h6 h7 h3 hs rfl hn rfl
    refine ⟨_, ?_, rfl⟩
    rw [exec_tsiLoad, State.tsiLoad_copies h6 h7 h3 hs hn]
    rfl
  case loadDone =>
    exact fun s bs h1 hl => ⟨⟨_, exec_tsiLoadDone_loading true h1 hl, rfl⟩, ⟨_, exec_tsiLoadDone_loading false h1 hl, rfl⟩⟩
  case loadDoneIdle => exact fun s e h1 => ⟨s.head, exec_tsiLoadDone_idle e h1, rfl⟩
  case check => exact fun s h2 => ⟨_, exec_tsiCheck s, if_pos h2⟩
  case checkIdle => exact fun s h2 => ⟨_, exec_tsiCheck s, if_neg h2⟩
  case checkDone =>
    intro s r i h3 hi
    refine ⟨fun hc => ⟨_, exec_tsiCheckDone r s, Head.checkDone_good h3 hi hc⟩, fun hc => ⟨_, exec_tsiCheckDone r s, ?_⟩⟩
    rw [Head.checkDone_bad h3 hi hc]
    exact ⟨Head.report_src_self _ _ _ (by decide), Head.report_tsi ..⟩
  case arm =>
    rintro s raw i _ h4 hr hi hw hb rfl
    refine ⟨fun he => ⟨_, exec_tsiArm s, Head.tsiArm_late h4 hr hi hw hb he⟩, fun he => ⟨_, exec_tsiArm s, ?_⟩⟩
    rw [Head.tsiArm_inTime h4 hr hi hw hb he]
    exact ⟨rfl, rfl, _, rfl, rfl, rfl, rfl, rfl⟩
  case armIdle => exact fun s h4 => ⟨_, exec_tsiArm s, Head.tsiArm_unchecked h4⟩
  case armed =>
    exact fun s h6 => ⟨fun hp => ⟨_, exec_tsiCancel s, Head.tsiCancel_armed h6 hp⟩, ⟨_, exec_tsiDiscard s, if_pos (.inl h6)⟩⟩
  case cancelIdle => exact fun s h6 => ⟨_, exec_tsiCancel s, Head.tsiCancel_unarmed h6⟩
  case discard => exact fun s h6 h7 => ⟨_, exec_tsiDiscard s, if_neg (by simp [h6, h7])⟩

end Sys2Proof.Machine
end

section
/-!
SUPPORT. The Strongroom's record under the rest of the head (06_cipher_and_strongroom.md R127, R142): what leaves it alone, from a
report to the end of the commands in hand at an alarm.
-/

namespace Sys2Proof.Machine

open Sys2Proof

/-! ## Lists and conditions -/

/-- A change of the head for each entry of a list keeps a reading that every single change keeps. -/
theorem Head.forEach_reading {α β : Type} (r : Head → β) {f : Head → α → Head} (hf : ∀ h x, r (f h x) = r h) (h : Head) (l : List α) :
    r (h.forEach l f) = r h := by
  unfold Head.forEach
  induction l generalizing h with
  | nil => rfl
  | cons x l ih => exact (ih (f h x)).trans (hf h x)

theorem Head.forEach_stg {α : Type} {f : Head → α → Head} (hf : ∀ h x, (f h x).stg = h.stg) (h : Head) (l : List α) :
    (h.forEach l f).stg = h.stg :=
  Head.forEach_reading Head.stg hf h l

theorem Head.when_stg {h : Head} {b : Bool} {f : Head → Head} (hf : (f h).stg = h.stg) : (h.when b f).stg = h.stg :=
  Head.when_reading Head.stg hf

/-! ## Reports and completions -/

@[simp] theorem Head.report_stg (h : Head) (n sev : Nat) (payload : Bytes) : (h.report n sev payload).stg = h.stg := by
  rw [Head.report_frame]

@[simp] theorem Head.complete_stg (h : Head) (c : Ctx) (st : Status) (d : Nat) : (h.complete c st d).stg = h.stg := by
  rw [complete_frame]

/-- What is done to a context keeps the Strongroom if it does so for every context. -/
theorem Head.withCtx_stg {h : Head} {n : Nat} {f : Ctx → Head} (hf : ∀ c, (f c).stg = h.stg) : (h.withCtx n f).stg = h.stg := by
  unfold Head.withCtx
  split
  · rfl
  · exact hf _

/-! ## Troupes and events (R241, R261) -/

@[simp] theorem Head.postOn_stg (h : Head) (n ctx : Nat) (e : AsyncEvent) : (h.postOn n ctx e).stg = h.stg :=
  Head.withCtx_stg fun _ => Head.complete_stg ..

@[simp] theorem Head.postTo_stg (h : Head) (e : AsyncEvent) (n : Nat) : (h.postTo e n).stg = h.stg := by
  unfold Head.postTo
  split
  · rfl
  split
  · rfl
  split
  · rfl
  · exact Head.postOn_stg ..

@[simp] theorem Head.modTrp_stg (h : Head) (t : Troupe) (f : Trp → Trp) : (h.modTrp t f).stg = h.stg := by
  unfold Head.modTrp
  extract_lets old g
  split
  · rfl
  · exact Head.forEach_stg (fun _ _ => Head.postTo_stg ..) ..

@[simp] theorem Head.handAway_stg (h : Head) (t : Troupe) (activation leaving : Bool) : (h.handAway t activation leaving).stg = h.stg := by
  unfold Head.handAway Head.handOver
  dsimp only
  split
  · rfl
  · simp

/-! ## Map updates (R100, R162, R244) -/

@[simp] theorem Head.issue_stg (h : Head) (t : Troupe) (r : OrderRec) : (h.issue t r).stg = h.stg :=
  Head.when_stg rfl

@[simp] theorem Head.modChunk_stg (h : Head) (u : Nat) (f : Chunk → Chunk) : (h.modChunk u f).stg = h.stg := rfl
@[simp] theorem Head.dirtyPage_stg (h : Head) (t : Troupe) (page : Nat) : (h.dirtyPage t page).stg = h.stg := rfl

@[simp] theorem Head.incRef_stg (h : Head) (u : Nat) : (h.incRef u).stg = h.stg := by
  unfold Head.incRef
  split
  · rfl
  · exact Head.when_stg (Head.issue_stg ..)

@[simp] theorem Head.decRef_stg (h : Head) (u : Nat) : (h.decRef u).stg = h.stg := by
  unfold Head.decRef
  split
  · rfl
  · exact Head.when_stg (Head.issue_stg ..)

@[simp] theorem Head.unmap_stg (h : Head) (nsid s n : Nat) : (h.unmap nsid s n).stg = h.stg := by
  refine Head.forEach_stg (fun g e => ?_) ..
  split
  · rfl
  · split
    · exact Head.decRef_stg ..
    · exact Head.incRef_stg ..
    · rfl

@[simp] theorem Head.mapExtent_stg (h : Head) (t : Troupe) (dom nsid s n u offset tag : Nat) (first : Bool) :
    (h.mapExtent t dom nsid s n u offset tag first).stg = h.stg := by
  cases first <;> simp [Head.mapExtent]

@[simp] theorem Head.mapChunk_stg (h : Head) (p : PChunk) (u : Nat) (counted : Bool) : (h.mapChunk p u counted).stg = h.stg :=
  Head.withCtx_stg fun _ => Head.forEach_stg (fun _ _ => Head.mapExtent_stg ..) ..

/-! ## The filters and the index (R90, R94) -/

@[simp] theorem Head.larderInsert_stg (h : Head) (fp : Bytes) : (h.larderInsert fp).stg = h.stg := by
  unfold Head.larderInsert
  split <;> rfl

@[simp] theorem Head.farWarn_stg (h : Head) : h.farWarn.stg = h.stg :=
  (Head.when_stg (Head.raise_stg ..)).trans (Head.when_stg (Head.raise_stg ..))

@[simp] theorem Head.farInsert_stg (h : Head) (fp : Bytes) : (h.farInsert fp).1.stg = h.stg := by
  unfold Head.farInsert
  dsimp only
  split
  · simp
  · split <;> simp

@[simp] theorem Head.indexInsert_stg (h : Head) (u : Nat) : (h.indexInsert u).stg = h.stg := by
  unfold Head.indexInsert
  split
  · rfl
  · cases h.farValid <;> simp

/-! ## Stripes (R170, R173) -/

@[simp] theorem Head.modGroup_stg (h : Head) (n : Nat) (f : Group → Group) : (h.modGroup n f).stg = h.stg := rfl
@[simp] theorem Head.modStripe_stg (h : Head) (n : Nat) (f : Stripe → Stripe) : (h.modStripe n f).stg = h.stg := rfl
@[simp] theorem Head.ptyCount_stg (h : Head) (i n : Nat) : (h.ptyCount i n).stg = h.stg := rfl
@[simp] theorem Head.addBundle_stg (h : Head) (kind : BundleKind) (cls : Nat) (t : Troupe) (shelf stripe row : Nat)
    (members : List (Nat × Nat)) : (h.addBundle kind cls t shelf stripe row members).stg = h.stg := rfl

@[simp] theorem Head.groupFor_stg (h : Head) (t : Troupe) (g : GeomEnt) : (h.groupFor t g).1.stg = h.stg := by
  unfold Head.groupFor
  split
  · rfl
  split
  · rfl
  dsimp only
  split <;> rfl

@[simp] theorem Head.openStripe_stg (h : Head) (t : Troupe) (g : GeomEnt) (ring : Nat) (reshape : Bool) :
    (h.openStripe t g ring reshape).1.stg = h.stg := by
  have hg := h.groupFor_stg t g
  unfold Head.openStripe
  generalize h.groupFor t g = r at hg
  obtain ⟨g, _ | grp⟩ := r
  · exact hg
  · exact hg

@[simp] theorem Head.closeStripe_stg (h : Head) (n : Nat) : (h.closeStripe n).stg = h.stg := by
  unfold Head.closeStripe
  split
  · rfl
  split
  · rfl
  dsimp only
  split <;> simp

@[simp] theorem Head.putInStripe_stg (h : Head) (n u len : Nat) : (h.putInStripe n u len).1.stg = h.stg := by
  unfold Head.putInStripe
  split
  · rfl
  · exact Head.when_stg (Head.closeStripe_stg ..)

theorem Head.openStripe_stg_of {h h' : Head} {t : Troupe} {g : GeomEnt} {ring : Nat} {reshape : Bool} {o : Option Stripe}
    (e : h.openStripe t g ring reshape = (h', o)) : h'.stg = h.stg := by
  rw [← h.openStripe_stg t g ring reshape, e]

@[simp] theorem Head.placeChunk_stg (h : Head) (t : Troupe) (g : GeomEnt) (ring u len : Nat) :
    (h.placeChunk t g ring u len).1.stg = h.stg := by
  unfold Head.placeChunk
  dsimp only
  split
  · split
    · exact Head.putInStripe_stg ..
    · split
      next e => exact (Head.openStripe_stg_of e).trans (Head.closeStripe_stg ..)
      next e => exact (Head.putInStripe_stg ..).trans ((Head.openStripe_stg_of e).trans (Head.closeStripe_stg ..))
  · split
    next e => exact Head.openStripe_stg_of e
    next e => exact (Head.putInStripe_stg ..).trans (Head.openStripe_stg_of e)

theorem Head.placeChunk_stg_of {h h' : Head} {t : Troupe} {g : GeomEnt} {ring u len : Nat} {o : Option (Nat × Nat)}
    (e : h.placeChunk t g ring u len = (h', o)) : h'.stg = h.stg := by
  rw [← h.placeChunk_stg t g ring u len, e]

/-! ## Booths and chunks in hand (R88, R97, R112, R114) -/

@[simp] theorem Head.modPchunk_stg (h : Head) (n : Nat) (f : PChunk → PChunk) : (h.modPchunk n f).stg = h.stg := rfl
@[simp] theorem Head.ldrCount_stg (h : Head) (i n : Nat) : (h.ldrCount i n).stg = h.stg := rfl
@[simp] theorem Head.dropCopy_stg (h : Head) (p : PChunk) : (h.dropCopy p).stg = h.stg := rfl
@[simp] theorem Head.dropTask_stg (h : Head) (n : Nat) : (h.dropTask n).stg = h.stg := rfl
@[simp] theorem Head.endSeg_stg (h : Head) (x : SegStream) : (h.endSeg x).stg = h.stg := rfl

@[simp] theorem Head.dropTasks_stg (h : Head) (ctx : Nat) : (h.dropTasks ctx).stg = h.stg :=
  Head.forEach_stg (fun _ _ => Head.dropTask_stg ..) ..

@[simp] theorem Head.restoreCtx_stg (h : Head) (site sid : Nat) : (h.restoreCtx site sid).stg = h.stg := by
  unfold Head.restoreCtx
  dsimp only
  split
  · rfl
  split
  · rfl
  · exact Head.when_stg rfl

@[simp] theorem Head.choose_stg (h : Head) (site : Nat) : (h.choose site).stg = h.stg := by
  unfold Head.choose
  dsimp only
  split
  · rfl
  split
  · split
    · split
      · rfl
      · exact Head.restoreCtx_stg ..
    · exact Head.restoreCtx_stg ..
  · split
    · rfl
    · exact Head.restoreCtx_stg ..

@[simp] theorem Head.compress_stg (h : Head) (p : PChunk) : (h.compress p).stg = h.stg := by
  unfold Head.compress Head.feed Head.kick
  split
  · exact Head.choose_stg ..
  · rfl

@[simp] theorem Head.tentative_stg (h : Head) (p : PChunk) (st : Stage) : (h.tentative p st).stg = h.stg :=
  Head.when_stg (Head.compress_stg ..)

@[simp] theorem Head.checkIssued_stg (h : Head) (n : Nat) : (h.checkIssued n).stg = h.stg := by
  refine Head.withCtx_stg fun c => ?_
  split
  · exact Head.when_stg rfl
  · rfl

@[simp] theorem Head.finishChunk_stg (h : Head) (p : PChunk) : (h.finishChunk p).stg = h.stg :=
  Head.checkIssued_stg ..

@[simp] theorem Head.confirmDup_stg (h : Head) (p : PChunk) (u : Nat) : (h.confirmDup p u).stg = h.stg := by
  unfold Head.confirmDup
  split <;> simp

@[simp] theorem Head.matched_stg (h : Head) (p : PChunk) (u : Nat) : (h.matched p u).stg = h.stg := by
  unfold Head.matched
  split <;> simp

@[simp] theorem Head.copyOut_stg (h : Head) (p : PChunk) (hd : Nat) (bytes : Bytes) (guard : BitVec 64) :
    (h.copyOut p hd bytes guard).stg = h.stg := by
  unfold Head.copyOut
  split
  · rfl
  split <;> rfl

@[simp] theorem Head.unhold_stg (h : Head) : h.unhold.stg = h.stg := by
  unfold Head.unhold
  split
  · rfl
  split
  · simp
  · rfl

@[simp] theorem Head.settlePending_stg (h : Head) (k u : Nat) : (h.settlePending k u).stg = h.stg :=
  (Head.unhold_stg _).trans (Head.forEach_stg (fun _ _ => Head.matched_stg ..) ..)

@[simp] theorem Head.storeChunk_stg (h : Head) (p : PChunk) : (h.storeChunk p).stg = h.stg := by
  unfold Head.storeChunk
  split
  · rfl
  split
  · dsimp only
    split
    · rfl
    next e =>
      rw [Head.settlePending_stg, Head.finishChunk_stg, Head.mapChunk_stg, Head.when_stg (Head.indexInsert_stg ..), Head.copyOut_stg,
        Head.modDp_stg]
      exact (Head.placeChunk_stg_of e).trans (Head.modDp_stg ..)
  · rfl

@[simp] theorem Head.decideUnique_stg (h : Head) (p : PChunk) : (h.decideUnique p).stg = h.stg := by
  have started (g : Head) (q : PChunk) :
      (if q.handle.isSome then g.storeChunk q else if q.tentative then g else g.compress q).stg = g.stg := by
    split
    · exact Head.storeChunk_stg ..
    split
    · rfl
    · exact Head.compress_stg ..
  unfold Head.decideUnique
  dsimp only
  split
  · exact started ..
  split
  · split
    · rfl
    · exact Head.tentative_stg ..
  split
  · rfl
  · exact started ..

@[simp] theorem Head.refute_stg (h : Head) (p : PChunk) (noIndex : Bool) : (h.refute p noIndex).stg = h.stg :=
  Head.decideUnique_stg ..

/-! ## The end of the commands in hand at an alarm (R142, R157) -/

@[simp] theorem Head.endLocked_stg (h : Head) (t : Task) : (h.endLocked t).stg = h.stg := by
  have ended (n : Nat) : ((h.dropTask t.id).withCtx n fun c =>
      if c.phase = .running then ((h.dropTask t.id).complete c stLocked 0).dropTasks n else h.dropTask t.id).stg = h.stg := by
    refine Head.withCtx_stg fun c => ?_
    split <;> simp
  unfold Head.endLocked
  dsimp only
  split
  · exact ended _
  · exact ended _
  · split
    · rfl
    · exact Head.refute_stg ..
  · rfl

@[simp] theorem Head.lockCommands_stg (h : Head) : h.lockCommands.stg = h.stg := by
  refine Head.forEach_stg (fun g c => ?_) ..
  split
  · exact (Head.dropTasks_stg ..).trans (Head.complete_stg ..)
  · rfl

theorem Head.zeroKeys_stg (h : Head) (n : Nat) :
    (h.forEach (List.range 32) fun h k => h.setReg (Adr.DGT_KEY n k) 0).stg = h.stg :=
  Head.forEach_stg (fun _ _ => Head.setReg_stg ..) ..

theorem Head.channelFailed_stg (h : Head) (n : Nat) : ((h.orReg (Adr.DGT_CH_STATUS n) 0x400).raise 880).stg = h.stg :=
  (Head.raise_stg ..).trans (Head.orReg_stg ..)

@[simp] theorem Head.dgtAlarm_stg (h : Head) : h.dgtAlarm.stg = h.stg := by
  unfold Head.dgtAlarm
  extract_lets bad dgt marked failed
  have hf : failed.stg = marked.stg := Head.forEach_stg Head.channelFailed_stg ..
  exact (Head.forEach_stg Head.zeroKeys_stg ..).trans hf

/-- What an alarm leaves of the Strongroom's record: no key in clear, no lease, every slot with a record SEALED, and the latch. -/
def Stg.alarmed (s : Stg) (cause : Nat) : Stg :=
  { s with
    unsealed := false, alarmLatch := true, ctxKey := [], pairKey := none, leases := []
    tripping := if cause = 4 then s.tripping else s.tripping ||| BitVec.ofNat 5 (2 ^ cause)
    slots := s.slots.map fun x => { x with state := if x.record = 0 then 0 else 1 } }

/-- The end of commands, streams and tasks and the handover at an alarm leave the Strongroom as the alarm set it. -/
theorem Head.alarm_stg (h : Head) (cause : Nat) : (h.alarm cause).stg = h.stg.alarmed cause := by
  unfold Head.alarm
  dsimp only
  rw [Head.when_stg (Head.forEach_stg (fun _ _ => Head.handAway_stg ..) ..), Head.forEach_stg fun _ _ => Head.endLocked_stg ..,
    Head.forEach_stg fun _ _ => Head.endSeg_stg .., Head.lockCommands_stg, Head.report_stg, Head.dgtAlarm_stg]
  rfl

end Sys2Proof.Machine
end

section
/-!
SUPPORT. Owner tokens (06_cipher_and_strongroom.md R127, R128): what the operation of each accepted token does to the Strongroom, and
what the end of a submission leaves alone.
-/

namespace Sys2Proof.Machine

open Sys2Proof

/-! ## Key slots and the domain key map (R123, R124) -/

theorem Stg.slot_slot (s : Stg) (n : Nat) : (s.slot n).slot = n := by
  unfold Stg.slot
  cases hf : s.slots.find? (·.slot == n) with
  | none => rfl
  | some x => simpa using List.find?_some hf

/-- A change of a slot that keeps its number is read back from that slot. -/
theorem Head.modSlot_slot_self (h : Head) (n : Nat) {f : Slot → Slot} (hf : ∀ x, (f x).slot = x.slot) :
    (h.modSlot n f).stg.slot n = f (h.stg.slot n) := by
  have hn : (f (h.stg.slot n)).slot = n := (hf _).trans (h.stg.slot_slot n)
  show ((f (h.stg.slot n) :: _).find? (·.slot == n)).getD _ = _
  rw [List.find?_cons_of_pos (by simpa using hn)]
  rfl

/-- A mapped domain reads as it was mapped; (0xFF, 0xFF) is what a domain that is not listed reads as. -/
theorem Head.mapDomain_entry_self (h : Head) (d w n : Nat) : (h.mapDomain d w n).stg.entry d = (w, n) := by
  have hd : (h.stg.map.filter (·.1 != d)).find? (·.1 == d) = none := by simp
  by_cases hu : w = 0xFF ∧ n = 0xFF
  · simp only [Head.mapDomain, Stg.entry, Head.modStg_stg, hu, and_self, if_true, hd]
    rfl
  · simp [Head.mapDomain, Stg.entry, hu, List.find?_append, hd]

/-- Every other domain keeps its entry. -/
theorem Head.mapDomain_entry_other (h : Head) {d e : Nat} (w n : Nat) (he : e ≠ d) :
    (h.mapDomain d w n).stg.entry e = h.stg.entry e := by
  have hf : (h.stg.map.filter (·.1 != d)).find? (·.1 == e) = h.stg.map.find? (·.1 == e) := by
    rw [List.find?_filter]
    congr 1
    funext x
    by_cases hx : x.1 = e <;> simp [hx, he]
  by_cases hu : w = 0xFF ∧ n = 0xFF
  · simp [Head.mapDomain, Stg.entry, hu, hf]
  · simp [Head.mapDomain, Stg.entry, hu, List.find?_append, hf, Ne.symm he]

/-! ## The operations (R128) -/

@[simp] theorem Head.tellStrongroom_stg (h : Head) (m : ControlMsg) : (h.tellStrongroom m).stg = h.stg :=
  Head.when_stg (Head.emit_stg ..)

/-- An unsealed head stays unsealed, and a sealed one becomes so; sealing touches slots and that bit alone. -/
theorem Head.unsealNow_stg (h : Head) : ∃ slots, h.unsealNow.stg = { h.stg with unsealed := true, slots := slots } := by
  unfold Head.unsealNow
  split
  next hu => exact ⟨h.stg.slots, by rw [← hu]⟩
  · exact ⟨_, Head.raise_stg ..⟩

/-- Drawn salts change the salts alone. -/
theorem Head.createSalts_stg (h : Head) : ∃ salts wait, h.createSalts.stg = { h.stg with salts := salts, saltWait := wait } := by
  have hs : { h.createSalts.stg with salts := [], saltWait := [] } = { h.stg with salts := [], saltWait := [] } := by
    refine Head.forEach_reading (fun h => { h.stg with salts := [], saltWait := [] }) (fun g i => ?_) ..
    dsimp only
    rw [Head.tellStrongroom_stg]
    rfl
  exact ⟨_, _, congrArg (fun g => { g with salts := h.createSalts.stg.salts, saltWait := h.createSalts.stg.saltWait }) hs⟩

/-- An UNSEAL ends the alarm latch and unseals; slots and salts change besides. -/
theorem Head.unsealToken_stg (h : Head) :
    ∃ slots salts wait, ((h.modStg fun g => { g with alarmLatch := false }).unsealNow.createSalts).stg =
      { h.stg with alarmLatch := false, unsealed := true, slots := slots, salts := salts, saltWait := wait } := by
  obtain ⟨slots, hu⟩ := (h.modStg fun g => { g with alarmLatch := false }).unsealNow_stg
  obtain ⟨salts, wait, hc⟩ := (h.modStg fun g => { g with alarmLatch := false }).unsealNow.createSalts_stg
  exact ⟨slots, salts, wait, by rw [hc, hu]; rfl⟩

/-- A created key is ACTIVE in its slot, with the next epoch. -/
theorem Head.createKey_slot (h : Head) (n : Nat) : (h.createKey n).stg.slot n =
    { slot := (h.stg.slot n).slot, state := 2, record := 2, epoch := (h.stg.slot n).epoch + 1, key := h.freeBytes 32 } := by
  unfold Head.createKey
  rw [Head.tellStrongroom_stg, Head.spend_stg, Head.modSlot_slot_self]
  exact fun _ => rfl

theorem Head.createKey_lastSeq (h : Head) (n : Nat) : (h.createKey n).stg.lastSeq = h.stg.lastSeq :=
  (congrArg Stg.lastSeq (Head.tellStrongroom_stg ..)).trans rfl

theorem Head.dropKey_slot (h : Head) (n : Nat) :
    (h.dropKey n).stg.slot n = { slot := (h.stg.slot n).slot, epoch := (h.stg.slot n).epoch } :=
  Head.modSlot_slot_self h n (f := fun x => { slot := x.slot, epoch := x.epoch }) fun _ => rfl

@[simp] theorem Head.destroyKey_stg (h : Head) (n : Nat) : (h.destroyKey n).stg = (h.dropKey n).stg :=
  Head.tellStrongroom_stg ..

/-- A cleared Attic holds the record of the clear alone. -/
theorem Head.clearAttic_slots (h : Head) (n : Nat) : ∃ r, (h.clearAttic n).atc.slots = [(0, r)] :=
  ⟨_, congrArg Attic.slots (Head.raise_atc ..)⟩

theorem Head.clearAttic_src (h : Head) (n : Nat) : (h.clearAttic n).src 997 = (h.src 997).raised :=
  Head.raise_src_self ..

@[simp] theorem Head.clearAttic_stg (h : Head) (n : Nat) : (h.clearAttic n).stg = h.stg :=
  Head.raise_stg ..

/-! ## The end of a submission -/

theorem Head.forEach_setReg_frame {α : Type} (h : Head) (l : List α) (k : α → Nat) (w : Word) :
    ∃ regs, (h.forEach l fun h x => h.setReg (k x) w) = { h with regs := regs } := by
  unfold Head.forEach
  induction l generalizing h with
  | nil => exact ⟨h.regs, rfl⟩
  | cons x l ih => exact ih (h.setReg (k x) w)

/-- The mailbox is emptied and the result noted; nothing else changes. -/
theorem Head.mailboxDone_frame (h : Head) (r : Nat) :
    ∃ regs, h.mailboxDone r = { h with regs := regs, stg := { h.stg with result := r } } := by
  obtain ⟨regs, e⟩ := h.forEach_setReg_frame (List.range 16) Adr.STG_TOKEN 0
  exact ⟨regs, by rw [Head.mailboxDone, e]; rfl⟩

/-! The result of a submission is no part of a slot or of an entry. -/

theorem Stg.slot_result (g : Stg) (r n : Nat) : ({ g with result := r } : Stg).slot n = g.slot n := rfl
theorem Stg.entry_result (g : Stg) (r d : Nat) : ({ g with result := r } : Stg).entry d = g.entry d := rfl

/-- The head of a token of sequence `q` that was accepted. -/
def Head.sequenced (h : Head) (q : Nat) : Head := h.modStg fun g => { g with lastSeq := q }

theorem Head.sequenced_slot (h : Head) (q n : Nat) : (h.sequenced q).stg.slot n = h.stg.slot n := rfl
theorem Head.sequenced_freeBytes (h : Head) (q n : Nat) : (h.sequenced q).freeBytes n = h.freeBytes n := rfl

theorem Head.submitOp_accepted {s : State} {op : Nat} (ht : s.holdsToken op) :
    s.head.submitOp op = ((s.head.sequenced (tokenSeq s.head.mailbox)).runToken s.head.mailbox).mailboxDone 0 := by
  obtain ⟨ha, ho, hj⟩ := ht
  simp [Head.submitOp, Head.submit, Head.giveToken, ha, ho, hj, Head.sequenced]

/-- The row of an accepted token notes its sequence number `q` and runs its operation, which ends in `g q`; then the mailbox is empty
and the result 0. -/
theorem runsHead_token {i : Instr} {op : Nat} {s : State} {P : Head → Prop} {g : Nat → Head}
    (hi : exec i s = .next { s with head := s.head.submitOp op }) (ht : s.holdsToken op)
    (hg : ∀ q, tokenOp s.head.mailbox = op → (s.head.sequenced q).runToken s.head.mailbox = g q)
    (hP : ∀ q regs, q = tokenSeq s.head.mailbox → P { g q with regs := regs, stg := { (g q).stg with result := 0 } }) :
    RunsHead i s P := by
  have hs := Head.submitOp_accepted ht
  obtain ⟨-, ho, -⟩ := ht
  obtain ⟨regs, e⟩ := (g (tokenSeq s.head.mailbox)).mailboxDone_frame 0
  refine ⟨_, hi, ?_⟩
  rw [hs, hg _ ho, e]
  exact hP _ regs rfl

/-! ## The rows -/

section operations
variable {h : Head} {tok : Bytes}

theorem Head.runToken_unseal (ho : tokenOp tok = 1) :
    h.runToken tok = (h.modStg fun s => { s with alarmLatch := false }).unsealNow.createSalts := by
  simp only [Head.runToken, ho]

theorem Head.runToken_keyCreate (ho : tokenOp tok = 2) : h.runToken tok = h.createKey (tokenArg0 tok) := by
  simp only [Head.runToken, ho]

theorem Head.runToken_keyDestroy (ho : tokenOp tok = 3) : h.runToken tok = h.destroyKey (tokenArg0 tok) := by
  simp only [Head.runToken, ho]

theorem Head.runToken_domainMap (ho : tokenOp tok = 4) :
    h.runToken tok = (h.mapDomain (tokenArg0 tok) (tokenArg1 tok % 256) (tokenArg1 tok / 256)).tellStrongroom
      (.mapEntry (tokenArg0 tok) (tokenArg1 tok % 256) (tokenArg1 tok / 256)) := by
  simp only [Head.runToken, ho]

theorem Head.runToken_ownerLockSet (ho : tokenOp tok = 5) : h.runToken tok = h.modStg fun s => { s with ownerLock := true } := by
  simp only [Head.runToken, ho]

theorem Head.runToken_ownerLockClear (ho : tokenOp tok = 6) : h.runToken tok = h.modStg fun s => { s with ownerLock := false } := by
  simp only [Head.runToken, ho]

theorem Head.runToken_atticClear (ho : tokenOp tok = 7) : h.runToken tok = h.clearAttic (tokenSeq tok) := by
  simp only [Head.runToken, ho]

theorem Head.runToken_retirementListClear (ho : tokenOp tok = 8) : h.runToken tok = h.modTsi fun t => { t with retired := [] } := by
  simp only [Head.runToken, ho]

theorem Head.runToken_zeroise (ho : tokenOp tok = 9) : h.runToken tok = h.alarm 4 := by
  simp only [Head.runToken, ho]

theorem Head.runToken_release (ho : tokenOp tok = 0xA) : h.runToken tok = ((h.eraseStart false).eraseFinish).modStg fun s =>
    { s with owner := none, lastSeq := 0, ownerLock := false, alarmLatch := false, sanGen := 0 } := by
  simp only [Head.runToken, ho]

theorem Head.runToken_sanitizeArm (ho : tokenOp tok = 0xB) :
    h.runToken tok = h.modStg fun s => { s with armedUntil := some (h.now + tokenArg0 tok * 60000000) } := by
  simp only [Head.runToken, ho]

end operations

/-- Settles O25, operation by operation from what each one leaves of the Strongroom. -/
theorem ownerTokensHaveTheirEffect : Obligations.OwnerTokensHaveTheirEffect := by
  unfold Obligations.OwnerTokensHaveTheirEffect
  refine ⟨?unsealed, ?keyCreate, ?keyDestroy, ?domainMap, ?lockSet, ?lockClear, ?atticClear, ?retired, ?zeroise, ?release, ?arm⟩
  case unsealed =>
    refine fun s ht => runsHead_token rfl ht (fun _ => Head.runToken_unseal) fun q regs hq => ?_
    obtain ⟨slots, salts, wait, e⟩ := (s.head.sequenced q).unsealToken_stg
    dsimp only
    rw [e]
    exact ⟨rfl, rfl, rfl, hq⟩
  case keyCreate =>
    rintro s n ht rfl
    refine runsHead_token rfl ht (fun _ => Head.runToken_keyCreate) fun q regs hq => ⟨(Stg.slot_result ..).trans ?_, rfl, ?_⟩
    · rw [Head.createKey_slot, Head.sequenced_slot, Head.sequenced_freeBytes]
    · exact (Head.createKey_lastSeq ..).trans hq
  case keyDestroy =>
    rintro s n ht rfl
    refine runsHead_token rfl ht (fun _ => Head.runToken_keyDestroy) fun q regs hq => ?_
    dsimp only
    rw [Head.destroyKey_stg]
    refine ⟨(Stg.slot_result ..).trans ?_, fun l hl => ?_, rfl, hq⟩
    · rw [Head.dropKey_slot, Head.sequenced_slot]
    · simpa using (List.mem_filter.1 hl).2
  case domainMap =>
    rintro s d w n ht rfl rfl rfl
    refine runsHead_token rfl ht (fun _ => Head.runToken_domainMap) fun q regs hq => ?_
    dsimp only
    rw [Head.tellStrongroom_stg]
    refine ⟨(Stg.entry_result ..).trans (Head.mapDomain_entry_self ..), fun e he => (Stg.entry_result ..).trans ?_, rfl, rfl, hq⟩
    exact Head.mapDomain_entry_other _ _ _ he
  case lockSet =>
    exact fun s ht => runsHead_token rfl ht (fun _ => Head.runToken_ownerLockSet) fun _ _ hq => ⟨rfl, rfl, hq, rfl⟩
  case lockClear =>
    exact fun s ht => runsHead_token rfl ht (fun _ => Head.runToken_ownerLockClear) fun _ _ hq => ⟨rfl, rfl, hq, rfl⟩
  case atticClear =>
    refine fun s ht => runsHead_token rfl ht (fun _ => Head.runToken_atticClear) fun q regs hq =>
      ⟨Head.clearAttic_slots .., Head.clearAttic_src .., rfl, ?_⟩
    exact (congrArg Stg.lastSeq (Head.clearAttic_stg ..)).trans hq
  case retired =>
    exact fun s ht => runsHead_token rfl ht (fun _ => Head.runToken_retirementListClear) fun _ _ hq => ⟨rfl, rfl, hq, rfl⟩
  case zeroise =>
    refine fun s ht => runsHead_token rfl ht (fun _ => Head.runToken_zeroise) fun q regs hq => ?_
    dsimp only
    rw [Head.alarm_stg]
    exact ⟨rfl, rfl, rfl, rfl, rfl, hq⟩
  case release =>
    exact fun s ht => runsHead_token rfl ht (fun _ => Head.runToken_release) fun _ _ _ => ⟨rfl, rfl, rfl, rfl⟩
  case arm =>
    exact fun s ht => runsHead_token rfl ht (fun _ => Head.runToken_sanitizeArm) fun _ _ hq => ⟨rfl, rfl, hq, rfl⟩

end Sys2Proof.Machine
end

section
/-!
SUPPORT. The host queue engine's tables (03_host_queues_and_ordering.md R50, R51, R65): what a queue pair or a controller reads as
after an update, and what the ports do with a capsule.
-/

namespace Sys2Proof.Machine

open Sys2Proof

/-! ## Updates of one entry of a table -/

/-- An update of the entries with a name, which it keeps, is read back under that name. -/
theorem find?_map_named {α : Type} {named : α → Bool} {p : α → Prop} [DecidablePred p] {f : α → α}
    (hp : ∀ x, named x = true → p x) (hf : ∀ x, named (f x) = named x) (l : List α) :
    (l.map fun x => if p x then f x else x).find? named = (l.find? named).map f := by
  have hn : (named ∘ fun x => if p x then f x else x) = named := by
    funext x
    by_cases hx : p x <;> simp [hx, hf]
  rw [List.find?_map, hn]
  exact Option.map_congr fun x hx => if_pos (hp x (List.find?_some hx))

theorem Head.qpair?_modQpair {h : Head} {c q : Nat} {f : QPair → QPair} {p : QPair} (hp : h.hqe.qpair? c q = some p)
    (hc : ∀ p, (f p).cntlid = p.cntlid) (hq : ∀ p, (f p).qid = p.qid) : (h.modQpair c q f).hqe.qpair? c q = some (f p) :=
  (find?_map_named (by simp) (by simp [hc, hq]) _).trans (congrArg (Option.map f) hp)

theorem Head.ctrl?_modCtrl {h : Head} {n : Nat} {f : Ctrl → Ctrl} {k : Ctrl} (hk : h.hqe.ctrl? n = some k)
    (hf : ∀ k, (f k).cntlid = k.cntlid) : (h.modCtrl n f).hqe.ctrl? n = some (f k) :=
  (find?_map_named (by simp) (by simp [hf]) _).trans (congrArg (Option.map f) hk)

/-! ## Entries and in-capsule slots -/

theorem Head.takeEntry_frame (h : Head) (c q : Nat) (cap : Capsule) :
    h.takeEntry c q cap = { h with hqe := (h.takeEntry c q cap).hqe } := rfl

theorem Head.takeEntry_nextArrival (h : Head) (c q : Nat) (cap : Capsule) :
    (h.takeEntry c q cap).hqe.nextArrival = h.hqe.nextArrival + 1 := rfl

theorem Head.takeEntry_qpair? {h : Head} {c q : Nat} (cap : Capsule) {p : QPair} (hp : h.hqe.qpair? c q = some p) :
    (h.takeEntry c q cap).hqe.qpair? c q = some { p with entries := p.entries ++ [⟨cap, h.hqe.nextArrival⟩] } :=
  Head.qpair?_modQpair hp (fun _ => rfl) fun _ => rfl

/-- The source of the port's last slot aside, a slot is taken in the queue engine alone. -/
theorem Head.takeSlot_hqe (h : Head) (port c q : Nat) : (h.takeSlot port c q).hqe =
    ((h.modHqe fun t => { t with portSlots := assocSet port (assocGet port 0 h.hqe.portSlots + 1) t.portSlots }).modQpair c q
      fun p => { p with slots := p.slots + 1 }).hqe :=
  Head.when_reading Head.hqe (Head.raise_hqe ..)

theorem Head.takeSlot_nextArrival (h : Head) (port c q : Nat) : (h.takeSlot port c q).hqe.nextArrival = h.hqe.nextArrival := by
  rw [Head.takeSlot_hqe]
  rfl

theorem Head.takeSlot_qpair? {h : Head} (port : Nat) {c q : Nat} {p : QPair} (hp : h.hqe.qpair? c q = some p) :
    (h.takeSlot port c q).hqe.qpair? c q = some { p with slots := p.slots + 1 } := by
  rw [Head.takeSlot_hqe]
  exact Head.qpair?_modQpair hp (fun _ => rfl) fun _ => rfl

/-- A slot changes the queues, and the sources when it is the port's last. -/
theorem Head.takeSlot_frame (h : Head) (port c q : Nat) : h.takeSlot port c q =
    { h with hqe := (h.takeSlot port c q).hqe, brk := (h.takeSlot port c q).brk, regs := (h.takeSlot port c q).regs } := by
  unfold Head.takeSlot
  dsimp only
  rw [when_eq]
  split
  · rw [Head.raise_frame]
    rfl
  · rfl

/-- An accepted capsule with in-capsule data: it takes a slot, then the next arrival number. -/
theorem Head.takeSlotEntry_spec (h : Head) (port : Nat) {c q : Nat} (cap : Capsule) {p : QPair} (hq : h.hqe.qpair? c q = some p) :
    (h.takeSlot port c q).takeEntry c q cap = { h with
      hqe := ((h.takeSlot port c q).takeEntry c q cap).hqe, brk := ((h.takeSlot port c q).takeEntry c q cap).brk
      regs := ((h.takeSlot port c q).takeEntry c q cap).regs } ∧
    ((h.takeSlot port c q).takeEntry c q cap).hqe.nextArrival = h.hqe.nextArrival + 1 ∧
    ((h.takeSlot port c q).takeEntry c q cap).hqe.qpair? c q =
      some { p with entries := p.entries ++ [⟨cap, h.hqe.nextArrival⟩], slots := p.slots + 1 } := by
  refine ⟨?_, ?_, ?_⟩
  · rw [Head.takeEntry_frame, Head.takeSlot_frame]
  · rw [Head.takeEntry_nextArrival, Head.takeSlot_nextArrival]
  · rw [Head.takeEntry_qpair? cap (Head.takeSlot_qpair? port hq), Head.takeSlot_nextArrival]

/-! ## Acceptance -/

section accepting
variable {h : Head} {c q : Nat} {cap : Capsule} {p : QPair} (ho : h.portsOpen = true) (hq : h.hqe.qpair? c q = some p)
  (hr : p.entries.length < p.size)
include ho hq hr

theorem Head.acceptCapsule_noData (hc : cap.inCapsule = none) : h.acceptCapsule c q cap = h.takeEntry c q cap := by
  simp [Head.acceptCapsule, hq, ho, hr, hc]

/-- With a slot free and nothing held back before it, a capsule with data is taken. -/
theorem Head.acceptCapsule_slot (hc : cap.inCapsule.isSome = true) (hs : h.slotFree p = true) (hb : p.heldBack = []) :
    h.acceptCapsule c q cap = (h.takeSlot p.port c q).takeEntry c q cap := by
  obtain ⟨d, hd⟩ := Option.isSome_iff_exists.1 hc
  simp [Head.acceptCapsule, hq, ho, hr, hd, hs, hb]

/-- Without a free slot a capsule with data is held back. -/
theorem Head.acceptCapsule_noSlot (hc : cap.inCapsule.isSome = true) (hs : h.slotFree p = false) :
    h.acceptCapsule c q cap = (h.modQpair c q fun q => { q with heldBack := q.heldBack ++ [cap] }).emit (.heldBack c q) := by
  obtain ⟨d, hd⟩ := Option.isSome_iff_exists.1 hc
  simp [Head.acceptCapsule, hq, ho, hr, hd, hs]

end accepting

/-- A freed slot goes to the first capsule that the port held back. -/
theorem Head.acceptHeld_first {h : Head} {port : Nat} {p : QPair} {cap : Capsule} {rest : List Capsule} (ho : h.portsOpen = true)
    (hq : h.heldQueue port = some p) (hb : p.heldBack = cap :: rest) :
    h.acceptHeld port = ((h.modQpair p.cntlid p.qid fun q => { q with heldBack := rest }).takeSlot port p.cntlid p.qid).takeEntry
      p.cntlid p.qid cap := by
  simp [Head.acceptHeld, ho, hq, hb]

theorem exec_capsuleAccept (c q : Nat) (cap : Capsule) (s : State) :
    exec (.capsuleAccept c q cap) s = .next { s with head := s.head.acceptCapsule c q cap } := rfl

theorem exec_inCapsuleSlotFreed (port : Nat) (s : State) :
    exec (.inCapsuleSlotFreed port) s = .next { s with head := s.head.acceptHeld port } := rfl

/-- Settles O3, case by case from what the port does with the capsule. -/
theorem capsuleTakesArrivalNumberAndSlot : Obligations.CapsuleTakesArrivalNumberAndSlot := by
  unfold Obligations.CapsuleTakesArrivalNumberAndSlot
  refine ⟨?noData, ?slot, ?noSlot, ?freed⟩
  case noData =>
    intro s c q cap p ho hq hr hc
    refine ⟨_, exec_capsuleAccept c q cap s, ?_⟩
    rw [Head.acceptCapsule_noData ho hq hr hc]
    exact ⟨rfl, rfl, Head.takeEntry_qpair? cap hq⟩
  case slot =>
    intro s c q cap p ho hq hr hc hs hb
    refine ⟨_, exec_capsuleAccept c q cap s, ?_⟩
    rw [Head.acceptCapsule_slot ho hq hr hc hs hb]
    exact s.head.takeSlotEntry_spec p.port cap hq
  case noSlot =>
    intro s c q cap p ho hq hr hc hs
    refine ⟨_, exec_capsuleAccept c q cap s, ?_⟩
    rw [Head.acceptCapsule_noSlot ho hq hr hc hs]
    exact ⟨rfl, rfl, Head.qpair?_modQpair hq (fun _ => rfl) fun _ => rfl⟩
  case freed =>
    intro s port cap rest p ho hq hp hb
    refine ⟨_, exec_inCapsuleSlotFreed port s, ?_⟩
    rw [Head.acceptHeld_first ho hq hb]
    have hp' : (s.head.modQpair p.cntlid p.qid fun q => { q with heldBack := rest }).hqe.qpair? p.cntlid p.qid =
        some { p with heldBack := rest } := Head.qpair?_modQpair hp (fun _ => rfl) fun _ => rfl
    exact Head.takeSlotEntry_spec _ port cap hp'

end Sys2Proof.Machine
end

section
/-!
SUPPORT. Connections (03_host_queues_and_ordering.md R50, R52, R53, R64, R80): what the end of a queue pair and of a controller leaves
in the tables, and what a Connect adds to them.
-/

namespace Sys2Proof.Machine

open Sys2Proof

/-! ## The CNTLIDs in use -/

/-- A reading of the head: the CNTLIDs in use. -/
def Head.cntlids (h : Head) : List Nat := h.hqe.ctrls.map (·.cntlid)

theorem Head.ctrl?_eq_none_iff (h : Head) (n : Nat) : h.hqe.ctrl? n = none ↔ n ∉ h.cntlids := by
  simp [Hqe.ctrl?, Head.cntlids]

theorem Head.emit_cntlids (h : Head) (o : Out) : (h.emit o).cntlids = h.cntlids := rfl

theorem Head.modHqe_cntlids {h : Head} {f : Hqe → Hqe} (hf : ∀ q, (f q).ctrls = q.ctrls) : (h.modHqe f).cntlids = h.cntlids := by
  unfold Head.cntlids
  rw [Head.modHqe_hqe, hf]

theorem Head.modCtrl_cntlids (h : Head) (n : Nat) {f : Ctrl → Ctrl} (hf : ∀ k, (f k).cntlid = k.cntlid) :
    (h.modCtrl n f).cntlids = h.cntlids := by
  unfold Head.cntlids Head.modCtrl
  rw [Head.modHqe_hqe, List.map_map]
  refine List.map_congr_left fun k _ => ?_
  show (if k.cntlid = n then f k else k).cntlid = k.cntlid
  split
  · exact hf k
  · rfl

theorem Head.complete_cntlids (h : Head) (c : Ctx) (st : Status) (d : Nat) : (h.complete c st d).cntlids = h.cntlids := by
  unfold Head.cntlids
  rw [complete_ctrls]

/-- What is done to a context keeps a reading of the head if it does so for every context. -/
theorem Head.withCtx_reading {α : Type} (r : Head → α) {h : Head} {n : Nat} {f : Ctx → Head} (hf : ∀ c, r (f c) = r h) :
    r (h.withCtx n f) = r h := by
  unfold Head.withCtx
  split
  · rfl
  · exact hf _

/-! Events, and what a power-state entry that is reversed undoes (R75, R79, R241), name no new controller and take none away. -/

theorem Head.postOn_cntlids (h : Head) (n ctx : Nat) (e : AsyncEvent) : (h.postOn n ctx e).cntlids = h.cntlids := by
  have hm := h.modCtrl_cntlids n (f := fun c => { c with retained := e :: c.retained, aers := c.aers.filter (·.2 != ctx) }) fun _ => rfl
  exact (Head.withCtx_reading Head.cntlids fun c => Head.complete_cntlids ..).trans hm

theorem Head.postTo_cntlids (h : Head) (e : AsyncEvent) (n : Nat) : (h.postTo e n).cntlids = h.cntlids := by
  unfold Head.postTo
  split
  · rfl
  split
  · rfl
  split
  · exact h.modCtrl_cntlids n fun _ => rfl
  · exact Head.postOn_cntlids ..

theorem Head.modTrp_cntlids (h : Head) (t : Troupe) (f : Trp → Trp) : (h.modTrp t f).cntlids = h.cntlids := by
  unfold Head.modTrp
  extract_lets old g
  split
  · rfl
  · exact Head.forEach_reading Head.cntlids (fun _ _ => Head.postTo_cntlids ..) ..

theorem Head.tellRoles_cntlids (h : Head) : h.tellRoles.cntlids = h.cntlids := by
  unfold Head.tellRoles
  split <;> rfl

theorem Head.withdraw_cntlids (h : Head) (t : Troupe) : (h.withdraw t).cntlids = h.cntlids := by
  unfold Head.withdraw
  split
  · rfl
  split
  · rfl
  · exact (Head.tellRoles_cntlids ..).trans (Head.modTrp_cntlids ..)

theorem Head.raise_cntlids (h : Head) (n : Nat) : (h.raise n).cntlids = h.cntlids := by
  unfold Head.cntlids
  rw [Head.raise_hqe]

theorem Head.backToRun_cntlids (h : Head) (e : PowerEntry) : (h.backToRun e).cntlids = h.cntlids := by
  unfold Head.backToRun
  extract_lets rings pwr run keptA keptB told
  have hr : run.cntlids = h.cntlids := rfl
  have hk : keptB.cntlids = run.cntlids := by
    simp only [keptB, keptA, Head.modTrp_cntlids, Head.withdraw_cntlids]
  have ht : told.cntlids = keptB.cntlids := by
    simp only [told]
    split
    · exact Head.emit_cntlids ..
    · rfl
  rw [Head.raise_cntlids, ht, hk, hr]

theorem Head.reverseEntry_cntlids (h : Head) : h.reverseEntry.cntlids = h.cntlids := by
  unfold Head.reverseEntry
  split
  · rfl
  split
  · rfl
  · dsimp only
    rw [Head.modHqe_cntlids, Head.backToRun_cntlids]
    exact fun _ => rfl

theorem Head.closeDownload_cntlids (h : Head) (n : Nat) : (h.closeDownload n).cntlids = h.cntlids := by
  unfold Head.closeDownload
  split <;> rfl

theorem Head.report_hqe (h : Head) (n sev : Nat) (payload : Bytes) : (h.report n sev payload).hqe = h.hqe := by
  rw [Head.report_frame]

/-! ## The end of a queue pair and of a controller -/

theorem Head.endQueue_qpair? (h : Head) (c q : Nat) : (h.endQueue c q).hqe.qpair? c q = none := by
  unfold Head.endQueue
  split
  next hq => exact hq
  · exact List.find?_eq_none.2 fun p hp => by
      simpa only [Bool.not_eq_true', Bool.not_eq_true] using (List.mem_filter.1 hp).2

theorem Head.endController_ctrl? (h : Head) (n : Nat) : (h.endController n).hqe.ctrl? n = none := by
  unfold Head.endController
  split
  next hk => exact hk
  · extract_lets entryCtx ended taken shf freed reversed closed
    have ht : n ∉ taken.cntlids := by
      simp [taken, Head.cntlids]
    have hr : closed.cntlids = taken.cntlids :=
      calc closed.cntlids = reversed.cntlids := Head.closeDownload_cntlids ..
        _ = freed.cntlids := Head.when_reading Head.cntlids (Head.reverseEntry_cntlids ..)
        _ = taken.cntlids := rfl
    rw [Head.report_hqe, Head.ctrl?_eq_none_iff, hr]
    exact ht

theorem Head.loseConnection_io (h : Head) (c : Nat) {q : Nat} (hq : q ≠ 0) : (h.loseConnection c q).hqe.qpair? c q = none := by
  rw [Head.loseConnection, if_neg hq]
  exact Head.endQueue_qpair? ..

theorem Head.loseConnection_admin (h : Head) (c : Nat) : (h.loseConnection c 0).hqe.ctrl? c = none :=
  Head.endController_ctrl? ..

theorem exec_disconnect {s : State} {c q : Nat} (cid : Nat) {p : QPair} (hp : s.head.hqe.qpair? c q = some p) :
    exec (.disconnect c q cid) s =
      .next { s with head := (s.head.emit (.completion c q cid stSuccess 0 false p.sqhd)).loseConnection c q } := by
  show execDisconnect c q cid s = _
  simp [execDisconnect, hp]

theorem exec_transportLoss (c q : Nat) (s : State) :
    exec (.transportLoss c q) s = .next { s with head := s.head.loseConnection c q } := rfl

theorem exec_rdmaTransferError {s : State} {c q : Nat} {p : QPair} (hp : s.head.hqe.qpair? c q = some p) :
    exec (.rdmaTransferError c q) s =
      .next { s with head := ((s.head.transferError c q).emit (.closed c q)).loseConnection c q } := by
  show execRdmaTransferError c q s = _
  simp [execRdmaTransferError, hp]

/-- A keep-alive timer that has run its time ends its controller. -/
theorem exec_keepAliveExpiry_due {s : State} {n : Nat} {k : Ctrl} (hk : s.head.hqe.ctrl? n = some k) (h0 : k.kato ≠ 0)
    (ht : k.kaStart + kaLimit k.kato * 1000 ≤ s.head.now) :
    exec (.keepAliveExpiry n) s = .next { s with head := s.head.endController n } := by
  show execKeepAliveExpiry n s = _
  simp [execKeepAliveExpiry, hk, h0, ht]

/-- Settles O5: each row ends in the loss of its connection, which takes its queue pair or its controller out. -/
theorem connectionsEndAndTheirQueuesGo : Obligations.ConnectionsEndAndTheirQueuesGo := by
  unfold Obligations.ConnectionsEndAndTheirQueuesGo
  refine ⟨?io, ?admin, ?keepAlive⟩
  case io =>
    exact fun s c q cid p hp hq => ⟨⟨_, exec_disconnect cid hp, Head.loseConnection_io _ c hq⟩,
      ⟨_, exec_transportLoss c q s, Head.loseConnection_io _ c hq⟩, ⟨_, exec_rdmaTransferError hp, Head.loseConnection_io _ c hq⟩⟩
  case admin =>
    exact fun s c cid p hp => ⟨⟨_, exec_disconnect cid hp, Head.loseConnection_admin ..⟩,
      ⟨_, exec_transportLoss c 0 s, Head.loseConnection_admin ..⟩, ⟨_, exec_rdmaTransferError hp, Head.loseConnection_admin ..⟩⟩
  case keepAlive =>
    exact fun s n k hk h0 ht => ⟨_, exec_keepAliveExpiry_due hk h0 ht, Head.endController_ctrl? ..⟩

/-! ## Connect -/

theorem Head.mem_freeCntlids {h : Head} {n : Nat} (hn : n ∈ h.freeCntlids) : 1 ≤ n ∧ n ≤ 1024 ∧ h.hqe.ctrl? n = none := by
  obtain ⟨hr, hf⟩ := List.mem_filter.1 hn
  obtain ⟨m, hm, rfl⟩ := List.mem_map.1 hr
  have hm := List.mem_range.1 hm
  refine ⟨by omega, by omega, List.find?_eq_none.2 fun k hk => ?_⟩
  simp_all

/-- The CNTLID that a Connect takes when one is free. -/
def Head.newCntlid (h : Head) : Nat := h.freeCntlids.getD (h.freeNat % h.freeCntlids.length) 0

theorem Head.newCntlid_mem {h : Head} (hf : h.freeCntlids ≠ []) : h.newCntlid ∈ h.freeCntlids := by
  have hl := Nat.mod_lt h.freeNat (List.length_pos_iff.2 hf)
  rw [Head.newCntlid, List.getD_eq_getElem _ _ hl]
  exact List.getElem_mem hl

/-- The controller that a Connect to the admin queue creates. -/
def newCtrl (c : ConnectCmd) (n now : Nat) : Ctrl :=
  { cntlid := n, discovery := c.discovery, port := c.port, transport := c.transport, hostNqn := c.hostNqn, kato := c.kato, kaStart := now }

theorem newCtrl_cntlid (c : ConnectCmd) (n now : Nat) : (newCtrl c n now).cntlid = n := rfl

section connecting
variable {h : Head} {c : ConnectCmd}

section admin
variable (hs : c.sqsize ≤ 31) (hk : c.discovery = true ∨ c.kato ≠ 0)
include hs hk

theorem connectParams_valid : ¬(31 < c.sqsize ∨ (!c.discovery ∧ c.kato = 0)) := by
  obtain hd | h0 := hk
  · simp [hs, hd]
  · simp [hs, h0]

theorem Head.connectAdmin_creates (hf : h.freeCntlids ≠ []) (hq : h.hqe.qpairs.length < 4096) :
    h.connectAdmin c = ((h.spend.modHqe fun q => { q with
      ctrls := q.ctrls ++ [newCtrl c h.newCntlid h.now], peakCtrls := max q.peakCtrls (q.ctrls.length + 1) }).addQpair c h.newCntlid).connectReply
        c stSuccess h.newCntlid := by
  unfold Head.connectAdmin
  dsimp only
  rw [if_neg (connectParams_valid hs hk), if_neg (by simp [hf, hq])]
  rfl

theorem Head.connectAdmin_busy (hb : h.freeCntlids = [] ∨ 4096 ≤ h.hqe.qpairs.length) :
    h.connectAdmin c = (h.connectReply c stConnectBusy 0).raise 302 := by
  unfold Head.connectAdmin
  dsimp only
  rw [if_neg (connectParams_valid hs hk), if_pos hb]

end admin

theorem Head.connectIo_adds {k : Ctrl} (hk : h.hqe.ctrl? c.cntlid = some k) (hd : k.discovery = false) (hs : c.sqsize ≤ 1023)
    (hi : c.qid ≤ h.ioqs k) (hn : h.hqe.qpair? c.cntlid c.qid = none) (hq : h.hqe.qpairs.length < 4096) :
    h.connectIo c = (h.addQpair c c.cntlid).connectReply c stSuccess c.cntlid := by
  simp [Head.connectIo, hk, hd, Nat.not_lt.2 hs, Nat.not_lt.2 hi, hn, Nat.not_le.2 hq]

end connecting

theorem exec_connect_admin {s : State} {c : ConnectCmd} (ho : s.head.portsOpen = true) (h0 : c.qid = 0) :
    exec (.connect c) s = .next { s with head := s.head.connectAdmin c } := by
  show execConnect c s = _
  simp [execConnect, ho, h0]

theorem exec_connect_io {s : State} {c : ConnectCmd} (ho : s.head.portsOpen = true) (h0 : c.qid ≠ 0) :
    exec (.connect c) s = .next { s with head := s.head.connectIo c } := by
  show execConnect c s = _
  simp [execConnect, ho, h0]

/-- Settles O6, from what a Connect to each kind of queue does. -/
theorem connectCreatesControllerOrQueue : Obligations.ConnectCreatesControllerOrQueue := by
  unfold Obligations.ConnectCreatesControllerOrQueue
  refine ⟨?creates, ?busy, ?io⟩
  case creates =>
    intro s c ho h0 hs hk hf hq
    refine ⟨_, exec_connect_admin ho h0, ?_⟩
    rw [Head.connectAdmin_creates hs hk hf hq]
    obtain ⟨h1, h2, h3⟩ := Head.mem_freeCntlids (Head.newCntlid_mem hf)
    refine ⟨s.head.newCntlid, newCtrl c s.head.newCntlid s.head.now, h1, h2, h3, rfl, newCtrl_cntlid .., rfl, rfl, rfl, ?_, rfl⟩
    show _ ++ [QPair.mk ..] = _
    rw [h0]
    rfl
  case busy =>
    intro s c ho h0 hs hk hb
    refine ⟨_, exec_connect_admin ho h0, ?_⟩
    rw [Head.connectAdmin_busy hs hk hb]
    exact ⟨Head.raise_hqe .., Head.raise_src_self .., Head.raise_out ..⟩
  case io =>
    intro s c k ho h0 hk hd hs hi hn hq
    refine ⟨_, exec_connect_io ho h0, ?_⟩
    rw [Head.connectIo_adds hk hd hs hi hn hq]
    exact ⟨rfl, rfl, rfl⟩

end Sys2Proof.Machine
end

section
/-!
SUPPORT. Admin commands that read, set and answer (03_host_queues_and_ordering.md R48, R53, R55, R57, R58, R80): Fabrics commands and
properties, Identify, Get Log Page, Abort and Keep Alive.
-/

namespace Sys2Proof.Machine

open Sys2Proof

/-! ## Rows that end in a completion -/

/-- A completion comes right after what the command sent before it. -/
theorem complete_completedAfter {h : Head} {c : Ctx} {l before : List Out} (st : Status) (d : Nat) (ho : h.out = l ++ before)
    (hs : c.silent = false) : (h.complete c st d).completedAfter c st d l before := by
  obtain ⟨sq, e⟩ := complete_out h c st d hs
  rw [Head.completedAfter, Head.justCompleted, e]
  exact ⟨⟨_, _, rfl⟩, ho⟩

section rows
variable {i : Instr} {s : State} {c : Ctx} {st : Status} {d : Nat}

theorem completes_of_exec (hi : exec i s = .next { s with head := s.head.complete c st d }) (hs : c.silent = false) :
    Completes i s c st d :=
  ⟨_, hi, complete_completedAfter st d rfl hs, complete_ctrls .., complete_frame ..⟩

theorem completesWith_of_exec {bs : Bytes}
    (hi : exec i s = .next { s with head := (s.head.emit (.adminData c.id bs)).complete c stSuccess d }) (hs : c.silent = false) :
    CompletesWith i s c bs d :=
  ⟨_, hi, complete_completedAfter stSuccess d rfl hs, by rw [complete_frame]; rfl⟩

end rows

theorem complete_ctrl? (h : Head) (c : Ctx) (st : Status) (d n : Nat) : (h.complete c st d).hqe.ctrl? n = h.hqe.ctrl? n := by
  unfold Hqe.ctrl?
  rw [complete_ctrls]

theorem complete_success_out (h : Head) {c : Ctx} (d : Nat) (hs : c.silent = false) :
    ∃ sq, (h.complete c stSuccess d).out = .completion c.cntlid c.qid c.cap.cid stSuccess d false sq :: h.out :=
  complete_out h c stSuccess d hs

theorem Hqe.ctx?_id {q : Hqe} {n : Nat} {c : Ctx} (hc : q.ctx? n = some c) : c.id = n := by
  simpa using List.find?_some hc

/-! ## Fabrics commands and properties -/

/-- A ready Fabrics command is run by the row of its type. -/
theorem Head.fabrics_of_holds {s : State} {n ty : Nat} {c : Ctx} (hr : s.holdsReady n c true 0x7F) (ht : fctype c.cap = ty)
    (f : Ctx → Head) : s.head.fabrics n ty f = f c := by
  rw [Head.fabrics, ready_of_holds hr, if_pos ht]

/-- A write of CC that enables a controller sets CSTS.RDY. -/
theorem Head.writeCc_enables {h : Head} {n : Nat} {v : Word} {k : Ctrl} (hk : h.hqe.ctrl? n = some k) (hw : k.cc.getLsbD 0 = false)
    (hv : v.getLsbD 0 = true) (hn : bits 15 14 v.toNat = 0) :
    h.writeCc n v = (h.modCtrl n fun c => { c with cc := v }).modCtrl n fun c =>
      { c with csts := (c.csts &&& ~~~0xC#32) ||| 1#32, resetting := none } := by
  simp only [Head.writeCc, hk, hw, hv, hn, Bool.false_eq_true, false_and, if_false, ne_eq, not_true_eq_false, Bool.not_false, and_self,
    if_true]

theorem exec_propertySet_cc {s : State} {n : Nat} {c : Ctx} (hr : s.holdsReady n c true 0x7F) (ht : fctype c.cap = 0)
    (ha : c.cap.dw11 = 0x14#32) : exec (.propertySet n) s =
      .next { s with head := (s.head.complete c stSuccess 0).writeCc c.cntlid c.cap.dw12 } := by
  show execPropertySet n s = _
  simp [execPropertySet, Head.fabrics_of_holds hr ht, ha]

/-- A Property Get completes with the property's value, or with Invalid Field where there is no such property. -/
theorem exec_propertyGet_ready {s : State} {n : Nat} {c : Ctx} {k : Ctrl} (hr : s.holdsReady n c true 0x7F) (ht : fctype c.cap = 4)
    (hk : s.head.hqe.ctrl? c.cntlid = some k) : exec (.propertyGet n) s = .next
      { s with head := (k.property c.cap.dw11.toNat).elim (s.head.complete c stInvalidField 0) (s.head.complete c stSuccess) } := by
  show execPropertyGet n s = _
  rw [execPropertyGet, Head.fabrics_of_holds hr ht]
  dsimp only
  rw [hk, Option.bind_some]
  cases k.property c.cap.dw11.toNat <;> rfl

/-! ## The end of a reset -/

/-- Once no command of the controller is in flight, its reset or shutdown is over. -/
theorem Head.resetDone_ended {h : Head} {n : Nat} {k : Ctrl} {shutdown : Bool} (hk : h.hqe.ctrl? n = some k)
    (hr : k.resetting = some shutdown) (he : ∀ c ∈ h.hqe.ctxs ++ h.hqe.holdCtxs, c.cntlid = n → c.phase = .done) :
    h.resetDone n = h.modCtrl n fun c => { c with
      resetting := none
      csts := if shutdown then (c.csts &&& ~~~0xC#32) ||| 0x8#32 else c.csts &&& ~~~1#32 } := by
  have hf : ((h.hqe.ctxs ++ h.hqe.holdCtxs).any fun c => c.cntlid == n && c.inFlight) = false := by
    refine List.any_eq_false.2 fun c hc => ?_
    by_cases hn : c.cntlid = n
    · simp [hn, Ctx.inFlight, he c hc hn]
    · simp [hn]
  simp [Head.resetDone, hk, hr, hf]

/-- Bits 3 to 2 of CSTS, the shutdown status, read 10b (complete) when that value is put into them. -/
theorem shst_complete (csts : Word) : bits 3 2 ((csts &&& ~~~0xC#32) ||| 0x8#32).toNat = 2 := by
  have h : ((csts &&& ~~~0xC#32) ||| 0x8#32).extractLsb' 2 2 = 2#2 := by
    ext i hi
    obtain rfl | rfl : i = 0 ∨ i = 1 := by omega
    · simp
    · simp
  simpa [bits, BitVec.extractLsb'_toNat, Nat.shiftRight_eq_div_pow] using congrArg BitVec.toNat h

theorem rdy_clear (csts : Word) : (csts &&& ~~~1#32).getLsbD 0 = false := by simp

theorem exec_controllerResetDone (n : Nat) (s : State) :
    exec (.controllerResetDone n) s = .next { s with head := s.head.resetDone n } := rfl

/-- Settles O7, from the write of CC, the value of each property and the end of a reset. -/
theorem propertiesAndControllerReset : Obligations.PropertiesAndControllerReset := by
  unfold Obligations.PropertiesAndControllerReset
  refine ⟨?set, ?get, ?reset⟩
  case set =>
    intro s n c k hc hp ha hop ht hofs hs _ hk hw hv hn
    have hr : s.holdsReady n c true 0x7F := ⟨hc, hp, ha, hop, .inl rfl⟩
    have hk' : (s.head.complete c stSuccess 0).hqe.ctrl? c.cntlid = some k := (complete_ctrl? ..).trans hk
    refine ⟨_, exec_propertySet_cc hr ht hofs, ?_⟩
    rw [Head.writeCc_enables hk' hw hv hn]
    refine ⟨?_, complete_success_out s.head 0 hs, _,
      Head.ctrl?_modCtrl (Head.ctrl?_modCtrl hk' fun _ => rfl) fun _ => rfl, rfl, by simp, rfl⟩
    rw [complete_frame]
    rfl
  case get =>
    intro s n c k hc hp ha hop ht hs hk
    have hr : s.holdsReady n c true 0x7F := ⟨hc, hp, ha, hop, .inl rfl⟩
    refine ⟨_, exec_propertyGet_ready hr ht hk, fun ha => ?_, fun ha => ?_, fun ha => ?_⟩
    all_goals
      rw [ha]
      exact complete_success_out s.head _ hs
  case reset =>
    intro s n k shutdown hk hr he
    refine ⟨_, exec_controllerResetDone n s, ?_⟩
    rw [Head.resetDone_ended hk hr he]
    refine ⟨rfl, _, Head.ctrl?_modCtrl hk fun _ => rfl, rfl, ?_, ?_⟩
    · rintro rfl
      exact rdy_clear _
    · rintro rfl
      exact shst_complete _

end Sys2Proof.Machine
end

section
/-!
SUPPORT. Admin commands that answer the host (03_host_queues_and_ordering.md R48, R53, R55, R57, R58): Identify, Get Log Page, Abort,
Keep Alive and the messages of an authentication.
-/

namespace Sys2Proof.Machine

open Sys2Proof

/-! ## Identify -/

section identify
variable {h : Head} {c : Ctx} {k : Ctrl} (hk : h.hqe.ctrl? c.cntlid = some k)
include hk

theorem Head.identify_controller (hd : c.cap.dw10.toNat % 256 = 1) :
    h.identify c = (h.emit (.adminData c.id (identifyController k))).complete c stSuccess 0 := by
  simp only [Head.identify, hk, hd]

theorem Head.identify_noNamespace (hd : c.cap.dw10.toNat % 256 = 0) (hn : h.hqe.ns? c.cap.nsid = none) :
    h.identify c = h.complete c stInvalidNs 0 := by
  simp only [Head.identify, hk, hd, hn, Option.map_none]
  rfl

end identify

/-! ## Get Log Page -/

section getLog
variable {h : Head} {c : Ctx} {k : Ctrl} {lid off len : Nat} (hk : h.hqe.ctrl? c.cntlid = some k) (hl : lid = c.cap.dw10.toNat % 256)
  (ho : off = c.cap.dw12.toNat + c.cap.dw13.toNat * 2 ^ 32)
  (hn : len = (c.cap.dw10.toNat / 2 ^ 16 + c.cap.dw11.toNat % 2 ^ 16 * 2 ^ 16 + 1) * 4)
include hk ho

theorem Head.getLog_badOffset (hb : off % 4 ≠ 0) : h.getLog c = h.complete c stInvalidField 0 := by
  subst ho
  unfold Head.getLog
  rw [hk]
  dsimp only
  rw [if_pos hb]

include hl hn

theorem Head.getLog_noPage (hb : off % 4 = 0) (hs : lid ≠ 0xC0) (hp : h.logPage k lid off len = none) :
    h.getLog c = h.complete c stInvalidLog 0 := by
  subst ho hl hn
  unfold Head.getLog
  rw [hk]
  dsimp only
  rw [if_neg (not_not.2 hb), if_neg hs, hp]
  rfl

/-- With RAE set a page is answered and nothing else is done. -/
theorem Head.getLog_page {bs : Bytes} (hb : off % 4 = 0) (hs : lid ≠ 0xC0) (hp : h.logPage k lid off len = some bs)
    (hr : c.cap.dw10.getLsbD 15 = true) : h.getLog c = (h.emit (.adminData c.id bs)).complete c stSuccess 0 := by
  subst ho hl hn
  unfold Head.getLog
  rw [hk]
  dsimp only
  rw [if_neg (not_not.2 hb), if_neg hs, hp]
  dsimp only [Option.map_some]
  rw [hr]
  rfl

end getLog

/-! ## The rows -/

section rows
variable {s : State} {n : Nat} {c : Ctx}

theorem exec_identify (hr : s.holdsReady n c true 0x06) : exec (.identify n) s = .next { s with head := s.head.identify c } := by
  show execIdentify n s = _
  simp [execIdentify, ready_of_holds hr]

theorem exec_getLogPage (hr : s.holdsReady n c true 0x02) : exec (.getLogPage n) s = .next { s with head := s.head.getLog c } := by
  show execGetLogPage n s = _
  simp [execGetLogPage, ready_of_holds hr]

theorem exec_abort (hr : s.holdsReady n c true 0x08) :
    exec (.abort n) s = .next { s with head := s.head.complete c stSuccess 1 } := by
  show execAbort n s = _
  simp [execAbort, ready_of_holds hr]

theorem exec_keepAlive (hr : s.holdsReady n c true 0x18) : exec (.keepAlive n) s =
    .next { s with head := (s.head.modCtrl c.cntlid fun k => { k with kaStart := s.head.now }).complete c stSuccess 0 } := by
  show execKeepAlive n s = _
  simp [execKeepAlive, ready_of_holds hr]

theorem exec_authenticationSend (msg : Bytes) (hr : s.holdsReady n c true 0x7F) (ht : fctype c.cap = 5) :
    exec (.authenticationSend n msg) s =
      .next { s with head := (s.head.modCtrl c.cntlid fun k => { k with auth := k.auth ++ [msg] }).complete c stSuccess 0 } := by
  show execAuthenticationSend n msg s = _
  simp [execAuthenticationSend, Head.fabrics_of_holds hr ht]

theorem exec_authenticationReceive {k : Ctrl} (hr : s.holdsReady n c true 0x7F) (ht : fctype c.cap = 6)
    (hk : s.head.hqe.ctrl? c.cntlid = some k) : exec (.authenticationReceive n) s =
      .next { s with head := (s.head.emit (.adminData n (Config.authReply k.auth))).complete c stSuccess 0 } := by
  show execAuthenticationReceive n s = _
  simp [execAuthenticationReceive, Head.fabrics_of_holds hr ht, hk]

end rows

/-- A change of a controller and then a completion: the controller reads as it was changed. -/
theorem complete_modCtrl {h : Head} {c : Ctx} {k : Ctrl} {f : Ctrl → Ctrl} (hk : h.hqe.ctrl? c.cntlid = some k)
    (hf : ∀ k, (f k).cntlid = k.cntlid) (hs : c.silent = false) :
    ((h.modCtrl c.cntlid f).complete c stSuccess 0).completedAfter c stSuccess 0 [] h.out ∧
      ((h.modCtrl c.cntlid f).complete c stSuccess 0).hqe.ctrl? c.cntlid = some (f k) :=
  ⟨complete_completedAfter stSuccess 0 rfl hs, (complete_ctrl? ..).trans (Head.ctrl?_modCtrl hk hf)⟩

/-- Settles O13, command by command. -/
theorem adminQueriesAnswer : Obligations.AdminQueriesAnswer := by
  unfold Obligations.AdminQueriesAnswer
  refine ⟨?identify, ?getLog, ?abort, ?keepAlive, ?auth⟩
  case identify =>
    rintro s n c k ⟨hr, hs⟩ hk
    refine ⟨fun hd _ => completesWith_of_exec ?_ hs, fun hd hn => completes_of_exec ?_ hs⟩
    · rw [exec_identify hr, Head.identify_controller hk hd]
    · rw [exec_identify hr, Head.identify_noNamespace hk hd hn]
  case getLog =>
    rintro s n c k lid len off ⟨hr, hs⟩ hk hl ho hn
    refine ⟨fun hb => completes_of_exec ?_ hs, fun hb h0 hp => completes_of_exec ?_ hs,
      fun bs hb h0 hp ha => completesWith_of_exec ?_ hs⟩
    · rw [exec_getLogPage hr, Head.getLog_badOffset hk ho hb]
    · rw [exec_getLogPage hr, Head.getLog_noPage hk hl ho hn hb h0 hp]
    · rw [exec_getLogPage hr, Head.getLog_page hk hl ho hn hb h0 hp ha]
  case abort =>
    rintro s n c ⟨hr, hs⟩
    exact completes_of_exec (exec_abort hr) hs
  case keepAlive =>
    rintro s n c k ⟨hr, hs⟩ hk
    exact ⟨_, exec_keepAlive hr, complete_modCtrl hk (fun _ => rfl) hs⟩
  case auth =>
    rintro s n c k msg ⟨hr, hs⟩ hk
    refine ⟨fun ht => ⟨_, exec_authenticationSend msg hr ht, complete_modCtrl hk (fun _ => rfl) hs⟩, fun ht => ?_⟩
    exact ⟨_, exec_authenticationReceive hr ht hk, complete_completedAfter stSuccess 0 rfl hs⟩

end Sys2Proof.Machine
end

section
/-!
SUPPORT. The test port, links and module slots (17_package_pins_electrical.md R368, 03_host_queues_and_ordering.md R46,
10_shelves_and_the_wheel.md R217, 09_rebuild_and_reshape.md R187).
-/

namespace Sys2Proof.Machine

open Sys2Proof

/-! ## The test port -/

/-- An instruction that acts as RESET_N holds the cores. -/
theorem exec_jtagInstructionLoad_holds {i : JtagInstr} (s : State) (hi : tapHolds (some i) = true) : exec (.jtagInstructionLoad i) s =
    .next { s with head := { s.head.holdReset with pins := { s.head.holdReset.pins with tap := some i } } } := by
  show execJtagInstructionLoad i s = _
  simp [execJtagInstructionLoad, hi]

theorem exec_jtagInstructionLoad_other {i : JtagInstr} (s : State) (hi : tapHolds (some i) = false) :
    exec (.jtagInstructionLoad i) s = .next { s with head := { s.head with pins := { s.head.pins with tap := some i } } } := by
  show execJtagInstructionLoad i s = _
  simp [execJtagInstructionLoad, hi]

theorem Head.heldReset_of_tap {h : Head} {i : JtagInstr} (ht : h.pins.tap = some i) (hi : tapHolds (some i) = true) :
    h.heldReset = true := by
  simp [Head.heldReset, ht, hi]

theorem exec_tapTestLogicReset_notHeld {s : State} (ht : tapHolds s.head.pins.tap = false) :
    exec .tapTestLogicReset s = .next { s with head := { s.head with pins := { s.head.pins with tap := none } } } := by
  show execTapTestLogicReset s = _
  simp [execTapTestLogicReset, ht]

theorem tapHolds_none : tapHolds none = false := rfl

/-- A head that the instruction alone held starts again from what its last start found. -/
theorem exec_tapTestLogicReset_held {s : State} {i : StartInfo} (ht : tapHolds s.head.pins.tap = true)
    (hr : s.head.pins.resetLow = false) (hf : s.head.fwu.found = some i) : exec .tapTestLogicReset s =
      .next { s with head := ({ s.head with pins := { s.head.pins with tap := none } } : Head).start 5 i } := by
  show execTapTestLogicReset s = _
  simp [execTapTestLogicReset, ht, hf, Head.heldReset, hr, tapHolds_none]

/-! ## Links -/

theorem exec_hostPortLinkDown (p : Nat) (s : State) :
    exec (.hostPortLinkDown p) s = .next { s with head := s.head.hostPortDown p } := rfl

theorem exec_backendPortLinkUp (p w v : Nat) (s : State) :
    exec (.backendPortLinkUp p w v) s = .next { s with head := s.head.backendUp p w v } := rfl

/-- A port without a queue pair loses no connection. -/
theorem Head.hostPortDown_noQpair {h : Head} {p : Nat} (hp : p < 8) (hq : h.hqe.qpairs.filter (·.port == p) = []) :
    h.hostPortDown p = (h.modHqe fun q => { q with portsUp := q.portsUp &&& ~~~(BitVec.ofNat 8 (2 ^ p)) }).raise (288 + p) := by
  unfold Head.hostPortDown
  rw [if_neg (by omega), hq]
  rfl

/-- A change that keeps the number of a port is read back from that port, which is listed from then on. -/
theorem Head.modPort_port_self (h : Head) (n : Nat) {f : Port → Port} (hf : ∀ p, (f p).port = p.port) :
    (h.modPort n f).shf.port n = f (h.shf.port n) := by
  show Shf.port (if h.shf.ports.any (·.port == n) then _ else _) n = _
  split
  next ha =>
    obtain ⟨p, hp⟩ := Option.isSome_iff_exists.1 (List.find?_isSome.2 (List.any_eq_true.1 ha))
    have hm := find?_map_named (f := f) (named := fun p => p.port == n) (p := fun p => p.port = n) (by simp) (by simp [hf]) h.shf.ports
    rw [Shf.port, Shf.port, hm, hp]
    rfl
  next ha =>
    have hn : h.shf.ports.find? (·.port == n) = none := by simpa using ha
    simp [Shf.port, List.find?_append, hn, hf]

theorem Head.backendUp_outOfRange {h : Head} {p w v : Nat} (hr : 16 ≤ p ∨ w = 0 ∨ 8 < w ∨ v = 0 ∨ 6 < v ∨ h.fwu.running = false) :
    h.backendUp p w v = h :=
  if_pos (by simpa using hr)

/-- A port whose link came up. -/
def relinked (w v : Nat) (x : Port) : Port :=
  { x with width := w, speed := v, lost := false, retrain := 0, narrow := x.narrow && decide (w < 8) }

theorem relinked_port (w v : Nat) (x : Port) : (relinked w v x).port = x.port := rfl

/-- A port that was neither lost nor narrow takes its width and rate. -/
theorem Head.backendUp_inRange {h : Head} {p w v : Nat} (hp : p < 16) (hw : 1 ≤ w) (hw' : w ≤ 8) (hv : 1 ≤ v) (hv' : v ≤ 6)
    (hr : h.fwu.running = true) (hl : (h.shf.port p).lost = false) (hn : (h.shf.port p).narrow = false) :
    h.backendUp p w v = h.modPort p (relinked w v) := by
  have hc : ¬(16 ≤ p ∨ w = 0 ∨ 8 < w ∨ v = 0 ∨ 6 < v ∨ !h.fwu.running) := by
    simp only [hr, Bool.not_true, Bool.false_eq_true, or_false]
    omega
  unfold Head.backendUp
  rw [if_neg hc, hl, hn]
  rfl

/-! ## Modules -/

theorem exec_moduleInserted (sh n : Nat) (s : State) :
    exec (.moduleInserted sh n) s = .next { s with head := s.head.moduleInserted sh n } := rfl

/-- A slot that was never filled lists its module. -/
theorem Head.moduleInserted_new {h : Head} {sh n : Nat} (hs : sh < 128) (hn : n < 48)
    (hf : h.mnd.modules.find? (fun m => m.shelf == sh && m.mdl == n) = none) :
    h.moduleInserted sh n = h.modMnd fun m => { m with modules := m.modules ++ [{ shelf := sh, mdl := n }] } := by
  unfold Head.moduleInserted
  rw [if_neg (by omega), hf]

/-- A slot in service keeps its module. -/
theorem Head.moduleInserted_inService {h : Head} {sh n : Nat} {m : Module}
    (hf : h.mnd.modules.find? (fun m => m.shelf == sh && m.mdl == n) = some m) (hm : m.state < 4) : h.moduleInserted sh n = h := by
  unfold Head.moduleInserted
  rw [hf]
  dsimp only
  rw [if_neg (show ¬(m.state = 4 ∨ m.state = 5) by omega), ite_self]

/-- Settles O50, row by row. -/
theorem testPortLinksAndModuleSlots : Obligations.TestPortLinksAndModuleSlots := by
  unfold Obligations.TestPortLinksAndModuleSlots
  refine ⟨?holds, ?loads, ?tapReset, ?tapStart, ?noHostPort, ?hostPort, ?noBackend, ?backend, ?newModule, ?inService⟩
  case holds => exact fun s i hi => ⟨_, exec_jtagInstructionLoad_holds s hi, rfl, rfl, rfl, Head.heldReset_of_tap rfl hi⟩
  case loads => exact fun s i hi => ⟨_, exec_jtagInstructionLoad_other s hi, rfl⟩
  case tapReset => exact fun s ht => ⟨_, exec_tapTestLogicReset_notHeld ht, rfl⟩
  case tapStart => exact fun s i ht hr hf => ⟨_, exec_tapTestLogicReset_held ht hr hf, rfl⟩
  case noHostPort => exact fun s p hp => ⟨_, exec_hostPortLinkDown p s, if_pos hp⟩
  case hostPort =>
    intro s p hp hq
    refine ⟨_, exec_hostPortLinkDown p s, ?_⟩
    rw [Head.hostPortDown_noQpair hp hq]
    exact ⟨Head.raise_hqe .., Head.raise_src_self ..⟩
  case noBackend => exact fun s p w v hr => ⟨_, exec_backendPortLinkUp p w v s, Head.backendUp_outOfRange hr⟩
  case backend =>
    intro s p w v hp hw hw' hv hv' hr hl hn
    refine ⟨_, exec_backendPortLinkUp p w v s, ?_⟩
    have hport := s.head.modPort_port_self p (relinked_port w v)
    rw [Head.backendUp_inRange hp hw hw' hv hv' hr hl hn]
    exact ⟨rfl, congrArg Port.width hport, congrArg Port.speed hport, congrArg Port.lost hport⟩
  case newModule =>
    intro s sh n hs hn hf
    refine ⟨_, exec_moduleInserted sh n s, ?_⟩
    rw [Head.moduleInserted_new hs hn hf]
    refine ⟨rfl, ?_⟩
    simp [Head.modMnd, Mnd.mdl, List.find?_append, hf]
  case inService => exact fun s sh n m hf hm => ⟨_, exec_moduleInserted sh n s, Head.moduleInserted_inService hf hm⟩

end Sys2Proof.Machine
end

section
/-!
SUPPORT. The clears of counters and the build of a summary (15_faults_barker_attic.md R334): each row is one update of the head.
-/

namespace Sys2Proof.Machine

open Sys2Proof

theorem exec_hqePeakClear (s : State) : exec .hqePeakClear s = .next { s with head := s.head.peakClear } := rfl
theorem exec_ldrCntClear (s : State) : exec .ldrCntClear s = .next { s with head := s.head.ldrClear } := rfl
theorem exec_cphStatClear (s : State) : exec .cphStatClear s = .next { s with head := s.head.cphClear } := rfl
theorem exec_cmpStatClear (s : State) : exec .cmpStatClear s = .next { s with head := s.head.cmpStatClear } := rfl
theorem exec_ptyCntClear (s : State) : exec .ptyCntClear s = .next { s with head := s.head.ptyClear } := rfl
theorem exec_panStatClear (s : State) : exec .panStatClear s = .next { s with head := s.head.panClear } := rfl
theorem exec_memErrClear (s : State) : exec .memErrClear s = .next { s with head := s.head.memClear } := rfl
theorem exec_paradeBuild (s : State) : exec .paradeBuild s = .next { s with head := s.head.paradeBuild } := rfl

/-- A build shows the summary, takes the next sequence number and uses up free values; it changes nothing else. -/
theorem Head.paradeBuild_frame (h : Head) : h.paradeBuild =
    { h with parade := h.buildSummary.2, paradeSeq := (h.paradeSeq + 1) % 2 ^ 32, free := h.free + 1 } := rfl

/-- Settles O19: each row is the update that the statement names. -/
theorem clearsZeroTheirCountersAlone : Obligations.ClearsZeroTheirCountersAlone := by
  unfold Obligations.ClearsZeroTheirCountersAlone
  refine ⟨fun s => ⟨_, exec_hqePeakClear s, rfl⟩, fun s => ⟨_, exec_ldrCntClear s, rfl⟩, fun s => ⟨_, exec_cphStatClear s, rfl⟩,
    fun s => ⟨_, exec_cmpStatClear s, rfl⟩, fun s => ⟨_, exec_ptyCntClear s, rfl⟩, fun s => ⟨_, exec_panStatClear s, rfl⟩,
    fun s => ⟨_, exec_memErrClear s, rfl⟩, fun s => ⟨_, exec_paradeBuild s, ?_⟩⟩
  rw [Head.paradeBuild_frame]
  exact ⟨rfl, rfl, _, rfl⟩

end Sys2Proof.Machine
end

section
/-!
SUPPORT. Zeroed and deallocated blocks (03_host_queues_and_ordering.md R59, R60; 01_head_architecture.md R15): which extents are left of a
range that was mapped to the zero extent, and what a Read of blocks without extents sends.
-/

namespace Sys2Proof.Machine

open Sys2Proof

/-! ## What is left of the extents -/

/-- What is left of an extent is part of it and has no byte in the range that was cut out. -/
theorem Extent.of_mem_cut {e x : Extent} {nsid s n : Nat} (hx : x ∈ e.cut nsid s n) :
    (x.nsid = e.nsid ∧ e.start ≤ x.start ∧ x.start + x.len ≤ e.start + e.len) ∧
      ¬(x.nsid = nsid ∧ x.start < s + n ∧ s < x.start + x.len) := by
  unfold Extent.cut at hx
  split at hx
  case isTrue => rw [List.mem_singleton.1 hx]; omega
  case isFalse =>
    simp only [List.mem_append, List.mem_ite_nil_right, List.mem_singleton] at hx
    obtain ⟨hs, rfl⟩ | ⟨hs, rfl⟩ := hx
    · dsimp only
      omega
    · dsimp only
      omega

theorem extentsIn_eq_nil_iff (l : List Extent) (nsid s n : Nat) :
    extentsIn l nsid s n = [] ↔ ∀ e ∈ l, ¬(e.nsid = nsid ∧ e.start < s + n ∧ s < e.start + e.len) := by
  simp [extentsIn, List.filter_eq_nil_iff]

/-- A range that was cut out of a map is not mapped. -/
theorem extentsIn_cut_self (l : List Extent) (nsid s n : Nat) : extentsIn (l.flatMap fun e => e.cut nsid s n) nsid s n = [] := by
  rw [extentsIn_eq_nil_iff]
  intro x hx
  obtain ⟨e, -, he⟩ := List.mem_flatMap.1 hx
  exact (Extent.of_mem_cut he).2

/-- A range that was not mapped is not mapped after another range was cut out. -/
theorem extentsIn_cut_other {l : List Extent} {nsid s n : Nat} (nsid' s' n' : Nat) (hl : extentsIn l nsid s n = []) :
    extentsIn (l.flatMap fun e => e.cut nsid' s' n') nsid s n = [] := by
  rw [extentsIn_eq_nil_iff] at hl ⊢
  intro x hx
  obtain ⟨e, he, hc⟩ := List.mem_flatMap.1 hx
  obtain ⟨⟨hn, hs, hend⟩, -⟩ := Extent.of_mem_cut hc
  have := hl e he
  omega

/-! ## Orders and reference counts leave the extents alone -/

/-- A reading of the head: the extents of its map. -/
def Head.extents (h : Head) : List Extent := h.dp.extents

theorem Head.issue_extents (h : Head) (t : Troupe) (r : OrderRec) : (h.issue t r).extents = h.extents :=
  Head.when_reading Head.extents rfl

theorem Head.modChunk_extents (h : Head) (u : Nat) (f : Chunk → Chunk) : (h.modChunk u f).extents = h.extents := rfl

theorem Head.incRef_extents (h : Head) (u : Nat) : (h.incRef u).extents = h.extents := by
  unfold Head.incRef
  split
  · rfl
  · exact Head.when_reading Head.extents (Head.issue_extents ..)

theorem Head.decRef_extents (h : Head) (u : Nat) : (h.decRef u).extents = h.extents := by
  unfold Head.decRef
  split
  · rfl
  · exact Head.when_reading Head.extents (Head.issue_extents ..)

theorem Head.unmap_extents (h : Head) (nsid s n : Nat) : (h.unmap nsid s n).extents = h.extents.flatMap fun e => e.cut nsid s n := by
  refine Head.forEach_reading Head.extents (fun g e => ?_) ..
  split
  · rfl
  · split
    · exact Head.decRef_extents ..
    · exact Head.incRef_extents ..
    · rfl

theorem Head.zeroRange_extents (h : Head) (t : Troupe) (dom nsid lba n : Nat) :
    (h.zeroRange t dom nsid lba n).extents = h.extents.flatMap fun e => e.cut nsid (lba * 4096) (n * 4096) := by
  rw [Head.zeroRange, Head.unmap_extents, Head.issue_extents]

theorem Head.complete_extents (h : Head) (c : Ctx) (st : Status) (d : Nat) : (h.complete c st d).extents = h.extents := by
  rw [complete_frame]
  rfl

theorem Head.tryAck_extents (h : Head) (n : Nat) : (h.tryAck n).extents = h.extents := by
  refine Head.withCtx_reading Head.extents fun c => ?_
  split
  · rfl
  dsimp only
  split
  · exact Head.complete_extents ..
  · rfl

/-! ## Ranges mapped to the zero extent -/

/-- A change for each entry of a list establishes for each of them what the change of that entry brings about and every change keeps. -/
theorem Head.forEach_establishes {α : Type} {P : α → Head → Prop} {f : Head → α → Head} (made : ∀ h x, P x (f h x))
    (kept : ∀ h x y, P y h → P y (f h x)) (h : Head) (l : List α) : ∀ x ∈ l, P x (h.forEach l f) := by
  have keeps (l : List α) (g : Head) (y : α) (hy : P y g) : P y (g.forEach l f) := by
    induction l generalizing g with
    | nil => exact hy
    | cons x l ih => exact ih _ (kept g x y hy)
  induction l generalizing h with
  | nil => exact fun x hx => absurd hx List.not_mem_nil
  | cons x l ih =>
    intro y hy
    obtain rfl | hy := List.mem_cons.1 hy
    · exact keeps l _ y (made h y)
    · exact ih _ y hy

theorem Head.zeroRanges_unmap (h : Head) (t : Troupe) (dom nsid : Nat) (l : List (Nat × Nat)) :
    ∀ r ∈ l, extentsIn (h.forEach l fun h r => h.zeroRange t dom nsid r.1 r.2).extents nsid (r.1 * 4096) (r.2 * 4096) = [] := by
  refine Head.forEach_establishes (P := fun (r : Nat × Nat) h => extentsIn h.extents nsid (r.1 * 4096) (r.2 * 4096) = [])
    (f := fun h r => h.zeroRange t dom nsid r.1 r.2) (fun h r => ?_) (fun h r y hy => ?_) h l
  · rw [Head.zeroRange_extents]
    exact extentsIn_cut_self ..
  · rw [Head.zeroRange_extents]
    exact extentsIn_cut_other _ _ _ hy

/-- After a writer without data no byte of its ranges is mapped. -/
theorem Head.zeroWriter_unmaps (h : Head) (c : Ctx) (ns : Namespace) {ranges : List (Nat × Nat)} {r : Nat × Nat} (hr : r ∈ ranges)
    (h0 : r.2 ≠ 0) : (h.zeroWriter c ns ranges).dp.extentsOf ns.nsid (r.1 * 4096) (r.2 * 4096) = [] := by
  unfold Head.zeroWriter
  extract_lets described zeroed beat
  have hz : extentsIn zeroed.extents ns.nsid (r.1 * 4096) (r.2 * 4096) = [] :=
    described.zeroRanges_unmap _ _ _ _ r (List.mem_filter.2 ⟨hr, by simpa using h0⟩)
  show extentsIn (Head.extents _) _ _ _ = []
  rw [Head.tryAck_extents]
  exact hz

/-! ## A Read of blocks without extents -/

/-- A block of zeros as a Read with PRACT 0 sends it: its guard, the application tag 0xFFFF and its reference tag follow (R60). -/
def zeroBlock (lba : Nat) : Bytes :=
  zeros 4096 ++ beBytes 8 (crc64 (zeros 4096)).toNat ++ [0xFF, 0xFF] ++ beBytes 6 (lba % 2 ^ 48)

theorem sentBlock_zeros {c : Capsule} (hp : c.pract = false) (lba : Nat) : sentBlock c lba 0xFFFF (zeros 4096) = zeroBlock lba := by
  rw [sentBlock, hp]
  rfl

theorem blockBytes_noExtent (decoded : List (Nat × Bytes)) (nsid s n : Nat) : blockBytes [] decoded nsid s n = some (zeros n) := rfl

theorem tagAt_noExtent (nsid lba : Nat) : tagAt [] nsid lba = 0xFFFF := rfl

theorem Head.ctx?_modCtx {h : Head} {n : Nat} {f : Ctx → Ctx} {c : Ctx} (hc : h.hqe.ctx? n = some c) (hf : ∀ x, (f x).id = x.id) :
    (h.modCtx n f).hqe.ctx? n = some (f c) :=
  (h.ctx?_modCtx_self n f hf).trans (congrArg (Option.map f) hc)

/-- A context that runs a Read of blocks without extents. -/
structure Ctx.ReadsZeros (c : Ctx) : Prop where
  running : c.phase = .running
  view : c.view = []
  opcode : c.cap.opcode = opRead
  pract : c.cap.pract = false

/-- Serving such a block sends it and takes it off the blocks that remain. -/
theorem Head.serveBlock_zeros {h : Head} {n : Nat} {c : Ctx} (hc : h.hqe.ctx? n = some c) (hz : c.ReadsZeros) (lba : Nat) :
    h.serveBlock n lba = ((h.modCtx n fun x => { x with remaining := x.remaining.filter (· != lba) }).emit
      (.hostData n lba (zeroBlock lba))).modHqe fun q => { q with blocksRead := q.blocksRead + 1 } := by
  obtain ⟨hrun, hview, hop, hp⟩ := hz
  unfold Head.serveBlock Head.withCtx
  rw [hc]
  dsimp only
  rw [if_neg (by simp [hrun]), hview, blockBytes_noExtent, tagAt_noExtent]
  dsimp only
  rw [if_neg (by rw [hop]; decide), sentBlock_zeros hp]
  rfl

/-- Serving a list of such blocks sends each in turn and changes the queues besides. -/
theorem Head.forEach_serveBlock_zeros {h : Head} {n : Nat} {c : Ctx} (hc : h.hqe.ctx? n = some c) (hz : c.ReadsZeros) (l : List Nat) :
    ∃ q rest, h.forEach l (fun h lba => h.serveBlock n lba) =
        { h with hqe := q, out := (l.reverse.map fun lba => .hostData n lba (zeroBlock lba)) ++ h.out } ∧
      q.ctx? n = some { c with remaining := rest } ∧ ∀ b ∈ rest, b ∈ c.remaining ∧ b ∉ l := by
  unfold Head.forEach
  induction l generalizing h c with
  | nil => exact ⟨h.hqe, c.remaining, rfl, hc, fun b hb => ⟨hb, List.not_mem_nil⟩⟩
  | cons lba l ih =>
    rw [List.foldl_cons, Head.serveBlock_zeros hc hz]
    have hc' : (h.modCtx n fun x => { x with remaining := x.remaining.filter (· != lba) }).hqe.ctx? n =
        some { c with remaining := c.remaining.filter (· != lba) } := Head.ctx?_modCtx hc fun _ => rfl
    obtain ⟨q, rest, e, hq, hr⟩ := ih (h := ((h.modCtx n fun x => { x with remaining := x.remaining.filter (· != lba) }).emit
      (.hostData n lba (zeroBlock lba))).modHqe fun q => { q with blocksRead := q.blocksRead + 1 }) hc' ⟨hz.1, hz.2, hz.3, hz.4⟩
    refine ⟨q, rest, ?_, hq, fun b hb => ?_⟩
    · rw [e]
      simp [Head.modCtx]
    · obtain ⟨hmem, hl⟩ := hr b hb
      obtain ⟨hc, hne⟩ := List.mem_filter.1 hmem
      exact ⟨hc, List.not_mem_cons_of_ne_of_not_mem (by simpa using hne) hl⟩

/-- With all its blocks sent the command completes. -/
theorem Head.serveBlocks_zeros {h : Head} {n : Nat} {c : Ctx} (hc : h.hqe.ctx? n = some c) (hz : c.ReadsZeros) :
    ∃ q, h.serveBlocks n = ({ h with
      hqe := q, out := (c.remaining.reverse.map fun lba => .hostData n lba (zeroBlock lba)) ++ h.out } : Head).complete
        { c with remaining := [] } stSuccess 0 := by
  obtain ⟨q, rest, e, hq, hr⟩ := h.forEach_serveBlock_zeros hc hz c.remaining
  obtain rfl : rest = [] := List.eq_nil_iff_forall_not_mem.2 fun b hb => (hr b hb).2 (hr b hb).1
  refine ⟨q, ?_⟩
  unfold Head.serveBlocks Head.withCtx
  rw [hc]
  dsimp only
  rw [e, hq]
  exact if_pos ⟨hz.running, rfl⟩

/-- The context of a Read that runs on blocks without extents: `n` blocks from `slba` remain to be sent. -/
def Ctx.zeroRead (slba n : Nat) (x : Ctx) : Ctx :=
  { x with phase := .running, resolved := true, refs := [], hostData := [], view := [], remaining := (List.range n).map (slba + ·) }

theorem Ctx.zeroRead_id (slba n : Nat) (x : Ctx) : (x.zeroRead slba n).id = x.id := rfl

/-- A Read of blocks without extents has nothing to decode: its blocks are served at once. -/
theorem Head.runRead_noExtent {h : Head} {c : Ctx} (ho : c.cap.opcode = opRead)
    (he : h.dp.extentsOf c.cap.nsid (c.cap.slba * 4096) ((c.cap.nlb + 1) * 4096) = []) :
    h.runRead c [] = (h.modCtx c.id (Ctx.zeroRead c.cap.slba (c.cap.nlb + 1))).serveBlocks c.id := by
  have hu : h.dp.chunksOf c.cap.nsid c.cap.slba (c.cap.nlb + 1) = [] := by
    rw [Dp.chunksOf, he]
    rfl
  have hcmp : (c.cap.opcode == opCompare) = false := by
    rw [ho]
    rfl
  unfold Head.runRead
  dsimp only
  rw [he, hu, hcmp]
  rfl

theorem exec_read {s : State} {n : Nat} {c : Ctx} (hr : s.holdsReady n c false opRead) :
    exec (.read n) s = .next { s with head := s.head.runRead c [] } := by
  show execRead n s = _
  simp [execRead, ready_of_holds hr]

/-! ## Fields of Identify data -/

theorem patch_length (off : Nat) (new bs : Bytes) : (patch off new bs).length = bs.length := by
  simp [patch]
  omega

theorem patch_getD_before {i off : Nat} (new bs : Bytes) (hi : i < off) : (patch off new bs).getD i 0 = bs.getD i 0 := by
  by_cases hb : i < bs.length
  · simp [patch, List.getD_eq_getElem?_getD, List.getElem?_append, hb, hi]
  · rw [List.getD_eq_default _ _ (by rw [patch_length]; omega), List.getD_eq_default _ _ (by omega)]

theorem patch_getD_at {off : Nat} (b : Byte) (new bs : Bytes) (hb : off < bs.length) : (patch off (b :: new) bs).getD off 0 = b := by
  simp [patch, List.getD_eq_getElem?_getD, hb, Nat.le_of_lt hb]

theorem fit_length (n : Nat) (bs : Bytes) : (fit n bs).length = n := by
  simp [fit, zeros]
  omega

theorem identifyNamespace_dlfeat (ns : Namespace) : (identifyNamespace ns).getD 33 0 = 1 := by
  unfold identifyNamespace withFields
  simp only [List.foldl_cons, List.foldl_nil]
  rw [patch_getD_before _ _ (by decide), patch_getD_before _ _ (by decide)]
  refine patch_getD_at 1 [] _ ?_
  simp only [patch_length, fit_length]
  decide

/-- Settles O58: a writer cuts its ranges out of the extents, and a Read without extents sends zeros. -/
theorem zeroedBlocksReadAsZeros : Obligations.ZeroedBlocksReadAsZeros := by
  unfold Obligations.ZeroedBlocksReadAsZeros
  refine ⟨?zeroes, ?dsm, ?read, identifyNamespace_dlfeat⟩
  case zeroes =>
    intro s n c ns hr hn hs hm
    have hrange := s.head.zeroWriter_unmaps c ns (List.mem_singleton_self (c.cap.slba, c.cap.nlb + 1)) (Nat.succ_ne_zero _)
    exact ⟨_, exec_writeZeroes_room hr hn hs hm, hrange⟩
  case dsm =>
    intro s n c ns rs hr ha hc hn hl hw hs hm
    refine ⟨_, exec_datasetManagement_ready rs hr, fun r hmem h0 => ?_⟩
    rw [Head.deallocate_inCapsule _ ha hc hn hl hw hs hm]
    exact Head.zeroWriter_unmaps _ c ns hmem h0
  case read =>
    rintro s n c ⟨hr, hs⟩ hp he
    obtain ⟨hc, -, -, ho, -⟩ := id hr
    obtain rfl := Hqe.ctx?_id hc
    refine ⟨_, exec_read hr, ?_⟩
    obtain ⟨q, e⟩ := Head.serveBlocks_zeros (Head.ctx?_modCtx hc (Ctx.zeroRead_id c.cap.slba (c.cap.nlb + 1))) ⟨rfl, rfl, ho, hp⟩
    rw [Head.runRead_noExtent ho he, e]
    refine ⟨complete_completedAfter stSuccess 0 ?_ hs, ?_⟩
    · simp [Ctx.zeroRead, zeroBlock, Head.modCtx, Function.comp_def]
    · rw [complete_frame]
      rfl

end Sys2Proof.Machine
end

section
/-!
SUPPORT. The chunker (04_chunking_and_dedup.md R81 to R83): when a byte closes the open chunk, what the closed chunks and the open one
have in common, and why a stream may come in pieces.
-/

namespace Sys2Proof.Machine

open Sys2Proof

/-! ## Where a cut falls -/

/-- A cut falls at the least length at the earliest, and is forced at the greatest length and nowhere else. -/
theorem cutHere_eq_some {ms ml hash : BitVec 64} {n : Nat} {forced : Bool} (h : cutHere ms ml n hash = some forced) :
    16384 ≤ n ∧ (forced = true ↔ n = 262144) := by
  unfold cutHere at h
  split_ifs at h with hmax hlong hshort <;> cases h
  · exact ⟨by omega, by simp [hmax]⟩
  · exact ⟨by omega, by simp [hmax]⟩
  · exact ⟨hshort.1, by simp [hmax]⟩

/-- A chunk of the greatest length does not stay open. -/
theorem ne_of_cutHere_none {ms ml hash : BitVec 64} {n : Nat} (h : cutHere ms ml n hash = none) : n ≠ 262144 := by
  rintro rfl
  simp [cutHere] at h

/-! ## One byte of the stream -/

/-- The open chunk with one more byte. -/
def CutState.push (seed : BitVec 64) (c : CutState) (x : Byte) : CutState := ⟨x :: c.rev, c.n + 1, (c.hash <<< 1) + gear seed x⟩

/-- The open chunk counts its bytes and is shorter than the greatest length. -/
structure CutState.Open (c : CutState) : Prop where
  counted : c.n = c.rev.length
  short : c.n < 262144

theorem CutState.open_empty : CutState.Open ⟨[], 0, 0⟩ := ⟨rfl, by decide⟩

section byte
variable (seed ms ml : BitVec 64) (x : Byte) (xs : Bytes) (c : CutState)

theorem chunker_nil : chunker seed ms ml [] c = ([], c) := rfl

theorem chunker_cons_cut {forced : Bool} (h : cutHere ms ml (c.push seed x).n (c.push seed x).hash = some forced) :
    chunker seed ms ml (x :: xs) c =
      (((c.push seed x).rev.reverse, forced) :: (chunker seed ms ml xs ⟨[], 0, 0⟩).1, (chunker seed ms ml xs ⟨[], 0, 0⟩).2) := by
  simp only [CutState.push] at h ⊢
  simp only [chunker, h]

theorem chunker_cons_open (h : cutHere ms ml (c.push seed x).n (c.push seed x).hash = none) :
    chunker seed ms ml (x :: xs) c = chunker seed ms ml xs (c.push seed x) := by
  simp only [CutState.push] at h ⊢
  simp only [chunker, h]

variable {seed ms ml x c}

theorem CutState.Open.push (ho : c.Open) (h : cutHere ms ml (c.push seed x).n (c.push seed x).hash = none) : (c.push seed x).Open where
  counted := congrArg Nat.succ ho.counted
  short := Nat.lt_of_le_of_ne ho.short (ne_of_cutHere_none h)

/-- A chunk closes with its least to its greatest length, FORCED exactly at the greatest. -/
theorem CutState.Open.closed {forced : Bool} (ho : c.Open)
    (h : cutHere ms ml (c.push seed x).n (c.push seed x).hash = some forced) :
    16384 ≤ (c.push seed x).rev.reverse.length ∧ (c.push seed x).rev.reverse.length ≤ 262144 ∧
      (forced = true ↔ (c.push seed x).rev.reverse.length = 262144) := by
  have hn : (c.push seed x).rev.reverse.length = (c.push seed x).n := List.length_reverse.trans (congrArg Nat.succ ho.counted).symm
  rw [hn]
  obtain ⟨hmin, hforced⟩ := cutHere_eq_some h
  exact ⟨hmin, ho.short, hforced⟩

end byte

/-! ## The whole stream -/

/-- The closed chunks in order and then the open chunk are what was open and then the stream. -/
theorem chunker_join (seed ms ml : BitVec 64) (bs : Bytes) (c : CutState) :
    ((chunker seed ms ml bs c).1.map (·.1)).flatten ++ (chunker seed ms ml bs c).2.rev.reverse = c.rev.reverse ++ bs := by
  induction bs, c using chunker.induct seed ms ml with
  | case1 c => simp [chunker_nil]
  | case2 x xs c hash forced hcut l c' hl ih =>
    rw [chunker_cons_cut seed ms ml x xs c hcut]
    simpa [CutState.push] using ih
  | case3 x xs c hash rev hcut ih =>
    rw [chunker_cons_open seed ms ml x xs c hcut]
    simpa [CutState.push, rev] using ih

theorem chunker_open (seed ms ml : BitVec 64) (bs : Bytes) (c : CutState) (ho : c.Open) : (chunker seed ms ml bs c).2.Open := by
  induction bs, c using chunker.induct seed ms ml with
  | case1 c => exact ho
  | case2 x xs c hash forced hcut l c' hl ih =>
    rw [chunker_cons_cut seed ms ml x xs c hcut]
    exact ih CutState.open_empty
  | case3 x xs c hash rev hcut ih =>
    rw [chunker_cons_open seed ms ml x xs c hcut]
    exact ih (ho.push hcut)

theorem chunker_closed (seed ms ml : BitVec 64) (bs : Bytes) (c : CutState) (ho : c.Open) :
    ∀ x ∈ (chunker seed ms ml bs c).1, 16384 ≤ x.1.length ∧ x.1.length ≤ 262144 ∧ (x.2 = true ↔ x.1.length = 262144) := by
  induction bs, c using chunker.induct seed ms ml with
  | case1 c => simp [chunker_nil]
  | case2 x xs c hash forced hcut l c' hl ih =>
    rw [chunker_cons_cut seed ms ml x xs c hcut]
    exact List.forall_mem_cons.2 ⟨ho.closed hcut, ih CutState.open_empty⟩
  | case3 x xs c hash rev hcut ih =>
    rw [chunker_cons_open seed ms ml x xs c hcut]
    exact ih (ho.push hcut)

/-- The open chunk carries all that the chunker knows of the bytes before, so a stream may be cut in pieces. -/
theorem chunker_append (seed ms ml : BitVec 64) (xs ys : Bytes) (c : CutState) :
    chunker seed ms ml (xs ++ ys) c =
      ((chunker seed ms ml xs c).1 ++ (chunker seed ms ml ys (chunker seed ms ml xs c).2).1,
       (chunker seed ms ml ys (chunker seed ms ml xs c).2).2) := by
  induction xs, c using chunker.induct seed ms ml with
  | case1 c => rfl
  | case2 x xs c hash forced hcut l c' hl ih =>
    rw [List.cons_append, chunker_cons_cut seed ms ml x (xs ++ ys) c hcut, chunker_cons_cut seed ms ml x xs c hcut, ih]
    rfl
  | case3 x xs c hash rev hcut ih =>
    rw [List.cons_append, chunker_cons_open seed ms ml x (xs ++ ys) c hcut, chunker_cons_open seed ms ml x xs c hcut]
    exact ih

/-- Settles O59, by induction on the stream: a byte either stays in the open chunk or closes it. -/
theorem chunksPartitionTheStream : Obligations.ChunksPartitionTheStream := by
  unfold Obligations.ChunksPartitionTheStream
  refine ⟨fun seed ms ml bs c hn hs => ?_, chunker_append⟩
  have ho : c.Open := ⟨hn, hs⟩
  obtain ⟨hn', hs'⟩ := chunker_open seed ms ml bs c ho
  exact ⟨chunker_join seed ms ml bs c, hn', hs', chunker_closed seed ms ml bs c ho⟩

end Sys2Proof.Machine
end

section
/-!
SUPPORT. The generations of the Larder (04_chunking_and_dedup.md R91): when a turn begins, and what the end of a clearing leaves.
-/

namespace Sys2Proof.Machine

open Sys2Proof

theorem exec_larderGenerationTurn (s : State) : exec .larderGenerationTurn s = .next { s with head := s.head.turnLarder } := rfl
theorem exec_larderGenerationCleared (s : State) : exec .larderGenerationCleared s = .next { s with head := s.head.larderTurned } := rfl

theorem Head.turnLarder_noTurn {h : Head}
    (hw : h.ldr.clearing.isSome = true ∨ h.ldr.genOcc h.ldr.curGen * 100 < h.genFillPct * 12582912) : h.turnLarder = h :=
  if_pos hw

/-- A turn begins when no generation clears and the current one has reached its fill. -/
theorem Head.turnLarder_begins {h : Head} (hc : h.ldr.clearing = none)
    (hf : h.genFillPct * 12582912 ≤ h.ldr.genOcc h.ldr.curGen * 100) :
    h.turnLarder = h.modLdr fun l => { l with clearing := some ((l.curGen + 1) % 4) } :=
  if_neg (by simpa [hc] using hf)

/-- The Larder after generation `g` has been cleared. -/
def Ldr.cleared (l : Ldr) (g : Nat) : Ldr :=
  { l with curGen := g, clearing := none, larder := l.larder.filter fun e => e.1 / 3145728 != g }

theorem Ldr.mem_cleared {l : Ldr} {g : Nat} {e : Nat × List Nat} :
    e ∈ (l.cleared g).larder ↔ e ∈ l.larder ∧ e.1 / 3145728 ≠ g := by
  simp [Ldr.cleared]

theorem Head.larderTurned_clearing {h : Head} {g : Nat} (hc : h.ldr.clearing = some g) :
    h.larderTurned = (h.modLdr (·.cleared g)).raise 784 := by
  simp only [Head.larderTurned, hc]
  rfl

/-- Settles O21, from the two branches of a turn and from what the end of a clearing does. -/
theorem larderGenerationsTurn : Obligations.LarderGenerationsTurn := by
  unfold Obligations.LarderGenerationsTurn
  refine ⟨?noTurn, ?begins, ?cleared⟩
  case noTurn => exact fun s hw => ⟨_, exec_larderGenerationTurn s, Head.turnLarder_noTurn hw⟩
  case begins => exact fun s hc hf => ⟨_, exec_larderGenerationTurn s, Head.turnLarder_begins hc hf⟩
  case cleared =>
    intro s g hc
    refine ⟨_, exec_larderGenerationCleared s, ?_⟩
    dsimp only
    rw [Head.larderTurned_clearing hc, Head.raise_ldr]
    exact ⟨rfl, rfl, Head.raise_src_self _ 784, Head.raise_dp _ 784, fun e => Ldr.mem_cleared⟩

end Sys2Proof.Machine
end

section
/-!
SUPPORT. The mailbox after a submission (06_cipher_and_strongroom.md R126, R127): what a rejected token and an offer of ownership leave.
-/

namespace Sys2Proof.Machine

open Sys2Proof

/-! ## The emptied mailbox -/

/-- Writing one value to a list of registers: those of the list read as the value, every other one as before. -/
theorem Head.forEach_setReg_reg {α : Type} (h : Head) (l : List α) (k : α → Nat) (w : Word) (j : Nat) :
    (h.forEach l fun h x => h.setReg (k x) w).reg j = if j ∈ l.map k then w else h.reg j := by
  unfold Head.forEach
  induction l generalizing h with
  | nil => rfl
  | cons x l ih =>
    refine (ih (h.setReg (k x) w)).trans ?_
    by_cases hj : j = k x
    · simp [hj, Head.reg_setReg_self]
    · simp [hj, Head.reg_setReg_other]

@[simp] theorem Head.modStg_reg (h : Head) (g : Stg → Stg) (k : Nat) : (h.modStg g).reg k = h.reg k := rfl

theorem Head.mailboxDone_reg (h : Head) (r : Nat) {n : Nat} (hn : n < 16) : (h.mailboxDone r).reg (Adr.STG_TOKEN n) = 0 := by
  have hm : Adr.STG_TOKEN n ∈ (List.range 16).map Adr.STG_TOKEN := List.mem_map_of_mem (List.mem_range.2 hn)
  rw [Head.mailboxDone, Head.modStg_reg, Head.forEach_setReg_reg, if_pos hm]

/-! ## The rows of the tokens -/

/-- A command that acts on the head's record alone, by what it makes of that record. -/
theorem State.act_of {s : State} {f : Head → Head} {h : Head} (e : f s.head = h) : s.act f = .next { s with head := h } := by
  rw [State.act_eq, e]

/-- The rows that submit a token, each with its operation (R128). -/
def tokenRows : List (Instr × Nat) :=
  [(.unseal, 1), (.keyCreate, 2), (.keyDestroy, 3), (.domainMap, 4), (.ownerLockSet, 5), (.ownerLockClear, 6), (.atticClearToken, 7),
    (.retirementListClear, 8), (.zeroise, 9), (.releaseOwnership, 0xA), (.sanitizeArm, 0xB)]

theorem exec_tokenRow (s : State) : ∀ x ∈ tokenRows, exec x.1 s = .next { s with head := s.head.submitOp x.2 } := by
  simp only [tokenRows, List.forall_mem_cons]
  exact ⟨rfl, rfl, rfl, rfl, rfl, rfl, rfl, rfl, rfl, rfl, rfl, nofun⟩

/-- Asleep, or with another operation in the mailbox, a row does nothing. -/
theorem Head.submitOp_skipped {h : Head} {op : Nat} (hs : h.awake = false ∨ tokenOp h.mailbox ≠ op) : h.submitOp op = h := by
  refine if_neg fun ⟨ho, ha⟩ => ?_
  obtain hs | hs := hs
  · simp [hs] at ha
  · exact hs ho

/-! ## Rejected tokens (R127) -/

/-- The head after a rejected token, before the mailbox is emptied: a report, and for an Attic clear a second source. -/
def Head.tokenReported (h : Head) (tok : Bytes) : Head :=
  (h.report 868 sevNotice (leBytes 2 (tokenOp tok) ++ leBytes 1 (h.judgeToken tok))).when (tokenOp tok == 7) fun h => h.raise 998

theorem Head.giveToken_rejected {h : Head} {tok : Bytes} (hj : h.judgeToken tok ≠ 0) :
    h.giveToken tok = (h.tokenReported tok, h.judgeToken tok) :=
  if_neg hj

theorem Head.tokenReported_stg (h : Head) (tok : Bytes) : (h.tokenReported tok).stg = h.stg :=
  (Head.when_stg (Head.raise_stg ..)).trans (Head.report_stg ..)

theorem Head.tokenReported_tsi (h : Head) (tok : Bytes) : (h.tokenReported tok).tsi = h.tsi :=
  (Head.when_reading Head.tsi (Head.raise_tsi ..)).trans (Head.report_tsi ..)

theorem Head.tokenReported_src (h : Head) (tok : Bytes) : (h.tokenReported tok).src 868 = (h.src 868).raised :=
  (Head.when_reading (Head.src · 868) (Head.raise_src_other _ (by decide))).trans (Head.report_src_self _ _ _ (by decide))

/-- A submission that is rejected reports so, empties the mailbox and notes the result code. -/
theorem Head.submitOp_rejected {h : Head} {op : Nat} (ha : h.awake = true) (ho : tokenOp h.mailbox = op)
    (hj : h.judgeToken h.mailbox ≠ 0) : h.submitOp op = (h.tokenReported h.mailbox).mailboxDone (h.judgeToken h.mailbox) := by
  rw [Head.submitOp, if_pos ⟨ho, ha⟩, Head.submit, Head.giveToken_rejected hj]

/-! ## Ownership (R126) -/

theorem exec_takeOwnership {s : State} (ha : s.head.awake = true) :
    exec .takeOwnership s = .next { s with head := s.head.takeOwnership } :=
  State.act_of (if_pos ha)

theorem Head.takeOwnership_free {h : Head} (ho : h.stg.owner = none) :
    h.takeOwnership = (h.modStg fun g => { g with owner := some (h.mailbox.take 32) }).mailboxDone 0 := by
  rw [Head.takeOwnership, ho]

theorem Head.takeOwnership_owned {h : Head} {k : Bytes} (ho : h.stg.owner = some k) : h.takeOwnership = h.mailboxDone 5 := by
  rw [Head.takeOwnership, ho]

/-- However TAKE OWNERSHIP ends, it empties the mailbox. -/
theorem Head.takeOwnership_reg (h : Head) {n : Nat} (hn : n < 16) : h.takeOwnership.reg (Adr.STG_TOKEN n) = 0 := by
  cases ho : h.stg.owner with
  | none => exact Head.takeOwnership_free ho ▸ Head.mailboxDone_reg _ _ hn
  | some k => exact Head.takeOwnership_owned ho ▸ Head.mailboxDone_reg _ _ hn

/-- Settles O26: a rejected token reports and empties the mailbox, and TAKE OWNERSHIP ends in an emptied mailbox either way. -/
theorem tokensThatAreRejectedChangeNoKey : Obligations.TokensThatAreRejectedChangeNoKey := by
  unfold Obligations.TokensThatAreRejectedChangeNoKey
  refine ⟨?rejected, ?skipped, ?free, ?owned, ?emptied⟩
  case rejected =>
    intro i op s hi ha ho hj
    refine ⟨_, exec_tokenRow s _ hi, ?_⟩
    obtain ⟨regs, e⟩ := (s.head.tokenReported s.head.mailbox).mailboxDone_frame (s.head.judgeToken s.head.mailbox)
    rw [Head.submitOp_rejected ha ho hj, e]
    refine ⟨?_, Head.tokenReported_tsi .., Head.tokenReported_src ..⟩
    dsimp only
    rw [Head.tokenReported_stg]
  case skipped => exact fun i op s hi hs => ⟨_, exec_tokenRow s _ hi, Head.submitOp_skipped hs⟩
  case free =>
    intro s ha ho
    refine ⟨_, exec_takeOwnership ha, ?_⟩
    obtain ⟨regs, e⟩ := (s.head.modStg fun g => { g with owner := some (s.head.mailbox.take 32) }).mailboxDone_frame 0
    rw [Head.takeOwnership_free ho, e]
    exact ⟨rfl, rfl⟩
  case owned =>
    intro s k ha ho
    refine ⟨_, exec_takeOwnership ha, ?_⟩
    obtain ⟨regs, e⟩ := s.head.mailboxDone_frame 5
    rw [Head.takeOwnership_owned ho, e]
    exact ⟨rfl, rfl⟩
  case emptied => exact fun s n ha hn => ⟨_, exec_takeOwnership ha, Head.takeOwnership_reg _ hn⟩

end Sys2Proof.Machine
end

section
/-!
SUPPORT. How keys retire, expire and are sealed (06_cipher_and_strongroom.md R129, R130, R132, R143), and the decode that succeeds (R134).
-/

namespace Sys2Proof.Machine

open Sys2Proof

/-! ## Messages and salts leave the sources alone -/

theorem Head.tellStrongroom_brk (h : Head) (m : ControlMsg) : (h.tellStrongroom m).brk = h.brk :=
  Head.when_reading Head.brk rfl

theorem Head.createSalts_brk (h : Head) : h.createSalts.brk = h.brk := by
  refine Head.forEach_reading Head.brk (fun g i => ?_) ..
  exact Head.tellStrongroom_brk ..

/-! ## Retirement of a slot (R132) -/

theorem exec_slotRetired (s : State) (n : Nat) : exec (.slotRetired n) s = .next { s with head := s.head.slotRetired n } := rfl

section retirement
variable {h : Head} {n : Nat}

theorem Head.slotRetired_leased (hl : h.stg.leases.any (fun l => l.slot == n && decide (l.next < l.stop)) = true) :
    h.slotRetired n = h :=
  if_pos (.inr (.inr hl))

variable (hs : (h.stg.slot n).state = 2) (hr : (h.stg.slot n).retiring = true)
  (hl : h.stg.leases.any (fun l => l.slot == n && decide (l.next < l.stop)) = false)
include hs hr hl

theorem Head.slotRetired_unleased :
    h.slotRetired n = ((h.modSlot n fun x => { x with state := 3, record := 3 }).report 866 sevNotice []).tellStrongroom
      (.keyRecord n 3 (h.stg.slot n).epoch []) :=
  if_neg (by simp [hs, hr, hl])

/-- A slot that retires is DECRYPT-ONLY and keeps its key, its epoch and its counts. -/
theorem Head.slotRetired_slot : (h.slotRetired n).stg.slot n = { h.stg.slot n with state := 3, record := 3 } := by
  rw [Head.slotRetired_unleased hs hr hl, Head.tellStrongroom_stg, Head.report_stg]
  exact Head.modSlot_slot_self h n (f := fun x => { x with state := 3, record := 3 }) fun _ => rfl

theorem Head.slotRetired_src : (h.slotRetired n).src 866 = (h.src 866).raised := by
  rw [Head.slotRetired_unleased hs hr hl, Head.src_congr (Head.tellStrongroom_brk ..)]
  exact Head.report_src_self _ _ _ (by decide)

end retirement

/-! ## The end of SANITIZE ARM (R143) -/

/-- The head after the minutes of SANITIZE ARM may have passed. -/
def Head.armExpiry (h : Head) : Head :=
  match h.stg.armedUntil with
  | none => h
  | some t => if h.now < t then h else h.modStg fun s => { s with armedUntil := none }

theorem exec_sanitizeArmExpiry (s : State) : exec .sanitizeArmExpiry s = .next { s with head := s.head.armExpiry } := rfl

theorem Head.armExpiry_armed {h : Head} {t : Nat} (ht : h.stg.armedUntil = some t) :
    h.armExpiry = if h.now < t then h else h.modStg fun s => { s with armedUntil := none } := by
  rw [Head.armExpiry, ht]

/-! ## The peer's unsealing (R129) -/

theorem Head.unsealNow_src {h : Head} (hu : h.stg.unsealed = false) : h.unsealNow.src 869 = (h.src 869).raised := by
  rw [Head.unsealNow, if_neg (by simp [hu])]
  exact Head.raise_src_self ..

theorem Head.peerUnsealed_unsealed (h : Head) : h.unsealNow.createSalts.stg.unsealed = true := by
  obtain ⟨_, hu⟩ := h.unsealNow_stg
  obtain ⟨_, _, hc⟩ := h.unsealNow.createSalts_stg
  rw [hc, hu]

theorem Head.peerUnsealed_src {h : Head} (hu : h.stg.unsealed = false) :
    h.unsealNow.createSalts.src 869 = (h.src 869).raised :=
  (Head.src_congr (Head.createSalts_brk ..) _).trans (Head.unsealNow_src hu)

/-- What the peer's unsealing needs: the permission, no alarm latch, the link and a pair key. -/
def Head.peerMayUnseal (h : Head) : Prop :=
  h.bit Adr.STG_CTRL 1 = true ∧ (!h.stg.alarmLatch) = true ∧ h.pair.icl = true ∧ h.stg.pairKey.isSome = true

theorem exec_peerUnseal_refused {s : State} (hp : ¬ s.head.peerMayUnseal) : exec .peerUnseal s = .next s :=
  State.act_of (if_neg hp)

theorem exec_peerUnseal_allowed {s : State} (hp : s.head.peerMayUnseal) :
    exec .peerUnseal s = .next { s with head := s.head.unsealNow.createSalts } :=
  State.act_of (if_pos hp)

/-! ## The pair key (R130) -/

theorem exec_pairKeyAgreement (s : State) (p : PeerRecords) : exec (.pairKeyAgreement p) s = .next { s with head := s.head.agree p } := rfl

section agreement
variable {h : Head} {p : PeerRecords}

theorem Head.agree_proofFailed (hi : h.pair.icl = true) (ho : h.stg.owner.isSome = true) (hp : p.proofOk = false) :
    h.agree p = (h.modStg fun g => { g with pairKey := none }).report 874 sevFault [] := by
  have ho : h.stg.owner.isNone = false := by simpa using ho
  simp [Head.agree, hi, ho, hp]

/-- A head that flies a troupe and is not behind its peer takes the key alone. -/
theorem Head.agree_flying (hi : h.pair.icl = true) (ho : h.stg.owner.isSome = true) (hp : p.proofOk = true) (hf : h.flown ≠ [])
    (hg : p.sanitizeGen ≤ h.stg.sanGen) :
    h.agree p = (h.modStg fun g => { g with pairKey := some (h.freeBytes 32), saltWait := [] }).spend := by
  have ho : h.stg.owner.isNone = false := by simpa using ho
  have hf : (h.modStg fun g => { g with pairKey := some (h.freeBytes 32), saltWait := [] }).spend.flown ≠ [] := hf
  simp [Head.agree, hi, ho, hp, hf, Nat.not_lt.2 hg, Head.when]

end agreement

/-! ## Alarms (R142) -/

theorem exec_strongroomAlarm_raised {s : State} {c : Nat} (hc : c < 5) (ha : s.head.awake = true) :
    exec (.strongroomAlarm c) s = .next { s with head := s.head.alarm c } :=
  State.act_of (if_pos ⟨hc, ha⟩)

theorem exec_strongroomAlarm_other {s : State} {c : Nat} (hc : 5 ≤ c) : exec (.strongroomAlarm c) s = .next s :=
  State.act_of (if_neg fun ⟨h, _⟩ => Nat.not_lt.2 hc h)

/-! ## The end of a decode (R134, R137) -/

theorem exec_chunkDecodeDone (s : State) (n : Nat) (r : DecodeResult) :
    exec (.chunkDecodeDone n r) s = .next { s with head := s.head.decodeDone n r } := rfl

theorem Head.decodeDone_noTask {h : Head} {n : Nat} (ht : h.dp.task? n = none) (r : DecodeResult) : h.decodeDone n r = h := by
  rw [Head.decodeDone, ht]

/-- A decode in hand with a usable key, which passes every check, is handed on. -/
theorem Head.decodeDone_good {h : Head} {n : Nat} {r : DecodeResult} {t : Task} {c : Chunk} (ht : h.dp.task? n = some t)
    (hc : h.dp.chunk? t.uid = some c) (hw : t.waiting = none) (hs : ((h.dp.booth t.site).streamOf 3 n).isSome = true)
    (hk : h.keyFailure c = none) (hd : decodeEnd c r = .good) : h.decodeDone n r = h.taskGood t c r.plain := by
  have hr : ¬(t.waiting.isSome = true ∨ ((h.dp.booth t.site).streamOf 3 n).isNone = true) := by
    rw [hw, Option.isNone_eq_false_iff.2 hs]
    simp
  simp only [Head.decodeDone, ht, hc, if_neg hr, hk, hd]

/-- Settles O27, row by row. -/
theorem keysRetireExpireAndSeal : Obligations.KeysRetireExpireAndSeal := by
  unfold Obligations.KeysRetireExpireAndSeal
  refine ⟨?retire, ?expire, ?refused, ?allowed, ?proofFailed, ?agreed, ?alarm, ?noAlarm, ?noTask, ?good⟩
  case retire =>
    exact fun s n hs hr => ⟨fun hl => ⟨_, exec_slotRetired s n, Head.slotRetired_leased hl⟩,
      fun hl => ⟨_, exec_slotRetired s n, Head.slotRetired_slot hs hr hl, Head.slotRetired_src hs hr hl⟩⟩
  case expire =>
    exact fun s t ht => ⟨fun hn => ⟨_, exec_sanitizeArmExpiry s, (Head.armExpiry_armed ht).trans (if_pos hn)⟩,
      fun hn => ⟨_, exec_sanitizeArmExpiry s, (Head.armExpiry_armed ht).trans (if_neg (Nat.not_lt.2 hn))⟩⟩
  case refused =>
    refine fun s hm => ⟨_, exec_peerUnseal_refused fun ⟨hb, hl, hi, hk⟩ => ?_, rfl⟩
    obtain hm | hm | hm | hm := hm
    · simp [hm] at hl
    · simp [hm] at hi
    · simp [hm] at hk
    · simp [hm] at hb
  case allowed =>
    exact fun s hl hi hk hb => ⟨_, exec_peerUnseal_allowed ⟨hb, by simp [hl], hi, hk⟩, Head.peerUnsealed_unsealed _,
      Head.peerUnsealed_src⟩
  case proofFailed =>
    intro s p hi ho hp
    refine ⟨_, exec_pairKeyAgreement s p, ?_⟩
    rw [Head.agree_proofFailed hi ho hp]
    exact ⟨Head.report_stg .., Head.report_src_self _ _ _ (by decide)⟩
  case agreed =>
    exact fun s p hi ho hp hf hg => ⟨_, exec_pairKeyAgreement s p, congrArg Head.stg (Head.agree_flying hi ho hp hf hg)⟩
  case alarm =>
    refine fun s c hc ha => ⟨_, exec_strongroomAlarm_raised hc ha, ?_⟩
    dsimp only
    rw [Head.alarm_stg]
    exact ⟨rfl, rfl, rfl, rfl, rfl⟩
  case noAlarm => exact fun s c hc => ⟨_, exec_strongroomAlarm_other hc, rfl⟩
  case noTask => exact fun s n r ht => ⟨_, exec_chunkDecodeDone s n r, Head.decodeDone_noTask ht r⟩
  case good =>
    exact fun s n r t c ht hc hw hs hk hd => ⟨_, exec_chunkDecodeDone s n r, Head.decodeDone_good ht hc hw hs hk hd⟩

end Sys2Proof.Machine
end

section
/-!
SUPPORT. Commands of a core that does not own the channel (07_digest_engine.md R149).
-/

namespace Sys2Proof.Machine

open Sys2Proof

/-- The commands that only a channel's owner may give, each with what it does to the head. CLAIM and the end of a run are none of them. -/
def ownerRows (core n k : Nat) (w : Word) : List (Instr × (Head → Head)) :=
  [(.dgtBegin core n, (·.chanBegin core n)), (.dgtGo core n, (·.chanGo core n)), (.dgtRestore core n, (·.chanRestore core n)),
    (.dgtRelease core n, (·.chanRelease core n)), (.dgtSuspend core n, (·.chanSuspend core n)),
    (.dgtSqueeze core n, (·.chanSqueeze core n)), (.dgtLastWord core n w, (·.chanLastWord core n w)),
    (.dgtExpectWrite core n k w, (·.chanExpect core n k w))]

theorem exec_ownerRow (core n k : Nat) (w : Word) (s : State) : ∀ x ∈ ownerRows core n k w, exec x.1 s = s.act x.2 := by
  simp only [ownerRows, List.forall_mem_cons]
  exact ⟨rfl, rfl, rfl, rfl, rfl, rfl, rfl, rfl, nofun⟩

section otherCore
variable {h : Head} {core n : Nat} {c : Chan}

/-- The refusal comes before the command's own states and effect are looked at. -/
theorem Head.chanCmd_otherCore (hf : h.dgt.chans.find? (·.ch == n) = some c) (hs : c.state ≠ 0) (ho : c.owner ≠ core)
    (states : List Nat) (f : Chan → Head) : h.chanCmd core n states f = h.raise 882 := by
  rw [Head.chanCmd, hf]
  exact if_pos ⟨hs, ho⟩

theorem Head.chanExpect_otherCore (hf : h.dgt.chans.find? (·.ch == n) = some c) (hs : c.state ≠ 0) (ho : c.owner ≠ core)
    (k : Nat) (w : Word) : h.chanExpect core n k w = h.raise 882 := by
  rw [Head.chanExpect, hf]
  exact if_pos ⟨hs, ho⟩

/-- The expected words have their own check of the owner; the other commands share that of `chanCmd`. -/
theorem ownerRow_otherCore (hf : h.dgt.chans.find? (·.ch == n) = some c) (hs : c.state ≠ 0) (ho : c.owner ≠ core)
    (k : Nat) (w : Word) : ∀ x ∈ ownerRows core n k w, x.2 h = h.raise 882 := by
  have refused := Head.chanCmd_otherCore hf hs ho
  simp only [ownerRows, List.forall_mem_cons]
  exact ⟨refused _ _, refused _ _, refused _ _, refused _ _, refused _ _, refused _ _, refused _ _,
    Head.chanExpect_otherCore hf hs ho k w, nofun⟩

end otherCore

/-- Settles O29: every command of the list ends in the refusal, and a raise leaves the digest engine as it is. -/
theorem anotherCoresChannelIsRefused : Obligations.AnotherCoresChannelIsRefused := by
  unfold Obligations.AnotherCoresChannelIsRefused
  intro i s core n k w c hi hf hs ho
  have hi : i ∈ (ownerRows core n k w).map Prod.fst := hi
  obtain ⟨x, hx, rfl⟩ := List.mem_map.1 hi
  have he : exec x.1 s = .next { s with head := s.head.raise 882 } :=
    (exec_ownerRow core n k w s x hx).trans (State.act_of (ownerRow_otherCore hf hs ho k w x hx))
  exact ⟨_, he, rfl, Head.raise_dgt ..⟩

end Sys2Proof.Machine
end

section
/-!
SUPPORT. Multiplication in the field of the Q parity (08_block_protection_and_stripes.md R167).
-/

namespace Sys2Proof.Machine

open Sys2Proof

/-! ## Maps that commute with addition and with doubling -/

/-- A map of the field that keeps sums and doublings, and so every multiple. -/
structure GfLinear (f : Byte → Byte) : Prop where
  xor (x y : Byte) : f (x ^^^ y) = f x ^^^ f y
  double (x : Byte) : f (gfDouble 0x1D x) = gfDouble 0x1D (f x)

theorem GfLinear.zero {f : Byte → Byte} (hf : GfLinear f) : f 0 = 0 := by
  have h := hf.xor 0 0
  rwa [BitVec.xor_self, BitVec.xor_self] at h

/-- A common summand drops out of a sum of sums. -/
theorem xor_xor_common (x y z : Byte) : (x ^^^ z) ^^^ (y ^^^ z) = x ^^^ y := by
  rw [BitVec.xor_comm y, BitVec.xor_assoc, ← BitVec.xor_assoc z, BitVec.xor_self, BitVec.zero_xor]

/-- The sum of `x` and `z` by way of `y`. -/
theorem xor_xor_telescope (x y z : Byte) : (x ^^^ y) ^^^ (y ^^^ z) = x ^^^ z := by rw [BitVec.xor_comm y, xor_xor_common]

theorem gfDouble_linear : GfLinear (gfDouble 0x1D) where
  xor x y := by
    unfold gfDouble
    rw [BitVec.getLsbD_xor, BitVec.shiftLeft_xor_distrib]
    cases x.getLsbD 7 <;> cases y.getLsbD 7 <;> simp only [Bool.xor_false, Bool.xor_true, Bool.not_false, Bool.not_true, reduceIte,
      Bool.false_eq_true]
    · ac_rfl
    · ac_rfl
    · rw [xor_xor_common]
  double _ := rfl

/-- One step of the multiplication: what has been summed is doubled, and `a` is added at a bit of `b` that is set. -/
def gfStep (a b r : Byte) (i : Nat) : Byte := gfDouble 0x1D r ^^^ if b.getLsbD i then a else 0

theorem gfMul_eq_foldl (a b : Byte) : gfMul a b = (List.range 8).reverse.foldl (gfStep a b) 0 := by
  have step : (fun r i => let r := gfDouble 0x1D r; if b.getLsbD i then r ^^^ a else r) = gfStep a b := by
    funext r i
    by_cases hb : b.getLsbD i <;> simp [gfStep, hb]
  rw [← step]
  rfl

/-- The products are multiples of the first factor, so a linear map takes them to those of its image. -/
theorem GfLinear.map_gfMul {f : Byte → Byte} (hf : GfLinear f) (a b : Byte) : f (gfMul a b) = gfMul (f a) b := by
  rw [gfMul_eq_foldl, gfMul_eq_foldl, ← List.foldl_hom f (g₂ := gfStep (f a) b), hf.zero]
  intro r i
  rw [gfStep, gfStep, hf.xor, hf.double]
  split
  · rfl
  · rw [hf.zero]

theorem foldl_gfStep_xor (x y b : Byte) (l : List Nat) (r s : Byte) :
    l.foldl (gfStep (x ^^^ y) b) (r ^^^ s) = l.foldl (gfStep x b) r ^^^ l.foldl (gfStep y b) s := by
  induction l generalizing r s with
  | nil => rfl
  | cons i l ih =>
    have step : gfStep (x ^^^ y) b (r ^^^ s) i = gfStep x b r i ^^^ gfStep y b s i := by
      rw [gfStep, gfStep, gfStep, gfDouble_linear.xor]
      split
      · ac_rfl
      · simp
    rw [List.foldl_cons, step, ih, List.foldl_cons, List.foldl_cons]

theorem gfMul_left_linear (b : Byte) : GfLinear (gfMul · b) where
  xor x y := by
    simp only [gfMul_eq_foldl]
    exact foldl_gfStep_xor x y b _ 0 0
  double x := (gfDouble_linear.map_gfMul x b).symm

/-! ## The laws of the multiplication -/

@[simp] theorem one_gfMul : ∀ a : Byte, gfMul 1 a = a := by decide +kernel

/-- Both products are multiples of `b` by the bits of `a`, once `a` is written as a multiple of 1. -/
theorem gfMul_comm (a b : Byte) : gfMul a b = gfMul b a :=
  calc gfMul a b = gfMul (gfMul 1 a) b := by rw [one_gfMul]
    _ = gfMul (gfMul 1 b) a := (gfMul_left_linear b).map_gfMul 1 a
    _ = gfMul b a := by rw [one_gfMul]

theorem gfMul_linear (a : Byte) : GfLinear (gfMul a) := by
  rw [show gfMul a = (gfMul · a) from funext (gfMul_comm a)]
  exact gfMul_left_linear a

theorem gfMul_assoc (a b c : Byte) : gfMul (gfMul a b) c = gfMul a (gfMul b c) := ((gfMul_linear a).map_gfMul b c).symm

@[simp] theorem gfMul_zero (a : Byte) : gfMul a 0 = 0 := (gfMul_linear a).zero

@[simp] theorem gfMul_one (a : Byte) : gfMul a 1 = a := by rw [gfMul_comm, one_gfMul]

/-! ## Powers of 2 -/

theorem gfPow_add (m n : Nat) : gfPow (m + n) = gfMul (gfPow m) (gfPow n) := by
  induction n with
  | zero => exact (gfMul_one _).symm
  | succ n ih => exact (congrArg _ ih).trans ((gfMul_linear _).double _).symm

/-- The order of 2 in the field. -/
theorem gfPow_255 : gfPow 255 = 1 := by decide +kernel

theorem gfPow_255_mul (k : Nat) : gfPow (255 * k) = 1 := by
  induction k with
  | zero => rfl
  | succ k ih => rw [Nat.mul_succ, gfPow_add, ih, gfPow_255, gfMul_one]

theorem iterate_gfMul_gfPow (k n : Nat) : (gfMul · (gfPow k))^[n] (gfPow k) = gfPow (k * (n + 1)) := by
  induction n with
  | zero => rw [Nat.mul_one]; rfl
  | succ n ih => rw [Function.iterate_succ_apply', ih, ← gfPow_add, ← Nat.mul_succ]

theorem gfInv_gfPow (k : Nat) : gfInv (gfPow k) = gfPow (k * 254) := by
  rw [gfInv, List.foldl_const, List.length_range, iterate_gfMul_gfPow]

theorem gfInv_gfPow_cancel (k : Nat) (b : Byte) : gfMul (gfInv (gfPow k)) (gfMul (gfPow k) b) = b := by
  rw [gfInv_gfPow, ← gfMul_assoc, ← gfPow_add, ← Nat.mul_succ, Nat.mul_comm, gfPow_255_mul, one_gfMul]

/-- The exponents of 1 + 2^d in the field, by d: its Zech logarithms, for the distances of two units of a row. -/
def zechLogs : List Nat := [0, 25, 50, 223, 100, 138, 191, 112, 200, 120, 21, 245, 127, 99, 224, 33, 145, 68, 240, 92, 42, 10]

theorem gfPow_zechLogs : ∀ d < 22, d ≠ 0 → gfPow (zechLogs.getD d 0) = 1 ^^^ gfPow d := by decide +kernel

/-- The constants of two units of a row differ, and their sum is a power of 2 again. -/
theorem gfPow_xor_gfPow {x y : Nat} (hxy : x < y) (hy : y < 22) : gfPow x ^^^ gfPow y = gfPow (x + zechLogs.getD (y - x) 0) := by
  have hy' : gfPow y = gfMul (gfPow x) (gfPow (y - x)) := by rw [← gfPow_add, Nat.add_sub_cancel' hxy.le]
  rw [gfPow_add, gfPow_zechLogs (y - x) (by omega) (by omega), (gfMul_linear _).xor, gfMul_one, ← hy']

end Sys2Proof.Machine
end

section
/-!
SUPPORT. Blocks of one length under exclusive or, and a row's parity as a weighted sum of its blocks
(08_block_protection_and_stripes.md R167).
-/

namespace Sys2Proof.Machine

open Sys2Proof

/-! ## Blocks -/

@[simp] theorem length_zeros (n : Nat) : (zeros n).length = n := List.length_replicate

@[simp] theorem length_xorBytes (a b : Bytes) : (xorBytes a b).length = min a.length b.length := List.length_zipWith

@[simp] theorem length_gfScale (c : Byte) (b : Bytes) : (gfScale c b).length = b.length := List.length_map _

@[simp] theorem getElem_zeros {n i : Nat} (hi : i < (zeros n).length) : (zeros n)[i] = 0 := List.getElem_replicate ..

@[simp] theorem getElem_xorBytes (a b : Bytes) {i : Nat} (hi : i < (xorBytes a b).length) :
    (xorBytes a b)[i] = a[i]'(by simp at hi; omega) ^^^ b[i]'(by simp at hi; omega) := List.getElem_zipWith ..

@[simp] theorem getElem_gfScale (c : Byte) (b : Bytes) {i : Nat} (hi : i < (gfScale c b).length) :
    (gfScale c b)[i] = gfMul c (b[i]'(by simpa using hi)) := List.getElem_map ..

theorem gfScale_one (b : Bytes) : gfScale 1 b = b := (List.map_congr_left fun x _ => one_gfMul x).trans (List.map_id b)

theorem gfScale_zeros (c : Byte) (n : Nat) : gfScale c (zeros n) = zeros n := by
  rw [gfScale, zeros, List.map_replicate, gfMul_zero]

theorem gfScale_gfInv_cancel (k : Nat) (b : Bytes) : gfScale (gfInv (gfPow k)) (gfScale (gfPow k) b) = b := by
  refine List.ext_getElem (by simp) fun i _ _ => ?_
  simp only [getElem_gfScale, gfInv_gfPow_cancel]

section lengths
variable {n : Nat} {a b c : Bytes} (ha : a.length = n) (hb : b.length = n)
include ha

theorem xorBytes_zeros : xorBytes a (zeros n) = a :=
  List.ext_getElem (by simp [ha]) (by simp)

include hb

theorem xorBytes_cancel_right : xorBytes (xorBytes a b) a = b :=
  List.ext_getElem (by simp [ha, hb]) (by simp)

theorem xorBytes_xorBytes_common (hc : c.length = n) : xorBytes (xorBytes a c) (xorBytes b c) = xorBytes a b := by
  refine List.ext_getElem (by simp [ha, hb, hc]) fun i _ _ => ?_
  simp only [getElem_xorBytes, xor_xor_common]

theorem xorBytes_telescope (hc : c.length = n) : xorBytes (xorBytes a b) (xorBytes b c) = xorBytes a c := by
  refine List.ext_getElem (by simp [ha, hb, hc]) fun i _ _ => ?_
  simp only [getElem_xorBytes, xor_xor_telescope]

/-- The two equations that P and Q give for two lost blocks, solved for the first (R168). -/
theorem xorBytes_gfScale_eliminate (x y : Byte) :
    xorBytes (xorBytes (gfScale x a) (gfScale y b)) (gfScale y (xorBytes a b)) = gfScale (x ^^^ y) a := by
  refine List.ext_getElem (by simp [ha, hb]) fun i _ _ => ?_
  simp only [getElem_xorBytes, getElem_gfScale, (gfMul_linear y).xor, (gfMul_left_linear _).xor, xor_xor_common]

end lengths

/-! ## P and Q as weighted sums -/

/-- The sum of the blocks, each times the constant of its index. -/
def weightedSum (n : Nat) (c : Nat → Byte) (data : List Bytes) : Bytes :=
  ((List.range data.length).zip data).foldl (fun q d => xorBytes q (gfScale (c d.1) d.2)) (zeros n)

theorem parityPQ_fst (n : Nat) (data : List Bytes) : (parityPQ n data).1 = weightedSum n (fun _ => 1) data := by
  have hz : ((List.range data.length).zip data).map Prod.snd = data := List.map_snd_zip (by simp)
  unfold weightedSum
  simp only [gfScale_one]
  rw [← List.foldl_map (f := Prod.snd) (g := xorBytes), hz]
  rfl

theorem parityPQ_snd (n : Nat) (data : List Bytes) : (parityPQ n data).2 = weightedSum n gfPow data := rfl

theorem weightedSum_concat (n : Nat) (c : Nat → Byte) (data : List Bytes) (b : Bytes) :
    weightedSum n c (data ++ [b]) = xorBytes (weightedSum n c data) (gfScale (c data.length) b) := by
  unfold weightedSum
  rw [List.length_append, List.length_singleton, List.range_succ, List.zip_append (List.length_range), List.foldl_append]
  rfl

theorem length_weightedSum {n : Nat} (c : Nat → Byte) {data : List Bytes} (hd : ∀ b ∈ data, b.length = n) :
    (weightedSum n c data).length = n := by
  induction data using List.reverseRecOn with
  | nil => exact length_zeros n
  | append_singleton data b ih =>
    simp only [List.mem_append, List.mem_singleton, or_imp, forall_and, forall_eq] at hd
    obtain ⟨hd, hb⟩ := hd
    simp [weightedSum_concat, ih hd, hb]

theorem length_of_mem_set {n : Nat} {data : List Bytes} (hd : ∀ b ∈ data, b.length = n) (x : Nat) :
    ∀ b ∈ data.set x (zeros n), b.length = n := fun b hb =>
  (List.mem_or_eq_of_mem_set hb).elim (hd b) fun e => e ▸ length_zeros n

/-- What a block adds to a weighted sum is the difference to the sum without it. -/
theorem weightedSum_set_zeros {n : Nat} (c : Nat → Byte) {data : List Bytes} (hd : ∀ b ∈ data, b.length = n) {x : Nat}
    (hx : x < data.length) :
    xorBytes (weightedSum n c data) (weightedSum n c (data.set x (zeros n))) = gfScale (c x) data[x] := by
  induction data using List.reverseRecOn with
  | nil => exact absurd hx (Nat.not_lt_zero x)
  | append_singleton data b ih =>
    simp only [List.mem_append, List.mem_singleton, or_imp, forall_and, forall_eq] at hd
    obtain ⟨hd, hb⟩ := hd
    have hS := length_weightedSum c hd
    rcases Nat.lt_or_ge x data.length with h | h
    · have hS' := length_weightedSum c (length_of_mem_set hd x)
      rw [List.set_append_left _ _ h, List.getElem_append_left h, weightedSum_concat, weightedSum_concat, List.length_set,
        xorBytes_xorBytes_common hS hS' (by simpa using hb), ih hd h]
    · obtain rfl : x = data.length := by simp at hx; omega
      have hset : (data ++ [b]).set data.length (zeros n) = data ++ [zeros n] := by simp
      rw [hset, weightedSum_concat, weightedSum_concat, gfScale_zeros, xorBytes_zeros hS, List.getElem_concat_length rfl,
        xorBytes_cancel_right hS (by simpa using hb)]

/-- Two blocks taken out of a weighted sum. -/
theorem weightedSum_set_set_zeros {n : Nat} (c : Nat → Byte) {data : List Bytes} (hd : ∀ b ∈ data, b.length = n) {x y : Nat}
    (hxy : x < y) (hy : y < data.length) :
    xorBytes (weightedSum n c data) (weightedSum n c ((data.set x (zeros n)).set y (zeros n))) =
      xorBytes (gfScale (c x) data[x]) (gfScale (c y) data[y]) := by
  have hd' := length_of_mem_set hd x
  have first := weightedSum_set_zeros c hd (hxy.trans hy)
  have second := weightedSum_set_zeros c hd' (x := y) (by simpa using hy)
  rw [List.getElem_set_ne (by omega)] at second
  rw [← first, ← second, xorBytes_telescope (length_weightedSum c hd) (length_weightedSum c hd')
    (length_weightedSum c (length_of_mem_set hd' y))]

end Sys2Proof.Machine
end

section
/-!
SUPPORT. Reconstruction of lost units (08_block_protection_and_stripes.md R168).
-/

namespace Sys2Proof.Machine

open Sys2Proof

/-! ## Which units of a row are lost -/

/-- The data indices of the lost units, as `rebuildData` lists them. -/
def lostUnits (data : List (Option Bytes)) : List Nat :=
  (List.range data.length).filter fun i => (data.getD i none).isNone

theorem mem_lostUnits {data : List (Option Bytes)} {i : Nat} : i ∈ lostUnits data ↔ i < data.length ∧ data.getD i none = none := by
  simp [lostUnits]

/-- Lost units are listed in ascending order, so their set determines the list. -/
theorem lostUnits_eq {data : List (Option Bytes)} {l : List Nat} (hl : l.Pairwise (· < ·)) (h : ∀ i, i ∈ lostUnits data ↔ i ∈ l) :
    lostUnits data = l :=
  (List.pairwise_lt_range.filter _).eq_of_mem_iff hl h

section whole
variable (d : List Bytes) {x y : Nat}

theorem lostUnits_map_some : lostUnits (d.map some) = [] :=
  lostUnits_eq .nil fun i => by
    simp only [mem_lostUnits, List.not_mem_nil, iff_false, not_and]
    intro hi
    simp at hi
    simp [hi]

theorem lostUnits_set (hx : x < d.length) : lostUnits ((d.map some).set x none) = [x] :=
  lostUnits_eq (List.pairwise_singleton ..) fun i => by
    simp only [mem_lostUnits, List.length_set, List.length_map, List.mem_singleton]
    grind

theorem lostUnits_set_set (hxy : x < y) (hy : y < d.length) : lostUnits (((d.map some).set x none).set y none) = [x, y] :=
  lostUnits_eq (by simpa using hxy) fun i => by
    simp only [mem_lostUnits, List.length_set, List.length_map, List.mem_cons, List.not_mem_nil, or_false]
    grind

/-! ## The known units, with zeros for the lost ones -/

/-- The blocks that the parity of the known units is taken over. -/
def zeroFilled (n : Nat) (data : List (Option Bytes)) : List Bytes := data.map fun d => d.getD (zeros n)

theorem zeroFilled_map_some (n : Nat) : zeroFilled n (d.map some) = d := by simp [zeroFilled]

theorem zeroFilled_set (n : Nat) (data : List (Option Bytes)) : zeroFilled n (data.set x none) = (zeroFilled n data).set x (zeros n) := by
  simp [zeroFilled, List.map_set]

theorem set_set_getElem (b : Bytes) (hx : x < d.length) : (d.set x b).set x d[x] = d := by
  rw [List.set_set, List.set_getElem_self]

theorem set_set_set_set_getElem (b : Bytes) (hxy : x < y) (hy : y < d.length) :
    (((d.set x b).set y b).set x d[x]).set y d[y] = d := by
  rw [List.set_comm _ _ (by omega : y ≠ x), List.set_set, List.set_set, List.set_getElem_self, List.set_getElem_self]

end whole

/-! ## What is rebuilt, by the number of lost units -/

section rebuild
variable {n x y : Nat} {data : List (Option Bytes)}

theorem rebuildData_none_lost (h : lostUnits data = []) (p q : Option Bytes) : rebuildData n data p q = some (zeroFilled n data) := by
  unfold lostUnits at h
  rw [rebuildData, h]
  rfl

theorem rebuildData_one_lost_p (h : lostUnits data = [x]) (p : Bytes) (q : Option Bytes) :
    rebuildData n data (some p) q = some ((zeroFilled n data).set x (xorBytes p (parityPQ n (zeroFilled n data)).1)) := by
  unfold lostUnits at h
  rw [rebuildData, h]
  rfl

theorem rebuildData_one_lost_q (h : lostUnits data = [x]) (q : Bytes) : rebuildData n data none (some q) =
    some ((zeroFilled n data).set x (gfScale (gfPowInv x) (xorBytes q (parityPQ n (zeroFilled n data)).2))) := by
  unfold lostUnits at h
  rw [rebuildData, h]
  rfl

/-- The first of two lost units, from the differences of P and of Q to the parity of the known units. -/
def firstOfTwo (x y : Nat) (p' q' : Bytes) : Bytes :=
  gfScale (gfInv (gfPow x ^^^ gfPow y)) (xorBytes q' (gfScale (gfPow y) p'))

theorem rebuildData_two_lost (h : lostUnits data = [x, y]) {p q p' q' : Bytes}
    (hp : xorBytes p (parityPQ n (zeroFilled n data)).1 = p') (hq : xorBytes q (parityPQ n (zeroFilled n data)).2 = q') :
    rebuildData n data (some p) (some q) =
      some (((zeroFilled n data).set x (firstOfTwo x y p' q')).set y (xorBytes p' (firstOfTwo x y p' q'))) := by
  subst hp hq
  unfold lostUnits at h
  rw [rebuildData, h]
  rfl

theorem rebuildData_more_lost (h : 2 < (lostUnits data).length) (p q : Option Bytes) : rebuildData n data p q = none := by
  match e : lostUnits data with
  | [] | [_] | [_, _] => simp [e] at h
  | _ :: _ :: _ :: _ =>
    unfold lostUnits at e
    rw [rebuildData, e]

theorem three_lost {z : Nat} (hxy : x < y) (hyz : y < z) (hx : x ∈ lostUnits data) (hy : y ∈ lostUnits data) (hz : z ∈ lostUnits data) :
    2 < (lostUnits data).length := by
  have hsub : [x, y, z] ⊆ lostUnits data := by simp [hx, hy, hz]
  have hnodup : [x, y, z].Nodup := by simp; omega
  exact (hnodup.subperm hsub).length_le

end rebuild

/-! ## The lost units come back -/

section row
variable {n : Nat} {d : List Bytes} (hd : ∀ b ∈ d, b.length = n) {x y : Nat}
include hd

theorem firstOfTwo_parity (hxy : x < y) (hy : y < d.length) (hlen : d.length ≤ 22) :
    firstOfTwo x y (xorBytes d[x] d[y]) (xorBytes (gfScale (gfPow x) d[x]) (gfScale (gfPow y) d[y])) = d[x] := by
  rw [firstOfTwo, xorBytes_gfScale_eliminate (hd _ (List.getElem_mem _)) (hd _ (List.getElem_mem _)),
    gfPow_xor_gfPow hxy (hy.trans_le hlen), gfScale_gfInv_cancel]

theorem rebuildData_one_from_p (hx : x < d.length) (q : Option Bytes) :
    rebuildData n ((d.map some).set x none) (some (parityPQ n d).1) q = some d := by
  rw [rebuildData_one_lost_p (lostUnits_set d hx), zeroFilled_set, zeroFilled_map_some, parityPQ_fst, parityPQ_fst,
    weightedSum_set_zeros _ hd hx, gfScale_one, set_set_getElem d _ hx]

theorem rebuildData_one_from_q (hx : x < d.length) :
    rebuildData n ((d.map some).set x none) none (some (parityPQ n d).2) = some d := by
  rw [rebuildData_one_lost_q (lostUnits_set d hx), zeroFilled_set, zeroFilled_map_some, parityPQ_snd, parityPQ_snd,
    weightedSum_set_zeros _ hd hx, gfPowInv, gfScale_gfInv_cancel, set_set_getElem d _ hx]

theorem rebuildData_two_from_pq (hlen : d.length ≤ 22) (hxy : x < y) (hy : y < d.length) :
    rebuildData n (((d.map some).set x none).set y none) (some (parityPQ n d).1) (some (parityPQ n d).2) = some d := by
  have hfill : zeroFilled n (((d.map some).set x none).set y none) = (d.set x (zeros n)).set y (zeros n) := by
    rw [zeroFilled_set, zeroFilled_set, zeroFilled_map_some]
  have hP := weightedSum_set_set_zeros (fun _ => 1) hd hxy hy
  have hQ := weightedSum_set_set_zeros gfPow hd hxy hy
  rw [gfScale_one, gfScale_one, ← parityPQ_fst, ← parityPQ_fst, ← hfill] at hP
  rw [← parityPQ_snd, ← parityPQ_snd, ← hfill] at hQ
  rw [rebuildData_two_lost (lostUnits_set_set d hxy hy) hP hQ, firstOfTwo_parity hd hxy hy hlen, hfill,
    xorBytes_cancel_right (hd _ (List.getElem_mem _)) (hd _ (List.getElem_mem _)), set_set_set_set_getElem d _ hxy hy]

end row

/-- A lost P and a lost Q are computed again from the data units. -/
theorem rebuildRow_parity (n : Nat) (d : List Bytes) :
    rebuildRow n d.length (d.map some ++ [none, none]) = some (d ++ [(parityPQ n d).1, (parityPQ n d).2]) := by
  have htake : (d.map some ++ [none, none]).take d.length = d.map some := List.take_left' (List.length_map _)
  rw [rebuildRow, htake, rebuildData_none_lost (lostUnits_map_some d), zeroFilled_map_some]
  rfl

/-- Settles O60: P and Q are weighted sums, so what the lost units add to them is the difference to the sums of the known units; the
constants of the units, and the sums of two of them, are powers of 2 in the field and have inverses. -/
theorem parityRecoversOneOrTwoLosses : Obligations.ParityRecoversOneOrTwoLosses := by
  unfold Obligations.ParityRecoversOneOrTwoLosses
  refine ⟨fun n d x q _ hd hx => ⟨rebuildData_one_from_p hd hx q, rebuildData_one_from_q hd hx⟩,
    fun n d x y hlen hd hxy hy => rebuildData_two_from_pq hd hlen hxy hy, fun n d _ => rebuildRow_parity n d, ?_⟩
  intro n d x y z p q hxy hyz hz hdx hdy hdz
  exact rebuildData_more_lost (three_lost hxy hyz (mem_lostUnits.2 ⟨by omega, hdx⟩) (mem_lostUnits.2 ⟨by omega, hdy⟩)
    (mem_lostUnits.2 ⟨hz, hdz⟩)) p q

end Sys2Proof.Machine
end

section
/-!
SUPPORT. A troupe's record, and the messages of the pair that change it (11_troupes_flyer_catcher_baton.md R243 to R247).
-/

namespace Sys2Proof.Machine

open Sys2Proof

/-! ## Changes of a troupe's record that leave its ANA state (R241) -/

/-- The pair with one troupe's record changed. -/
def Pair.withTrp (p : Pair) (t : Troupe) (f : Trp → Trp) : Pair :=
  match t with
  | .a => { p with a := f p.a }
  | .b => { p with b := f p.b }

@[simp] theorem Pair.withTrp_trp (p : Pair) (t : Troupe) (f : Trp → Trp) : (p.withTrp t f).trp t = f (p.trp t) := by
  cases t <;> rfl

theorem Pair.withTrp_withTrp (p : Pair) (t : Troupe) (f g : Trp → Trp) : (p.withTrp t f).withTrp t g = p.withTrp t (g ∘ f) := by
  cases t <;> rfl

/-- A change counts by what it makes of the record that is there. -/
theorem Pair.withTrp_congr {p : Pair} {t : Troupe} {f g : Trp → Trp} (e : f (p.trp t) = g (p.trp t)) : p.withTrp t f = p.withTrp t g := by
  cases t
  · exact congrArg (fun x => { p with a := x }) e
  · exact congrArg (fun x => { p with b := x }) e

theorem Pair.withTrp_id (p : Pair) (t : Troupe) : p.withTrp t id = p := by
  cases t <;> rfl

section quiet
variable {h : Head} {t : Troupe} {f g : Trp → Trp}

/-- Without a change of the ANA state no event is posted. -/
theorem Head.modTrp_quiet (hf : (f (h.pair.trp t)).ana = (h.pair.trp t).ana) :
    h.modTrp t f = { h with pair := h.pair.withTrp t f } := by
  cases t <;> exact if_pos hf

theorem Head.modTrp_trp (hf : (f (h.pair.trp t)).ana = (h.pair.trp t).ana) : (h.modTrp t f).pair.trp t = f (h.pair.trp t) := by
  rw [Head.modTrp_quiet hf, Pair.withTrp_trp]

/-- Two changes in a row are one. -/
theorem Head.modTrp_modTrp (hf : ∀ p, (f p).ana = p.ana) (hg : ∀ p, (g p).ana = p.ana) : (h.modTrp t f).modTrp t g = h.modTrp t (g ∘ f) := by
  have hgf : ((g ∘ f) (h.pair.trp t)).ana = (h.pair.trp t).ana := (hg _).trans (hf _)
  rw [Head.modTrp_quiet (hg _), Head.modTrp_quiet (hf _), Head.modTrp_quiet hgf, Pair.withTrp_withTrp]

theorem Head.modTrp_congr (hf : ∀ p, (f p).ana = p.ana) (e : f (h.pair.trp t) = g (h.pair.trp t)) : h.modTrp t f = h.modTrp t g := by
  rw [Head.modTrp_quiet (hf _), Head.modTrp_quiet (e ▸ hf _), Pair.withTrp_congr e]

theorem Head.modTrp_unchanged (e : f (h.pair.trp t) = h.pair.trp t) : h.modTrp t f = h := by
  rw [Head.modTrp_quiet (by rw [e]), Pair.withTrp_congr (g := id) e, Pair.withTrp_id]

/-! ## Beats of a follower (R245) -/

theorem Head.closeBeat_openRecs (h : Head) (t : Troupe) : ((h.closeBeat t).pair.trp t).openRecs = [] := by
  unfold Head.closeBeat
  rw [Head.modTrp_trp rfl]

/-- With no order and no Marker waiting there is nothing to follow. -/
theorem Head.followOrders_idle (hw : (h.pair.trp t).waitingOrders = []) (hm : (h.pair.trp t).marks = []) : h.followOrders t = h := by
  have drained : h.drainOrders t (h.pair.trp t).waitingOrders.length = h := by rw [hw]; rfl
  unfold Head.followOrders
  dsimp only
  rw [drained, hm]
  rfl

/-- A Marker whose orders have all been executed, with none after its last, closes the beat, which is digested unless the troupe is frozen. -/
theorem Head.closeMarked_ready {n beat last : Nat} {rest : List (Nat × Nat)} (hm : (h.pair.trp t).marks = (beat, last) :: rest)
    (hw : (h.pair.trp t).waitingOrders = []) (hr : ∀ r ∈ (h.pair.trp t).openRecs, r.order ≤ last) (hs : (h.pair.trp t).state ≠ 3) :
    h.closeMarked t (n + 1) =
      (((h.modTrp t fun x => { x with marks := rest, openBeat := beat }).closeBeat t).exchangeDigest t beat).closeMarked t n := by
  have late : ((h.pair.trp t).openRecs.filter fun r => decide (last < r.order)) = [] := by simpa using hr
  have kept : ((h.pair.trp t).openRecs.filter fun r => decide (r.order ≤ last)) = (h.pair.trp t).openRecs := by simpa using hr
  have opened : (h.modTrp t fun x => { x with marks := rest, openBeat := beat, openRecs := x.openRecs.filter fun r => decide (r.order ≤ last) }) =
      h.modTrp t fun x => { x with marks := rest, openBeat := beat } := Head.modTrp_congr (fun _ => rfl) (by rw [kept])
  have emptied (g : Head) : ((g.closeBeat t).modTrp t fun x => { x with openRecs := [] }) = g.closeBeat t :=
    Head.modTrp_unchanged (by rw [← Head.closeBeat_openRecs g t])
  rw [Head.closeMarked]
  simp only [hm, hw, List.any_nil, Bool.false_eq_true, if_false, if_neg hs, late, opened, emptied]

/-- The Marker of a Catcher that has executed every order. -/
theorem Head.marker_ready {beat last : Nat} (hc : (h.pair.trp t).role = 2) (hs : (h.pair.trp t).state ≠ 3)
    (hw : (h.pair.trp t).waitingOrders = []) (hm : (h.pair.trp t).marks = []) (hr : ∀ r ∈ (h.pair.trp t).openRecs, r.order ≤ last) :
    h.marker t beat last = ((h.modTrp t fun x => { x with openBeat := beat }).closeBeat t).exchangeDigest t beat := by
  have marked : (h.modTrp t fun x => { x with marks := x.marks ++ [(beat, last)] }).pair.trp t =
      { h.pair.trp t with marks := [(beat, last)] } := by rw [Head.modTrp_trp rfl, hm]; rfl
  have drained (g : Head) : g.drainOrders t 0 = g := rfl
  have restored : ((h.modTrp t fun x => { x with marks := x.marks ++ [(beat, last)] }).modTrp t fun x => { x with marks := [], openBeat := beat }) =
      h.modTrp t fun x => { x with openBeat := beat } := by
    rw [Head.modTrp_modTrp (fun _ => by rfl) (fun _ => by rfl)]
    exact Head.modTrp_congr (fun _ => rfl) (by rw [← hm]; rfl)
  rw [Head.marker, if_neg (not_not.2 hc), Head.followOrders]
  simp only [marked, hw, List.length_nil, List.length_singleton, drained]
  rw [Head.closeMarked_ready (rest := []) (by rw [marked]) (by rw [marked, hw]) (by rwa [marked]) (by rwa [marked]), restored]
  rfl

end quiet

/-! ## Mirror chunks and their confirms (R165) -/

/-- The entry that a mirror copy takes in the follower's staging. -/
def mirrorCopy (t : Troupe) (hd : Nat) (bs : Bytes) (g : BitVec 64) : Staged :=
  { handle := hd, troupe := t, uid := none, bytes := bs, guard := g, dirty := true, mirror := true }

theorem Head.takeMirror_bad {h : Head} {bs : Bytes} {g : BitVec 64} (hg : crc64 bs ≠ g) (t : Troupe) (hd : Nat) :
    h.takeMirror t hd bs g = h.emit (.confirm t hd false) := if_pos hg

theorem Head.takeMirror_good {h : Head} {t : Troupe} {bs : Bytes} {g : BitVec 64} (hg : crc64 bs = g)
    (hw : (h.pair.trp t).waitingOrders = []) (hm : (h.pair.trp t).marks = []) (hd : Nat) :
    h.takeMirror t hd bs g = (((h.modDp fun d => { d with
        staged := d.staged.filter (fun s => !(s.mirror && s.troupe == t && s.handle == hd && s.uid.isNone)) ++ [mirrorCopy t hd bs g] }).modTrp t
      fun p => { p with confirmedHandles := hd :: p.confirmedHandles.filter (· != hd) }).emit (.confirm t hd true)) := by
  refine (if_neg (not_not.2 hg)).trans (Head.followOrders_idle ?_ ?_)
  · rw [Head.emit_pair, Head.modTrp_trp rfl]
    exact hw
  · rw [Head.emit_pair, Head.modTrp_trp rfl]
    exact hm

theorem exec_chunkMessage_follows {s : State} {t : Troupe} (hf : (s.head.pair.trp t).follows = true) (hd : Nat) (bs : Bytes) (g : BitVec 64) :
    exec (.chunkMessage t hd bs g) s = .next { s with head := s.head.takeMirror t hd bs g } := by
  show execChunkMessage t hd bs g s = _
  rw [execChunkMessage, State.act_eq, if_pos hf]

theorem exec_chunkMessage_ignored {s : State} {t : Troupe} (hf : (s.head.pair.trp t).follows = false) (hl : s.head.flies t = false)
    (hd : Nat) (bs : Bytes) (g : BitVec 64) : exec (.chunkMessage t hd bs g) s = .next s := by
  show execChunkMessage t hd bs g s = _
  rw [execChunkMessage, State.act_eq, if_neg (by simp [hf]), if_neg (by simp [hl])]

section confirm
variable {s : State} {t : Troupe} {hd : Nat} {x : Staged} (hl : s.head.flies t = true)
  (hx : s.head.dp.staged.find? (fun x => x.handle == hd && x.troupe == t && !x.mirror) = some x)
include hl hx

theorem exec_confirmMessage_denied :
    exec (.confirmMessage t hd false) s = .next { s with head := s.head.emit (.chunk t hd x.bytes x.guard) } := by
  show execConfirmMessage t hd false s = _
  rw [execConfirmMessage, State.act_eq, hx]
  simp [hl]

theorem exec_confirmMessage_held : exec (.confirmMessage t hd true) s = .next { s with head :=
    ((s.head.modDp fun d => { d with staged := d.staged.map fun y => if y.handle = hd ∧ !y.mirror then { y with confirmed := true } else y }).modHqe
      fun q => { q with ctxs := q.ctxs.map fun c => { c with unconfirmed := c.unconfirmed.filter (· != hd) } }).tryAcks } := by
  show execConfirmMessage t hd true s = _
  rw [execConfirmMessage, State.act_eq, hx]
  simp [hl]

end confirm

/-! ## Descriptors, orders and Markers (R244, R245) -/

section follower
variable {s : State} {t : Troupe}

theorem exec_descriptorMessage_follows (hf : (s.head.pair.trp t).follows = true) (op n l b a c : Nat) :
    exec (.descriptorMessage t op n l b a c) s = .next { s with head := s.head.modTrp t fun p => { p with
      descriptors := p.descriptors.filter (fun d => d.2.2.2.2.2 != c) ++ [(op, n, l, b, a, c)] } } := State.act_of (if_pos hf)

theorem exec_descriptorMessage_ignored (hf : (s.head.pair.trp t).follows = false) (op n l b a c : Nat) :
    exec (.descriptorMessage t op n l b a c) s = .next s := State.act_of (if_neg (by simp [hf]))

theorem exec_orderMessage_follows (hf : (s.head.pair.trp t).follows = true) (o : Order) :
    exec (.orderMessage t o) s = .next { s with head := s.head.receiveOrder t o } := State.act_of (if_pos hf)

theorem exec_orderMessage_ignored (hf : (s.head.pair.trp t).follows = false) (o : Order) :
    exec (.orderMessage t o) s = .next s := State.act_of (if_neg (by simp [hf]))

theorem exec_markerMessage_ignored (hr : (s.head.pair.trp t).role ≠ 2) (b c l : Nat) :
    exec (.markerMessage t b c l) s = .next s := by
  show execMarkerMessage t b c l s = _
  rw [execMarkerMessage, State.act_eq, Head.marker, if_pos hr]

/-! ## Digests (R247, R263) -/

theorem exec_digestMessage_joining (hr : (s.head.pair.trp t).role = 3) (hs : (s.head.pair.trp t).state = 6) (b : Nat) (d : Bytes) :
    exec (.digestMessage t b d) s = .next { s with head := s.head.modTrp t fun x => { x with prevDigest := d, digestBeat := b } } := by
  show execDigestMessage t b d s = _
  rw [execDigestMessage, State.act_eq, if_pos (.inl ⟨hr, hs⟩)]

theorem exec_digestMessage_flyer (hr : (s.head.pair.trp t).role = 1) (hs : (s.head.pair.trp t).state = 1) (b : Nat) (d : Bytes) :
    exec (.digestMessage t b d) s = .next { s with head := s.head.compareBeat t b d } := by
  show execDigestMessage t b d s = _
  rw [execDigestMessage, State.act_eq, if_neg (by simp [hr]), if_pos ⟨.inl hr, .inl hs⟩]

theorem exec_digestMessage_noRole (hr : (s.head.pair.trp t).role = 0) (b : Nat) (d : Bytes) :
    exec (.digestMessage t b d) s = .next s := by
  show execDigestMessage t b d s = _
  rw [execDigestMessage, State.act_eq, if_neg (by simp [hr]), if_neg (by simp [hr])]

/-! ## Journal entries (R178, R261) -/

variable {e : Bytes}

theorem exec_journalMessage_bad (hj : parseJrn t e = none) (he : e.length ≠ 32) : exec (.journalMessage t e) s = .next s := by
  show execJournalMessage t e s = _
  rw [execJournalMessage, State.act_eq, hj]
  simp [he]

theorem exec_journalMessage_relay (hj : parseJrn t e = none) (he : e.length = 32) : exec (.journalMessage t e) s =
    .next { s with head := s.head.modTrp t fun p => { p with relays := p.relays ++ [e] } } := by
  show execJournalMessage t e s = _
  rw [execJournalMessage, State.act_eq, hj]
  simp [he]

/-- The sequence number after those of the entries held. -/
def seqAfter (t : Troupe) (j : Jrn) (n : Nat × Nat) : Nat × Nat :=
  match t with
  | .a => (max n.1 (j.seq + 1), n.2)
  | .b => (n.1, max n.2 (j.seq + 1))

theorem exec_journalMessage_entry {j : Jrn} (hj : parseJrn t e = some j) (hf : (s.head.pair.trp t).follows = true) :
    exec (.journalMessage t e) s = .next { s with head := s.head.modPty fun p => { p with
      journal := pruneJournal ((p.journal ++ [j]).filter (·.troupe == t)) ++ (p.journal ++ [j]).filter (·.troupe != t)
      nextSeq := seqAfter t j p.nextSeq } } := by
  show execJournalMessage t e s = _
  rw [execJournalMessage, State.act_eq, hj]
  simp only [when_eq, hf, if_true]
  cases t <;> rfl

end follower

/-! ## Control messages (R243) -/

theorem exec_controlMessage (s : State) (m : ControlMsg) : exec (.controlMessage m) s = .next { s with head := s.head.controlMsg m } := rfl

/-- Nothing armed is answered with an empty digest, which is not answered again. -/
theorem Head.peerArmed_unarmed {h : Head} (ha : h.tsi.armed = none) (d : Bytes) (b : Nat) :
    h.peerArmed d b = if d = [] then h else h.emit (.control (.imageArm [] b)) := by
  rw [Head.peerArmed, ha]
  rfl

theorem Head.peerArmed_sameBeat {h : Head} {a : Armed} (ha : h.tsi.armed = some a) (hi : h.tsi.active.isSome = true)
    (hp : a.pairScoped = true) (hc : a.committed = false) (ho : a.offered = false) {d : Bytes} (hd : d ≠ []) :
    h.peerArmed d a.beat = h.modTsi fun t => { t with peerArm := some (d, a.beat) } := by
  have armed : (h.tsi.armed.filter fun a => a.pairScoped && !a.committed && h.tsi.active.isSome) = some a := by
    rw [ha]
    exact Option.filter_some_pos (by simp [hp, hc, hi])
  rw [Head.peerArmed, armed]
  simp [ho, hd]

/-- Settles O38, message by message. -/
theorem pairMessagesReachTheTroupe : Obligations.PairMessagesReachTheTroupe := by
  unfold Obligations.PairMessagesReachTheTroupe
  refine ⟨?descriptor, ?noDescriptor, ?chunk, ?noChunk, ?confirm, ?order, ?noOrder, ?noMarker, ?marker, ?digest, ?badEntry, ?relay, ?entry,
    ?heartbeat, ?power, ?unarmed, ?armed⟩
  case descriptor => exact fun s t op n l b a c hf => ⟨_, exec_descriptorMessage_follows hf .., rfl⟩
  case noDescriptor => exact fun s t op n l b a c hf => ⟨_, exec_descriptorMessage_ignored hf .., rfl⟩
  case chunk =>
    refine fun s t hd bs g hf => ⟨fun hg => ⟨_, exec_chunkMessage_follows hf .., Head.takeMirror_bad hg t hd⟩, fun hg hw hm => ?_⟩
    refine ⟨_, exec_chunkMessage_follows hf .., ?_⟩
    rw [Head.takeMirror_good hg hw hm, Head.modTrp_quiet rfl]
    exact ⟨rfl, List.mem_append_right _ (List.mem_singleton_self _), by simp⟩
  case noChunk => exact fun s t hd bs g hf hl => ⟨_, exec_chunkMessage_ignored hf hl .., rfl⟩
  case confirm => exact fun s t hd x hl hx => ⟨⟨_, exec_confirmMessage_denied hl hx, rfl⟩, ⟨_, exec_confirmMessage_held hl hx, rfl⟩⟩
  case order => exact fun s t o hf => ⟨_, exec_orderMessage_follows hf o, rfl⟩
  case noOrder => exact fun s t o hf => ⟨_, exec_orderMessage_ignored hf o, rfl⟩
  case noMarker => exact fun s t b c l hr => ⟨_, exec_markerMessage_ignored hr .., rfl⟩
  case marker => exact fun s t b c l hc hs hw hm hr => ⟨_, rfl, Head.marker_ready hc hs hw hm hr⟩
  case digest =>
    exact fun s t b d => ⟨fun hr hs => ⟨_, exec_digestMessage_joining hr hs b d, rfl⟩,
      fun hr hs => ⟨_, exec_digestMessage_flyer hr hs b d, rfl⟩, fun hr => ⟨_, exec_digestMessage_noRole hr b d, rfl⟩⟩
  case badEntry => exact fun s t e hj he => ⟨_, exec_journalMessage_bad hj he, rfl⟩
  case relay => exact fun s t e hj he => ⟨_, exec_journalMessage_relay hj he, rfl⟩
  case entry => exact fun s t e j hj hf => ⟨_, exec_journalMessage_entry hj hf, rfl, rfl⟩
  case heartbeat => exact fun s => ⟨_, exec_controlMessage s _, rfl⟩
  case power => exact fun s n => ⟨_, exec_controlMessage s _, rfl⟩
  case unarmed =>
    exact fun s d b ha => ⟨fun hd => ⟨_, exec_controlMessage s _, (Head.peerArmed_unarmed ha d b).trans (if_pos hd)⟩,
      fun hd => ⟨_, exec_controlMessage s _, (Head.peerArmed_unarmed ha d b).trans (if_neg hd)⟩⟩
  case armed =>
    exact fun s d a ha hi hp hc ho hd => ⟨_, exec_controlMessage s _, Head.peerArmed_sameBeat ha hi hp hc ho hd⟩

end Sys2Proof.Machine
end

section
/-!
SUPPORT. The references of the Wheel (10_shelves_and_the_wheel.md R232 to R234; 17_package_pins_electrical.md R376): the lock that a
report finds, and what a head does when a reference is missing, contended or found, as a driver and as a follower.
-/

namespace Sys2Proof.Machine

open Sys2Proof

/-! ## Locks -/

theorem Head.relock_src (h : Head) (drift : Bool) (n : Nat) : (h.relock drift).src n = h.src n := Head.src_congr rfl n
theorem Head.modWhl_src (h : Head) (f : Whl → Whl) (n : Nat) : (h.modWhl f).src n = h.src n := Head.src_congr rfl n

/-- A lock state without drift is the one that the references give. -/
theorem Head.relock_lock (h : Head) : (h.relock false).whl.lock = h.baseLock := rfl

/-- A driver with the lock and PTP_EN is locked to PTP. -/
theorem Head.baseLock_ptp {h : Head} (hd : h.whl.driver = true) (hp : h.whl.ptpLocked = true) (he : h.bit Adr.WHL_CFG 0 = true) :
    h.baseLock = 1 := by
  simp [Head.baseLock, hd, hp, he]

/-- A driver without the lock is in HOLDOVER, or FREE before any lock. -/
theorem Head.baseLock_noPtp {h : Head} (hd : h.whl.driver = true) (hp : h.whl.ptpLocked = false) :
    h.baseLock = if h.whl.everLocked then 2 else 0 := by
  simp [Head.baseLock, hd, hp]

/-- A follower that sees the peer's tick alone is on it. -/
theorem Head.baseLock_tick {h : Head} (hd : h.whl.driver = false) (hr : h.whl.refSeen = false) (ht : h.whl.tickSeen = true) :
    h.baseLock = 4 := by
  simp [Head.baseLock, hd, hr, ht]

/-! ## A missing `WHEEL_REF` (R232, R233) -/

/-- `WHEEL_REF` is no longer seen. -/
def Head.refUnseen (h : Head) : Head := h.modWhl fun w => { w with refSeen := false }

/-- The head takes the drive of the Wheel over. -/
def Head.takeDrive (h : Head) : Head := ((h.modWhl fun w => { w with driver := true }).raise 675).relock false

/-- The follower goes on with the peer's tick. -/
def Head.onTick (h : Head) : Head :=
  ((h.modWhl fun w => { w with refSeen := false, tickSeen := true, refMissing := 2 }).raise 676).relock false

theorem exec_wheelRefMissing (s : State) : exec .wheelRefMissing s = .next { s with head :=
    if s.head.whl.driver = true ∨ (!s.head.whl.running) = true then s.head
    else if s.head.pair.absent = true ∨ s.head.pair.spareMaster = true then s.head.refUnseen.takeDrive
    else s.head.refUnseen } := rfl

theorem exec_refMissing (s : State) : exec .refMissing s = .next { s with head :=
    if s.head.whl.driver = true ∨ (!s.head.whl.running) = true then s.head else s.head.onTick } := rfl

theorem Head.takeDrive_whl (h : Head) : h.takeDrive.whl.driver = true ∧ h.takeDrive.whl.refSeen = h.whl.refSeen := by
  simp [Head.takeDrive, Head.relock]

theorem Head.takeDrive_src (h : Head) : h.takeDrive.src 675 = (h.src 675).raised := by
  rw [Head.takeDrive, Head.relock_src, Head.raise_src_self, Head.modWhl_src]

theorem Head.onTick_whl (h : Head) : h.onTick.whl.refMissing = 2 ∧ h.onTick.whl.tickSeen = true := by
  simp [Head.onTick, Head.relock]

theorem Head.onTick_lock {h : Head} (hd : h.whl.driver = false) : h.onTick.whl.lock = 4 := by
  rw [Head.onTick, Head.relock_lock]
  exact Head.baseLock_tick (by simpa using hd) (by simp) (by simp)

theorem Head.onTick_src (h : Head) : h.onTick.src 676 = (h.src 676).raised := by
  rw [Head.onTick, Head.relock_src, Head.raise_src_self, Head.modWhl_src]

/-! ## Contention (R376) -/

/-- A driver meets another pulse: head 1 is to stop at its next slot edge. -/
def Head.contended (h : Head) : Head := (h.raise 679).modWhl fun w => { w with dropDrive := w.dropDrive || h.headId == 1 }

theorem exec_wheelRefContention (s : State) : exec .wheelRefContention s =
    .next { s with head := if (!s.head.whl.driver) = true then s.head else s.head.contended } := rfl

theorem Head.contended_src (h : Head) : h.contended.src 679 = (h.src 679).raised := by
  rw [Head.contended, Head.modWhl_src, Head.raise_src_self]

theorem Head.contended_whl (h : Head) :
    h.contended.whl = { h.whl with dropDrive := h.whl.dropDrive || h.headId == 1 } := by
  simp [Head.contended]

/-! ## The lock to PTP (R233, R234) -/

/-- The PTP lock is gone, and with it the offset. -/
def Head.ptpUnlocked (h : Head) : Head := h.modWhl fun w => { w with ptpLocked := false, ptpOfs := none }

/-- The PTP lock is there, with the offset from the grid. -/
def Head.ptpFound (h : Head) : Head := h.modWhl fun w => { w with ptpLocked := true, ptpOfs := some h.ptpOffset }

/-- The servo locks, and the lock state follows. -/
def Head.ptpServo (h : Head) : Head := h.ptpFound.relock (h.whl.lock == 5)

/-- A driver reports the lost lock. -/
def Head.ptpLossReported (h : Head) : Head := (h.raise 672).relock false

theorem exec_ptpLockLost (s : State) : exec .ptpLockLost s = .next { s with head :=
    if (!s.head.whl.ptpLocked) = true then s.head
    else if s.head.whl.driver = true then s.head.ptpUnlocked.ptpLossReported
    else s.head.ptpUnlocked } := rfl

theorem exec_ptpLockAcquired (s : State) : exec .ptpLockAcquired s = .next { s with head :=
    if (!s.head.whl.running) = true ∨ s.head.whl.ptpLocked = true then s.head
    else s.head.ptpServo } := rfl

theorem Head.ptpServo_undrifted {h : Head} (hl : h.whl.lock ≠ 5) : h.ptpServo = h.ptpFound.relock false := by
  rw [Head.ptpServo, beq_false_of_ne hl]

theorem Head.ptpLossReported_src (h : Head) : h.ptpLossReported.src 672 = (h.src 672).raised := by
  rw [Head.ptpLossReported, Head.relock_src, Head.raise_src_self]

theorem Head.ptpLossReported_ptpLocked (h : Head) : h.ptpLossReported.whl.ptpLocked = h.whl.ptpLocked := by
  simp [Head.ptpLossReported, Head.relock]

theorem Head.ptpLossReported_lock {h : Head} (hd : h.whl.driver = true) (hp : h.whl.ptpLocked = false) :
    h.ptpLossReported.whl.lock = if h.whl.everLocked then 2 else 0 := by
  rw [Head.ptpLossReported, Head.relock_lock, Head.baseLock_noPtp (by simpa using hd) (by simpa using hp), Head.raise_whl]

/-- Settles O37, row by row from what a driver and a follower do at each loss and find of a reference. -/
theorem wheelReferencesAreLostAndFound : Obligations.WheelReferencesAreLostAndFound := by
  unfold Obligations.WheelReferencesAreLostAndFound
  refine ⟨?driver, ?follower, ?contention, ?lost, ?acquired⟩
  case driver =>
    exact fun s hd => ⟨⟨_, exec_wheelRefMissing s, if_pos (.inl hd)⟩, ⟨_, exec_refMissing s, if_pos (.inl hd)⟩⟩
  case follower =>
    intro s hd hr
    have hf : ¬ (s.head.whl.driver = true ∨ (!s.head.whl.running) = true) := by simp [hd, hr]
    refine ⟨fun hm => ⟨_, exec_wheelRefMissing s, ?_⟩, fun ha hm => ⟨_, exec_wheelRefMissing s, ?_⟩, ⟨_, exec_refMissing s, ?_⟩⟩
    · obtain ⟨hdrv, href⟩ := Head.takeDrive_whl s.head.refUnseen
      rw [if_neg hf, if_pos hm]
      exact ⟨hdrv, href, Head.takeDrive_src _⟩
    · exact (if_neg hf).trans (if_neg (by simp [ha, hm]))
    · obtain ⟨hmiss, htick⟩ := Head.onTick_whl s.head
      rw [if_neg hf]
      exact ⟨Head.onTick_lock hd, hmiss, htick, Head.onTick_src _⟩
  case contention =>
    refine fun s => ⟨fun hd => ⟨_, exec_wheelRefContention s, if_pos (by simp [hd])⟩, fun hd => ⟨_, exec_wheelRefContention s, ?_⟩⟩
    rw [if_neg (by simp [hd])]
    exact ⟨Head.contended_src _, Head.contended_whl _⟩
  case lost =>
    refine fun s => ⟨fun hp => ⟨_, exec_ptpLockLost s, if_pos (by simp [hp])⟩, fun hp hd => ⟨_, exec_ptpLockLost s, ?_⟩,
      fun hp hd => ⟨_, exec_ptpLockLost s, ?_⟩⟩
    · have hlocked : ¬ (!s.head.whl.ptpLocked) = true := by simp [hp]
      rw [if_neg hlocked, if_pos hd]
      exact ⟨Head.ptpLossReported_src _, Head.ptpLossReported_ptpLocked _, Head.ptpLossReported_lock hd rfl⟩
    · exact (if_neg (by simp [hp])).trans (if_neg (by simp [hd]))
  case acquired =>
    intro s hr hp hd he hl
    refine ⟨_, exec_ptpLockAcquired s, ?_⟩
    rw [if_neg (by simp [hr, hp]), Head.ptpServo_undrifted hl]
    exact ⟨(Head.relock_lock _).trans (Head.baseLock_ptp hd rfl he), rfl, rfl⟩

end Sys2Proof.Machine
end

section
/-!
SUPPORT. Head memory over a step (12_pantry_and_memory.md R266, R272, R273): the rows that do not reach it change the head's record
alone, and each row that reaches it keeps its canonical form.
-/

namespace Sys2Proof.Machine

open Sys2Proof

/-! ## The rows that do not reach head memory -/

theorem execPowerSample_head (p : PowerSample) (s : State) :
    (∃ f, execPowerSample p s = .fault f) ∨ ∃ h, execPowerSample p s = .next { s with head := h } := by
  unfold execPowerSample
  split
  · exact .inl ⟨_, rfl⟩
  · exact .inr ⟨_, rfl⟩

theorem execHoldupUpdate_head (vh : Nat) (s : State) :
    (∃ f, execHoldupUpdate vh s = .fault f) ∨ ∃ h, execHoldupUpdate vh s = .next { s with head := h } := by
  unfold execHoldupUpdate
  split
  · exact .inl ⟨_, rfl⟩
  · exact .inr ⟨_, rfl⟩

/-- A command that does not reach head memory stops, or changes the head's record alone. -/
theorem exec_head_of_not_reachesMemory {i : Instr} (hi : reachesMemory i = false) (s : State) :
    (∃ f, exec i s = .fault f) ∨ ∃ h, exec i s = .next { s with head := h } := by
  cases i with
  | powerSample p => exact execPowerSample_head p s
  | holdupUpdate vh => exact execHoldupUpdate_head vh s
  | registerWrite | pantryAccess | pantryLineFill | dmaSnoop | pantryDrained | cmpJobStart | cmpJobEnd | dgtRunEnd
  | attestationQuoteDone | tsiLoad | imageApply | memberCompletion | memberLate | flushTrigger | thermalTrip | portsPowerDown
  | vinBelowCellar | lossOfBothSupplies => cases hi
  | _ => exact .inr ⟨_, rfl⟩

theorem exec_frame_of_not_reachesMemory {i : Instr} {s t : State} (hi : reachesMemory i = false) (ht : exec i s = .next t) :
    t = { s with head := t.head } := by
  obtain ⟨f, hf⟩ | ⟨h, hn⟩ := exec_head_of_not_reachesMemory hi s
  · cases hf.symm.trans ht
  · cases hn.symm.trans ht
    rfl

/-- Settles O57: the head's record alone changes, so every byte stays. -/
theorem commandsOfTheHeadLeaveMemory : Obligations.CommandsOfTheHeadLeaveMemory := by
  unfold Obligations.CommandsOfTheHeadLeaveMemory
  refine ⟨fun i s t hi ht => exec_frame_of_not_reachesMemory hi ht, fun i s t a hi ht => ?_⟩
  rw [exec_frame_of_not_reachesMemory hi ht]

/-! ## The rows that reach head memory -/

/-- An answer keeps the canonical form of head memory: the next state, where there is one, has it. -/
def KeepsCanonical (o : Host.Outcome State Fault Refusal) : Prop := ∀ t, o = .next t → Memory.wf t.mem = true

theorem KeepsCanonical.next {t : State} (ht : Memory.wf t.mem = true) : KeepsCanonical (.next t) := by
  rintro _ ⟨⟩
  exact ht

/-- Both branches of a choice keep the form, so the choice does. -/
theorem KeepsCanonical.ite {c : Prop} [Decidable c] {o o' : Host.Outcome State Fault Refusal} (ho : KeepsCanonical o)
    (ho' : KeepsCanonical o') : KeepsCanonical (if c then o else o') := by
  split
  · exact ho
  · exact ho'

section canonical
variable {s : State} (hs : Memory.wf s.mem = true)
include hs

/-- A command that does not reach memory keeps the form, because it keeps memory. -/
theorem KeepsCanonical.of_not_reachesMemory {i : Instr} (hi : reachesMemory i = false) : KeepsCanonical (exec i s) := by
  intro t ht
  rw [exec_frame_of_not_reachesMemory hi ht]
  exact hs

theorem execRegisterWrite_canonical (core a : Nat) (v : Word) : KeepsCanonical (execRegisterWrite core a v s) := by
  refine .ite (.next hs) ?_
  split
  · exact .next hs
  · next r _ => exact .ite (.next (State.regLoads_wf { s with head := s.head.storeFields r a v } a v hs)) (.next hs)

theorem execCmpJobEnd_canonical (r : JobResult) : KeepsCanonical (execCmpJobEnd r s) := by
  unfold execCmpJobEnd
  split
  · exact .next (State.jobEnd_wf s r hs)
  · exact .next hs

theorem execFlushTrigger_canonical (early : Bool) : KeepsCanonical (execFlushTrigger early s) :=
  .ite (.next (State.flushIfWritten_wf { s with head := s.head.startFlush early } hs)) (.next hs)

theorem execThermalTrip_canonical : KeepsCanonical (execThermalTrip s) := .ite (.next (keptMemory_wf 4 hs)) (.next hs)

/-- The Pantry's dirty lines are written back before the deep state drops what it does not keep. -/
theorem execPortsPowerDown_canonical : KeepsCanonical (execPortsPowerDown s) := by
  unfold execPortsPowerDown
  split
  · exact .next hs
  · next e _ => exact .ite (.next hs) (.ite (.next hs) (.next (keptMemory_wf e.target (Memory.writeBack_wf s.head.pan.lines hs))))

theorem execVinBelowCellar_canonical : KeepsCanonical (execVinBelowCellar s) := .ite (.next (keptMemory_wf 4 hs)) (.next hs)

/-- Every command keeps the canonical form of head memory. -/
theorem exec_canonical (i : Instr) : KeepsCanonical (exec i s) := by
  by_cases hi : reachesMemory i = false
  · exact .of_not_reachesMemory hs hi
  · cases i with
    | registerWrite core a v => exact execRegisterWrite_canonical hs core a v
    | pantryAccess cls stream a w => exact .next (State.access_wf s cls stream a w hs)
    | pantryLineFill a => exact .next (State.lineFill_wf s a hs)
    | dmaSnoop a len w => exact .next (State.dma_wf s a len w hs)
    | pantryDrained => exact .next (State.drained_wf s hs)
    | cmpJobStart => exact .next (State.jobStart_wf s hs)
    | cmpJobEnd r => exact execCmpJobEnd_canonical hs r
    | dgtRunEnd ch => exact .next (State.chanRunEnd_wf s ch hs)
    | attestationQuoteDone sig => exact .next (State.quoteDone_wf s sig hs)
    | tsiLoad => exact .next (State.tsiLoad_wf s hs)
    | imageApply => exact .next (State.imageApply_wf s hs)
    | memberCompletion c => exact .next (State.flushIfWritten_wf { s with head := s.head.memberReport c } hs)
    | memberLate op => exact .next (State.flushIfWritten_wf { s with head := s.head.memberLate op } hs)
    | flushTrigger early => exact execFlushTrigger_canonical hs early
    | thermalTrip => exact execThermalTrip_canonical hs
    | portsPowerDown => exact execPortsPowerDown_canonical hs
    | vinBelowCellar => exact execVinBelowCellar_canonical hs
    | lossOfBothSupplies => exact .next (keptMemory_wf 5 hs)
    | _ => exact absurd rfl hi

end canonical

/-- A step runs the command at the front of the queue, or lets time pass, which leaves memory as it is. -/
theorem step_canonical {s : State} (hs : Memory.wf s.mem = true) : KeepsCanonical (step s) := by
  unfold step
  split
  · exact .next hs
  · next c rest _ => exact exec_canonical (s := { s with pending := rest }) hs c

/-- Settles O55: an idle step leaves memory as it is, and every command keeps its form. -/
theorem memoryStaysCanonicalInEveryStep : Obligations.MemoryStaysCanonicalInEveryStep := by
  unfold Obligations.MemoryStaysCanonicalInEveryStep
  exact fun s t hs ht => step_canonical hs t ht

end Sys2Proof.Machine
end

section
/-!
SUPPORT. The supplies, RESET_N and the calendar (13_power_states_and_wake.md R283, R297; 16_boot_trust_and_firmware.md R338;
17_package_pins_electrical.md R372, R373): what each row leaves of the head and of head memory.
-/

namespace Sys2Proof.Machine

open Sys2Proof

/-! ## The cellar's supply (R283) -/

/-- The cellar runs from VBAK. -/
def Head.onBattery (h : Head) : Head := { h with pins := { h.pins with vin := false }, cel := { h.cel with onVbak := true } }

/-- The cellar runs from VIN. -/
def Head.onVin (h : Head) : Head := { h with pins := { h.pins with vin := true }, cel := { h.cel with onVbak := false } }

/-- CELLAR keeps no head memory, whatever it held (log 6). -/
theorem keptMemory_cellar (m : Memory) : keptMemory 4 m = [] := rfl

/-- OFF keeps no head memory, whatever it held (log 6). -/
theorem keptMemory_off (m : Memory) : keptMemory 5 m = [] := rfl

theorem exec_vinBelowCellar_kept {s : State} (hp : s.head.pwr.state ≠ 3) :
    exec .vinBelowCellar s = .next { s with head := s.head.onBattery } :=
  if_neg hp

/-- CAROUSEL needs VIN: what it retained and head memory are void. -/
theorem exec_vinBelowCellar_carousel {s : State} (hp : s.head.pwr.state = 3) :
    exec .vinBelowCellar s = .next { s with head := s.head.onBattery.carouselLost, mem := [] } := by
  rw [← keptMemory_cellar s.mem]
  exact if_pos hp

theorem exec_vinAboveCellar (s : State) : exec .vinAboveCellar s = .next { s with head := s.head.onVin } := rfl

theorem exec_lossOfBothSupplies (s : State) :
    exec .lossOfBothSupplies s = .next { s with head := s.head.unpowered, mem := [] } := by
  rw [← keptMemory_off s.mem]
  rfl

/-! ## VIN at the pins (R338) -/

/-- The head is off: it neither runs nor sleeps. -/
def Head.isOff (h : Head) : Bool := !h.fwu.running && h.pwr.state != 3 && h.pwr.state != 4

theorem Head.isOff_iff (h : Head) : h.isOff = true ↔ h.fwu.running = false ∧ h.pwr.state ≠ 3 ∧ h.pwr.state ≠ 4 := by
  simp [Head.isOff, and_assoc]

theorem exec_vinApplied (i : StartInfo) (s : State) : exec (.vinApplied i) s = .next { s with head :=
    if s.head.isOff = true ∧ (!s.head.heldReset) = true then (s.head.onVin.modPwr fun p => { p with state := 0 }).start 0 i
    else s.head.onVin } := rfl

/-- A head that runs, sleeps or is held does not start with VIN. -/
theorem Head.not_startsWithVin {h : Head} (hw : h.fwu.running = true ∨ h.pwr.state = 3 ∨ h.pwr.state = 4 ∨ h.heldReset = true) :
    ¬(h.isOff = true ∧ (!h.heldReset) = true) := by
  rw [Head.isOff_iff]
  rintro ⟨⟨hr, h3, h4⟩, hh⟩
  simp [hr, h3, h4, (Bool.not_eq_true' _).mp hh] at hw

/-! ## RESET_N (R372) -/

theorem exec_resetAssert (s : State) : exec .resetAssert s =
    .next { s with head := { s.head.holdReset with pins := { s.head.holdReset.pins with resetLow := true } } } := rfl

theorem exec_resetRelease_high {s : State} (i : StartInfo) (hl : s.head.pins.resetLow = false) :
    exec (.resetRelease i) s = .next s := by
  show execResetRelease i s = _
  simp [execResetRelease, State.act, hl]

/-- RESET_N was the only hold, so its release starts the head. -/
theorem exec_resetRelease_starts {s : State} (i : StartInfo) (hl : s.head.pins.resetLow = true)
    (ht : tapHolds s.head.pins.tap = false) : exec (.resetRelease i) s =
      .next { s with head := ({ s.head with pins := { s.head.pins with resetLow := false } } : Head).start 5 i } := by
  show execResetRelease i s = _
  simp [execResetRelease, State.act, hl, Head.heldReset, ht]

/-! ## The calendar (R297, R373) -/

theorem exec_calendarSet (v : Word) (s : State) : exec (.calendarSet v) s = .next { s with head := s.head.calendarSet v } := rfl

/-- The calendar stands at the second that it had reached, and is invalid. -/
def Head.crystalLost (h : Head) : Head :=
  h.modCel fun c => { c with calValid := false, calSec := h.calNow, crystalStopped := true }

theorem exec_calendarCrystalStopped (s : State) : exec .calendarCrystalStopped s =
    .next { s with head := if s.head.awake = true then s.head.crystalLost.raise 824 else s.head.crystalLost } := rfl

theorem Head.crystalLost_raised (h : Head) : (h.crystalLost.raise 824).src 824 = (h.src 824).raised := by
  rw [Head.raise_src_self, Head.src_congr (h := h.crystalLost) (g := h) rfl]

/-- Settles O45, row by row. -/
theorem suppliesResetAndCalendar : Obligations.SuppliesResetAndCalendar := by
  unfold Obligations.SuppliesResetAndCalendar
  refine ⟨?below, ?carousel, ?above, ?noStart, ?starts, ?held, ?notHeld, ?released, ?unpowered, ?calendarSet, ?crystal⟩
  case below => exact fun s hp => ⟨_, exec_vinBelowCellar_kept hp, rfl⟩
  case carousel => exact fun s hp => ⟨_, exec_vinBelowCellar_carousel hp, rfl, rfl, rfl, rfl, rfl, rfl⟩
  case above => exact fun s => ⟨_, exec_vinAboveCellar s, rfl⟩
  case noStart => exact fun s i hw => ⟨_, exec_vinApplied i s, if_neg (Head.not_startsWithVin hw)⟩
  case starts =>
    exact fun s i hr h3 h4 hh => ⟨_, exec_vinApplied i s, if_pos ⟨(Head.isOff_iff _).2 ⟨hr, h3, h4⟩, by simp [hh]⟩⟩
  case held => exact fun s => ⟨_, exec_resetAssert s, rfl, rfl, rfl, rfl, rfl⟩
  case notHeld => exact fun s i hl => ⟨_, exec_resetRelease_high i hl, rfl⟩
  case released => exact fun s i hl ht => ⟨_, exec_resetRelease_starts i hl ht, rfl⟩
  case unpowered => exact fun s => ⟨_, exec_lossOfBothSupplies s, rfl, rfl, rfl, rfl, rfl, rfl⟩
  case calendarSet => exact fun s v => ⟨_, exec_calendarSet v s, rfl⟩
  case crystal =>
    intro s
    refine ⟨_, exec_calendarCrystalStopped s, ?_⟩
    by_cases ha : s.head.awake = true
    · have hcel : (s.head.crystalLost.raise 824).cel = s.head.crystalLost.cel := Head.raise_cel ..
      rw [if_pos ha]
      exact ⟨congrArg Cel.calValid hcel, congrArg Cel.crystalStopped hcel, fun _ => Head.crystalLost_raised _,
        fun hn => absurd ha (by simp [hn])⟩
    · rw [if_neg ha]
      exact ⟨rfl, rfl, fun h => absurd h ha, fun _ => rfl⟩

end Sys2Proof.Machine
end

section
/-!
SUPPORT. Barker (15_faults_barker_attic.md R323, R325): what a claim, the end of a service and a dismissal do to the sources, and
what a doorbell raises and records.
-/

namespace Sys2Proof.Machine

open Sys2Proof

/-! ## The rows -/

theorem exec_brkClaim {core : Nat} (hc : core < 16) (s : State) :
    exec (.brkClaim core) s = .next { s with head := s.head.claim core } :=
  State.act_of (if_pos hc)

theorem exec_brkDone {core n : Nat} (hc : core < 16) (hn : n < 1152) (s : State) :
    exec (.brkDone core n) s = .next { s with head := s.head.done n } :=
  State.act_of (if_pos ⟨hc, hn⟩)

theorem exec_brkPendDismiss (k : Nat) (mask : Word) (s : State) :
    exec (.brkPendDismiss k mask) s = .next { s with head := s.head.dismiss k mask } := rfl

theorem exec_brkRaise {n : Nat} (hn : n < 2048) (s : State) :
    exec (.brkRaise n) s = .next { s with head := s.head.doorbell n } :=
  State.act_of (f := fun h => h.doorbell (n % 2048)) (by rw [Nat.mod_eq_of_lt hn])

/-! ## The service of a source (R323) -/

section service
variable {h : Head} {n : Nat} {f : SrcState → SrcState}

theorem Head.modSrc_frame : h.modSrc n f = { h with brk := (h.modSrc n f).brk } := rfl

/-- A changed source reads as the change left it, or as idle. -/
theorem Head.modSrc_src_self (hf : (f (h.src n)).src = n) : (h.modSrc n f).src n =
    if (f (h.src n)).pending || (f (h.src n)).inService || (f (h.src n)).again then f (h.src n) else { src := n } := by
  have := Head.src_putSrc_self h (f (h.src n))
  rwa [hf] at this

theorem Head.modSrc_src_other (hf : (f (h.src n)).src = n) {m : Nat} (hm : m ≠ n) : (h.modSrc n f).src m = h.src m :=
  Head.src_putSrc_other h (f (h.src n)) (hf.symm ▸ hm)

end service

/-- A claim marks the source that it returns. -/
theorem Head.claim_top {h : Head} {core n : Nat} (ht : h.topSource (h.claimable core) = some n) :
    h.claim core = h.modSrc n fun x => { x with inService := true } := by
  simp [Head.claim, ht]

theorem Head.claimed_src (h : Head) (n : Nat) :
    (h.modSrc n fun x => { x with inService := true }).src n = { h.src n with inService := true } := by
  rw [Head.modSrc_src_self (h.src_src n), if_pos (by simp)]

/-- The end of a service leaves the source pending again when it was raised meanwhile, and else idle. -/
theorem Head.done_src {h : Head} {n : Nat} (hi : (h.src n).inService = true) :
    (h.done n).src n = { src := n, pending := (h.src n).again } := by
  unfold Head.done
  rw [Head.modSrc_src_self (by rw [if_pos hi]; exact h.src_src n), if_pos hi, h.src_src]
  cases (h.src n).again <;> rfl

theorem Head.done_src_other {h : Head} {n m : Nat} (hi : (h.src n).inService = true) (hm : m ≠ n) : (h.done n).src m = h.src m :=
  Head.modSrc_src_other (by rw [if_pos hi]; exact h.src_src n) hm

/-- A dismissal takes the sources it names out of the list, and only those. -/
theorem Head.dismiss_src (h : Head) (k : Nat) (mask : Word) (m : Nat) :
    (h.dismiss k mask).src m = if m / 32 = k ∧ mask.getLsbD (m % 32) then { src := m } else h.src m := by
  unfold Head.src Head.dismiss
  dsimp only
  rw [List.find?_filter]
  split
  · next hd =>
    rw [List.find?_eq_none.2]
    · rfl
    · rintro x - hx
      simp only [decide_eq_true_eq, beq_iff_eq] at hx
      obtain ⟨hx, rfl⟩ := hx
      simp [hd] at hx
  · next hd =>
    congr 2
    funext x
    by_cases hx : x.src = m
    · subst hx
      simpa [← imp_iff_not_or] using hd
    · simp [hx]

/-- Settles O1: each row changes one source, or those that it names, in the list of sources. -/
theorem barkerSourceServiceCycle : Obligations.BarkerSourceServiceCycle := by
  unfold Obligations.BarkerSourceServiceCycle
  refine ⟨?claim, ?done, ?dismiss⟩
  case claim =>
    intro s core n hc ht
    refine ⟨_, exec_brkClaim hc s, ?_⟩
    rw [Head.claim_top ht]
    exact ⟨Head.modSrc_frame, Head.claimed_src .., fun m hm => Head.modSrc_src_other (s.head.src_src n) hm⟩
  case done =>
    exact fun s core n hc hn hi => ⟨_, exec_brkDone hc hn s, Head.modSrc_frame, Head.done_src hi, fun m hm => Head.done_src_other hi hm⟩
  case dismiss => exact fun s k mask => ⟨_, exec_brkPendDismiss k mask s, rfl, s.head.dismiss_src k mask⟩

/-! ## Doorbells (R325) -/

/-- A doorbell has no condition bit. -/
theorem evtBit_doorbell {n : Nat} (h1 : 1056 ≤ n) : evtBit n = none := by
  unfold evtBit
  repeat rw [if_neg (by omega)]

/-- A raise of a source without a condition bit changes the sources alone. -/
theorem Head.raise_noEvt {h : Head} {n : Nat} (he : evtBit n = none) : h.raise n = { h with brk := (h.raise n).brk } := by
  simp [Head.raise, he, Head.putSrc]

theorem Head.raise_srcSet {h : Head} {n : Nat} (he : evtBit n = none) : (h.raise n).srcSet n = h.srcSet n := by
  rw [Head.raise_noEvt he]
  rfl

/-- Without a snapshot set no record accompanies the doorbell. -/
theorem Head.doorbell_noSet {h : Head} {n : Nat} (h1 : 1056 ≤ n) (h2 : n ≤ 1151) (hs : h.srcSet n = 0) : h.doorbell n = h.raise n := by
  simp [Head.doorbell, h1, h2, Head.raise_srcSet (evtBit_doorbell h1), hs]

theorem Head.doorbell_set {h : Head} {n : Nat} (h1 : 1056 ≤ n) (h2 : n ≤ 1151) (hs : h.srcSet n ≠ 0) :
    h.doorbell n = (h.raise n).enqueue sevInfo n 0 [] := by
  simp [Head.doorbell, h1, h2, Head.raise_srcSet (evtBit_doorbell h1), hs]

/-- A number that is no doorbell's raises source 1000, and the refusal is shown. -/
theorem Head.doorbell_other (h : Head) {n : Nat} (hn : n < 1056 ∨ 1151 < n) :
    h.doorbell n = (h.orReg Adr.BRK_STATUS 0x40000).raise 1000 :=
  if_neg (by omega)

/-- A record that finds room goes to the end of the queue. -/
theorem Head.enqueue_room {h : Head} (sev src code : Nat) (payload : Bytes) (hq : h.atc.queue.length < 256) :
    h.enqueue sev src code payload = { h with atc := { h.atc with
      queue := h.atc.queue ++ [h.formRecord sev src code payload], nextSeq := h.atc.nextSeq + 1 } } :=
  if_neg (by omega)

/-- A doorbell is raised whatever becomes of its record. -/
theorem Head.doorbell_src {h : Head} {n : Nat} (h1 : 1056 ≤ n) (h2 : n ≤ 1151) {m : Nat} (hm : m ≠ 996) :
    (h.doorbell n).src m = (h.raise n).src m := by
  by_cases hs : h.srcSet n = 0
  · rw [Head.doorbell_noSet h1 h2 hs]
  · rw [Head.doorbell_set h1 h2 hs, Head.enqueue_src_other _ _ _ _ _ hm]

/-- A record that accompanies a source carries the snapshot set of that source (R326). -/
theorem Head.formRecord_set (h : Head) (sev : Nat) {src : Nat} (code : Nat) (payload : Bytes) (hs : src ≠ 0xFFFF) :
    (h.formRecord sev src code payload).set = h.srcSet src :=
  if_neg hs

/-- Without a payload the first 23 words of the set fit in a record. -/
theorem Head.formRecord_snaps (h : Head) (sev : Nat) {src : Nat} (code : Nat) (hs : src ≠ 0xFFFF) :
    (h.formRecord sev src code []).snaps = ((h.atc.set (h.srcSet src)).2.take 23).map h.readReg := by
  unfold Head.formRecord
  rw [if_neg hs]
  rfl

theorem Head.raise1000_bit (h : Head) : (h.raise 1000).bit Adr.BRK_STATUS 18 = true := Head.bit_orReg _ _ 18 (by decide)

/-- Settles O2: a doorbell's number raises its source and enters the record of its set, any other raises source 1000. -/
theorem doorbellRaise : Obligations.DoorbellRaise := by
  unfold Obligations.DoorbellRaise
  refine ⟨?doorbell, ?other⟩
  case doorbell =>
    intro s n h1 h2
    refine ⟨_, exec_brkRaise (by omega) s, ?self, ?others, ?noSet, ?record⟩
    case self => rw [Head.doorbell_src h1 h2 (by omega), Head.raise_src_self]
    case others => exact fun m hm h996 => by rw [Head.doorbell_src h1 h2 h996, Head.raise_src_other _ hm]
    case noSet =>
      intro hs
      rw [Head.doorbell_noSet h1 h2 hs]
      exact Head.raise_noEvt (evtBit_doorbell h1)
    case record =>
      intro hs hq
      have he := evtBit_doorbell h1
      have hset := Head.raise_srcSet (h := s.head) he
      have hn : n ≠ 0xFFFF := by omega
      rw [Head.doorbell_set h1 h2 hs, Head.enqueue_room _ _ _ _ (by rwa [Head.raise_atc])]
      refine ⟨by rw [Head.raise_noEvt he], _, by rw [Head.raise_atc], rfl, rfl, rfl, rfl, ?_, ?_⟩
      · rw [Head.formRecord_set _ _ _ _ hn, hset]
      · rw [Head.formRecord_snaps _ _ _ hn, hset]
  case other =>
    intro s n hn ho
    refine ⟨_, exec_brkRaise hn s, ?_⟩
    rw [Head.doorbell_other _ ho]
    refine ⟨?self, ?others, Head.raise1000_bit _, ?frame⟩
    case self => rw [Head.raise_src_self, Head.src_congr (Head.orReg_brk ..)]
    case others => exact fun m hm => by rw [Head.raise_src_other _ hm, Head.src_congr (Head.orReg_brk ..)]
    case frame => rw [Head.raise_frame]; rfl

end Sys2Proof.Machine
end

section
/-!
SUPPORT. Fault windows and the Attic (15_faults_barker_attic.md R316, R329, R331, R333, R336): what a count below its threshold, an
age-out, a record's write, a slot's read and a set's commit leave.
-/

namespace Sys2Proof.Machine

open Sys2Proof

/-! ## Condition bits lie outside the banked registers -/

/-- The first place of a chain of choices lies below a bound, and so do the others. -/
theorem place_lt_ite {c : Prop} [Decidable c] {a b bound : Nat} {o : Option (Nat × Nat)} (ha : c → a < bound)
    (ho : ∀ x ∈ o, x.1 < bound) : ∀ x ∈ (if c then some (a, b) else o), x.1 < bound := by
  split
  · next hc =>
    rintro _ ⟨⟩
    exact ha hc
  · exact ho

/-- The condition bit of a source lies in a register of the control space, below every banked key. -/
theorem evtBit_place_lt (n : Nat) : ∀ x ∈ evtBit n, x.1 < 0x100000000 := by
  unfold evtBit
  repeat refine place_lt_ite (fun _ => by decide) ?_
  refine place_lt_ite (fun hn => ?_) nofun
  unfold Adr.BTH_CMP_LAST_ERR
  omega

/-- A raise leaves every register with a bank above 0 alone. -/
theorem Head.raise_reg_bank (h : Head) (n a : Nat) {i : Nat} (hi : i ≠ 0) : (h.raise n).reg (bankKey i a) = h.reg (bankKey i a) := by
  unfold Head.raise
  split
  · rfl
  · next b k he =>
    have hb : b < 0x100000000 := evtBit_place_lt n _ he
    exact Head.reg_setReg_other _ _ (by unfold bankKey; omega)

theorem Head.raise_thresh (h : Head) (n : Nat) {cls : Nat} (hc : cls ≠ 0) : (h.raise n).thresh cls = h.thresh cls := by
  unfold Head.thresh Head.bit Head.fld
  dsimp only
  rw [Head.raise_reg_bank _ _ _ hc]

/-! ## Counting (R316, R322) -/

/-- The times of a part's counts with one that is counted now. -/
def Head.countedTimes (h : Head) (cls : Nat) (p : FaultPart) : List Nat :=
  (h.opNow :: p.times).take (if deepClass cls then 256 else 15)

/-- A count is kept with its time and raises source 1001, and that of a booth site its own source too. -/
def Head.keepCount (h : Head) (cls part : Nat) (p : FaultPart) : Head :=
  ((h.putPart { p with times := h.countedTimes cls p, state := 1, last := h.stamp }).raise 1001).when (cls == 1) fun h => h.raise (8 * part)

theorem Head.keepCount_thresh (h : Head) {cls : Nat} (hc : cls ≠ 0) (part : Nat) (p : FaultPart) :
    (h.keepCount cls part p).thresh cls = h.thresh cls := by
  have hput (q : FaultPart) : ((h.putPart q).raise 1001).thresh cls = h.thresh cls := Head.raise_thresh _ _ hc
  unfold Head.keepCount
  rw [when_eq]
  split
  · rw [Head.raise_thresh _ _ hc, hput]
  · exact hput _

/-- A count that leaves its window below the threshold switches nothing off. -/
theorem Head.countFault_below {h : Head} {cls part : Nat} (hc : cls ≠ 0) (ho : h.partOut cls part = false)
    (hs : (h.flt.part cls part).state ≤ 1)
    (hn : (h.inWindow (h.windowH cls) (h.countedTimes cls (h.flt.part cls part))).length < h.thresh cls) :
    h.countFault cls part false = h.keepCount cls part (h.flt.part cls part) := by
  have hopen : (h.partOut cls part || decide (2 ≤ (h.flt.part cls part).state)) = false := by
    rw [ho, Bool.false_or, decide_eq_false_iff_not]
    omega
  have hbelow : (false || decide ((h.keepCount cls part (h.flt.part cls part)).thresh cls ≤
      (h.inWindow (h.windowH cls) (h.countedTimes cls (h.flt.part cls part))).length)) = false := by
    rw [Head.keepCount_thresh _ hc]
    simpa using hn
  unfold Head.countFault
  rw [hopen, if_neg Bool.false_ne_true]
  exact if_neg (Bool.eq_false_iff.1 hbelow)

/-- A count of a class that is no module's, in a row that names a class. -/
theorem exec_faultCount {cls : Nat} (h1 : 1 ≤ cls) (h12 : cls ≤ 12) (h7 : cls ≠ 7) (part : Nat) (s : State) :
    exec (.faultCount cls part false) s = .next { s with head := s.head.countFault cls part false } :=
  State.act_of (by simp [h1, h12, h7, Head.countAny])

/-- The open fault of a part closes. -/
def Head.closePart (h : Head) (cls part : Nat) : Head :=
  h.modFlt fun f => { f with parts := f.parts.filter fun x => x.cls != cls || x.part != part }

theorem exec_faultAgeOut {s : State} {cls part : Nat} (hs : (s.head.flt.part cls part).state ≤ 1)
    (hw : s.head.inWindow (s.head.windowH cls) (s.head.flt.part cls part).times = []) :
    exec (.faultAgeOut cls part) s = .next { s with head := s.head.closePart cls part } :=
  State.act_of (if_pos ⟨hs, hw⟩)

/-! ## Records, slots and snapshot sets of the Attic -/

theorem exec_atticRecordWrite (s : State) : exec .atticRecordWrite s = .next { s with head := s.head.atticWrite } := rfl

theorem exec_atcReadSlot {slot : Nat} (hs : slot < 16384) (s : State) :
    exec (.atcReadSlot slot) s = .next { s with head := s.head.readSlot slot } :=
  State.act_of (f := fun h => h.readSlot (slot % 16384)) (by rw [Nat.mod_eq_of_lt hs])

theorem exec_atcSetCommit (s : State) : exec .atcSetCommit s = .next { s with head := s.head.commitSet } := rfl

/-- The oldest record leaves the queue for the slot that its severity gives it. -/
theorem Head.atticWrite_slot {h : Head} {r : AtticRec} {rest : List AtticRec} {n : Nat} (hq : h.atc.queue = r :: rest)
    (hn : ({ h.atc with queue := rest } : Attic).slotFor r.severity = some n) :
    h.atticWrite = { h with atc := { h.atc with
      queue := rest, slots := putSlot n r h.atc.slots, head := max h.atc.head r.seq
      headSlot := if h.atc.head ≤ r.seq then n else h.atc.headSlot, buffer := some (n, r) } } := by
  simp [Head.atticWrite, hq, hn]

theorem Head.dropRecord_sets (h : Head) (sev : Nat) : (h.dropRecord sev).atc.sets = h.atc.sets := by
  unfold Head.dropRecord
  dsimp only
  split
  · rw [Head.raise_atc]
  · rfl

theorem Head.enqueue_sets (h : Head) (sev src code : Nat) (payload : Bytes) : (h.enqueue sev src code payload).atc.sets = h.atc.sets := by
  unfold Head.enqueue
  split
  · exact Head.dropRecord_sets h sev
  · rfl

/-- Set `n` with the next generation and addresses, at the end of the committed sets. -/
def Attic.commit (a : Attic) (n : Nat) (l : List Nat) : Attic :=
  { a with sets := a.sets.filter (fun x : Nat × Nat × List Nat => x.1 != n) ++ [(n, ((a.set n).1 + 1) % 256, l)] }

theorem Attic.commit_set (a : Attic) (n : Nat) (l : List Nat) : (a.commit n l).set n = (((a.set n).1 + 1) % 256, l) := by
  have hrest : (a.sets.filter fun x : Nat × Nat × List Nat => x.1 != n).find? (·.1 == n) = none := by
    simp [List.find?_eq_none]
  simp [Attic.commit, Attic.set, List.find?_append, hrest]

theorem Head.commitSet_none {h : Head} (hn : h.fld Adr.ATC_SET_SEL 4 0 = 0) : h.commitSet = h := if_pos hn

/-- A commit of a set stores it, enters a record and raises source 999. -/
theorem Head.commitSet_some {h : Head} (hn : h.fld Adr.ATC_SET_SEL 4 0 ≠ 0) : ∃ l payload, h.commitSet =
    (({ h with atc := h.atc.commit (h.fld Adr.ATC_SET_SEL 4 0) l } : Head).plainRecord sevInfo 2 payload).raise 999 :=
  ⟨_, _, if_neg hn⟩

theorem Head.commitSet_src {h : Head} (hn : h.fld Adr.ATC_SET_SEL 4 0 ≠ 0) : h.commitSet.src 999 = (h.src 999).raised := by
  obtain ⟨l, payload, e⟩ := Head.commitSet_some hn
  rw [e, Head.raise_src_self, Head.plainRecord, Head.enqueue_src_other _ _ _ _ _ (by decide)]
  exact congrArg SrcState.raised (Head.src_congr rfl _)

theorem Head.commitSet_generation {h : Head} (hn : h.fld Adr.ATC_SET_SEL 4 0 ≠ 0) :
    (h.commitSet.atc.set (h.fld Adr.ATC_SET_SEL 4 0)).1 = ((h.atc.set (h.fld Adr.ATC_SET_SEL 4 0)).1 + 1) % 256 := by
  obtain ⟨l, payload, e⟩ := Head.commitSet_some hn
  have hsets : h.commitSet.atc.sets = (h.atc.commit (h.fld Adr.ATC_SET_SEL 4 0) l).sets := by
    rw [e, Head.raise_atc, Head.plainRecord, Head.enqueue_sets]
  rw [Attic.set, hsets]
  exact congrArg Prod.fst (Attic.commit_set ..)

/-- Settles O18, row by row. -/
theorem faultCountingAndAttic : Obligations.FaultCountingAndAttic := by
  unfold Obligations.FaultCountingAndAttic
  refine ⟨?count, ?ageOut, ?write, ?read, ?commit, ?noSet⟩
  case count =>
    rintro s cls part p h1 h12 h7 ho rfl hs hn
    exact ⟨_, exec_faultCount h1 h12 h7 part s, Head.countFault_below (by omega) ho hs hn⟩
  case ageOut =>
    refine fun s cls part hs hw => ⟨_, exec_faultAgeOut hs hw, rfl, fun x => ?_⟩
    simp [Head.closePart]
  case write =>
    intro s r rest n hq hn
    refine ⟨_, exec_atticRecordWrite s, ?_⟩
    rw [Head.atticWrite_slot hq hn]
    exact ⟨rfl, rfl, rfl, rfl⟩
  case read => exact fun s slot hs => ⟨_, exec_atcReadSlot hs s, rfl, rfl⟩
  case commit =>
    rintro s n rfl hn
    exact ⟨_, exec_atcSetCommit s, Head.commitSet_src hn, Head.commitSet_generation hn⟩
  case noSet => exact fun s hn => ⟨_, exec_atcSetCommit s, Head.commitSet_none hn⟩

end Sys2Proof.Machine
end

section
/-!
SUPPORT. Firmware download, commit and scheduled activation (16_boot_trust_and_firmware.md R340, R354 to R357): the control block
after a write, and what each command does past its checks.
-/

namespace Sys2Proof.Machine

open Sys2Proof

/-! ## The boot control block (R340) -/

/-- The copy written last is in force: it is valid and has the higher SEQ. -/
theorem Head.putBctl_bctl (h : Head) (f : Bctl → Bctl) :
    (h.putBctl f).fwu.bctl = { f h.fwu.bctl with seq := h.fwu.bctl.seq + 1, ok := true } := by
  unfold Head.putBctl
  rw [Head.modFwu_fwu]
  dsimp only
  cases hA : h.fwu.bctlA.ok with
  | false => cases hB : h.fwu.bctlB.ok <;> simp [Fwu.bctl, hA, hB]
  | true =>
    cases hB : h.fwu.bctlB.ok with
    | false => simp [Fwu.bctl, hA, hB]
    | true => by_cases hlt : h.fwu.bctlA.seq < h.fwu.bctlB.seq <;> simp [Fwu.bctl, hA, hB, hlt]

/-- A write of the control block changes its two copies alone. -/
theorem Head.putBctl_frame (h : Head) (f : Bctl → Bctl) : h.putBctl f =
    { h with fwu := { h.fwu with bctlA := (h.putBctl f).fwu.bctlA, bctlB := (h.putBctl f).fwu.bctlB } } := by
  unfold Head.putBctl Head.modFwu
  dsimp only
  split <;> rfl

theorem Bctl.other_cases (b : Bctl) : b.other = 1 ∨ b.other = 2 := by
  unfold Bctl.other
  split <;> simp

theorem Bctl.setValid_isValid_false (b : Bctl) {slot : Nat} (hs : slot < 16) : (b.setValid slot false).isValid slot = false := by
  show (b.valid &&& ~~~BitVec.ofNat 16 (2 ^ slot)).getLsbD slot = false
  rw [BitVec.getLsbD_and, BitVec.getLsbD_not, BitVec.getLsbD_ofNat, Nat.testBit_two_pow_self]
  simp [hs]

theorem Bctl.setDigest_valid (b : Bctl) (slot : Nat) (d : Bytes) : (b.setDigest slot d).valid = b.valid := by
  unfold Bctl.setDigest
  split <;> rfl

theorem Bctl.setDigest_trial (b : Bctl) (slot : Nat) (d : Bytes) : (b.setDigest slot d).trial = b.trial := by
  unfold Bctl.setDigest
  split <;> rfl

/-! ## Firmware Image Download (R355) -/

@[simp] theorem complete_fwu (h : Head) (c : Ctx) (st : Status) (d : Nat) : (h.complete c st d).fwu = h.fwu := by
  rw [complete_frame]

theorem complete_src (h : Head) (c : Ctx) (st : Status) (d n : Nat) : (h.complete c st d).src n = h.src n :=
  Head.src_congr (by rw [complete_frame]) n

theorem Head.putBlock_bctl (h : Head) (i : Nat) (bs : Bytes) : (h.putBlock i bs).fwu.bctl = h.fwu.bctl := rfl

theorem Head.mem_putBlock_dlBlocks (h : Head) (i : Nat) (bs : Bytes) : i ∈ (h.putBlock i bs).fwu.dlBlocks := by
  show i ∈ if h.fwu.dlBlocks.contains i then h.fwu.dlBlocks else h.fwu.dlBlocks ++ [i]
  split
  · next hi => simpa using hi
  · simp

/-- A slot that neither the schedule nor the selection names is withdrawn without effect. -/
theorem Head.withdrawSlot_unnamed {h : Head} {slot : Nat} (hs : h.fwu.schedule = none) (ht : h.fwu.bctl.trial ≠ slot) :
    h.withdrawSlot slot = h := by
  simp [Head.withdrawSlot, when_eq, hs, ht]

/-- The slot that is downloaded into is no longer VALID. -/
def Head.voidSlot (h : Head) : Head := h.putBctl fun b => (b.setValid h.fwu.bctl.other false).setDigest h.fwu.bctl.other (zeros 32)

theorem Head.voidSlot_isValid (h : Head) : h.voidSlot.fwu.bctl.isValid h.fwu.bctl.other = false := by
  have hlt : h.fwu.bctl.other < 16 := by
    obtain e | e := h.fwu.bctl.other_cases <;> omega
  rw [Head.voidSlot, Head.putBctl_bctl]
  show (Bctl.valid _).getLsbD _ = false
  rw [Bctl.setDigest_valid]
  exact Bctl.setValid_isValid_false _ hlt

/-- With nothing scheduled and no trial selected a download opens on the slot that is not ACTIVE. -/
theorem Head.openDownload_free {h : Head} (cntlid : Nat) (hs : h.fwu.schedule = none) (ht : h.fwu.bctl.trial = 0) :
    h.openDownload cntlid = h.voidSlot.modFwu fun f =>
      { f with dlOpen := true, dlSlot := h.fwu.bctl.other, dlCtrl := cntlid, dlBlocks := [], dlExpected := 0 } := by
  have hs' : h.voidSlot.fwu.schedule = none := by rw [Head.voidSlot, Head.putBctl_frame]; exact hs
  have ht' : h.voidSlot.fwu.bctl.trial ≠ h.fwu.bctl.other := by
    rw [Head.voidSlot, Head.putBctl_bctl, Bctl.setDigest_trial]
    obtain e | e := h.fwu.bctl.other_cases <;> simp [Bctl.setValid, ht, e]
  have hw := Head.withdrawSlot_unnamed hs' ht'
  unfold Head.openDownload
  exact congrArg (Head.modFwu · _) hw

section download
variable {h : Head} {c : Ctx} (data : Bytes)

theorem Head.download_misaligned (ho : (c.cap.dw11.toNat * 4) % 65536 ≠ 0) : h.download c data = h.complete c stInvalidField 0 :=
  if_pos (.inl ho)

/-- A whole block at a block's place, within the region and the host's buffer, passes the checks of the operands. -/
theorem Head.download_block (ho : (c.cap.dw11.toNat * 4) % 65536 = 0) (hn : (c.cap.dw10.toNat + 1) * 4 = 65536)
    (he : c.cap.dw11.toNat * 4 + 65536 ≤ 2 ^ 27) (hb : 65536 ≤ c.cap.sgl.sum) (ht : h.fwu.trial = false)
    (hr : h.fwu.dlOpen = false → h.updateRefused = none) : h.download c data =
      ((if h.fwu.dlOpen then h else h.openDownload c.cntlid).putBlock (c.cap.dw11.toNat * 4 / 65536) (fit 65536 data)).complete c
        stSuccess 0 := by
  have hgo : (if h.fwu.dlOpen then none else h.updateRefused) = none := by
    split
    · rfl
    · next hd => exact hr (by simpa using hd)
  unfold Head.download
  simp only [hn, ho, ht, hgo]
  rw [if_neg (by simp; omega), if_neg (by omega), if_neg (by simp)]

end download

theorem exec_firmwareImageDownload {s : State} {n : Nat} {c : Ctx} (data : Bytes) (hr : s.holdsReady n c true 0x11) :
    exec (.firmwareImageDownload n data) s = .next { s with head := s.head.download c data } :=
  State.act_of (f := fun h => h.ready n true 0x11 fun c => h.download c data) (ready_of_holds hr _)

/-! ## Firmware Commit (R356) -/

theorem Head.firmwareCommit_badAction {h : Head} {c : Ctx} (v : ImageVerdict) (ha : 3 ≤ c.cap.dw10.toNat / 8 % 8) :
    h.firmwareCommit c v = h.complete c stInvalidField 0 :=
  if_pos ha

/-- CA 010 selects a VALID slot that is not ACTIVE for the trial. -/
theorem Head.firmwareCommit_select {h : Head} {c : Ctx} {slot : Nat} (v : ImageVerdict) (ha : c.cap.dw10.toNat / 8 % 8 = 2)
    (hr : h.updateRefused = none) (hs : slot = if c.cap.dw10.toNat % 8 = 0 then h.fwu.bctl.other else c.cap.dw10.toNat % 8)
    (h2 : slot ≤ 2) (hact : slot ≠ h.fwu.bctl.active) (hv : h.fwu.bctl.isValid slot = true) :
    h.firmwareCommit c v = (h.selectTrial slot).complete c stSuccess 0 := by
  unfold Head.firmwareCommit
  simp only [ha, hr, ← hs, hact, hv]
  simp [h2]

theorem Head.selectTrial_trial (h : Head) (slot : Nat) : (h.selectTrial slot).fwu.bctl.trial = slot := by
  rw [Head.selectTrial, Head.putBctl_bctl]

theorem exec_firmwareCommit {s : State} {n : Nat} {c : Ctx} (v : ImageVerdict) (hr : s.holdsReady n c true 0x10) :
    exec (.firmwareCommit n v) s = .next { s with head := s.head.firmwareCommit c v } :=
  State.act_of (f := fun h => h.ready n true 0x10 fun c => h.firmwareCommit c v) (ready_of_holds hr _)

/-! ## Schedule Activation (R357) -/

/-- An activation takes its cycle edge and raises source 942. -/
def Head.scheduled (h : Head) (slot edge : Nat) : Head := (h.modFwu fun f => { f with schedule := some (slot, edge) }).raise 942

theorem Head.scheduled_schedule (h : Head) (slot edge : Nat) : (h.scheduled slot edge).fwu.schedule = some (slot, edge) := by
  rw [Head.scheduled, Head.raise_fwu]
  rfl

theorem Head.scheduled_out (h : Head) (slot edge : Nat) : (h.scheduled slot edge).out = h.out := by
  rw [Head.scheduled, Head.raise_out]
  rfl

theorem Head.scheduled_src (h : Head) (slot edge : Nat) : (h.scheduled slot edge).src 942 = (h.src 942).raised :=
  (Head.raise_src_self ..).trans (congrArg SrcState.raised (Head.src_congr rfl _))

/-- A VALID slot that is not ACTIVE, in time, on a locked wheel and with no condition against it, is scheduled. -/
theorem Head.schedule_accepted {h : Head} {c : Ctx} {ok : Bool} {p : Nat}
    (hp : p = (c.cap.dw11.toNat + c.cap.dw12.toNat * 2 ^ 32) * 1000000000 + c.cap.dw13.toNat)
    (hs : c.cap.dw10.toNat % 4 = 1 ∨ c.cap.dw10.toNat % 4 = 2) (hact : c.cap.dw10.toNat % 4 ≠ h.fwu.bctl.active)
    (hv : h.fwu.bctl.isValid (c.cap.dw10.toNat % 4) = true) (hl : h.whl.lock ≠ 0) (ht : h.ptpNs + 10000000000 ≤ p)
    (hn : h.fwu.schedule = none) (hr : h.updateRefused = none) (ho : h.peerAllows ok = true) :
    h.schedule c ok = (h.scheduled (c.cap.dw10.toNat % 4) (h.edgeAt p)).complete c stSuccess (h.edgeAt p % 2 ^ 32) := by
  have hslot : ¬(c.cap.dw10.toNat % 4 = 0 ∨ c.cap.dw10.toNat % 4 = 3 ∨ c.cap.dw10.toNat % 4 = h.fwu.bctl.active ∨
      (!h.fwu.bctl.isValid (c.cap.dw10.toNat % 4)) = true) := by
    simp only [hv, hact, Bool.not_true, Bool.false_eq_true, or_false]
    omega
  have htime : ¬(h.whl.lock = 0 ∨ p < h.ptpNs + 10000000000 ∨ h.fwu.schedule.isSome = true) := by
    simp only [hn, hl, Option.isSome_none, Bool.false_eq_true, or_false, false_or]
    omega
  unfold Head.schedule
  simp only [← hp, hr, ho]
  rw [if_neg hslot, if_neg htime]
  rfl

theorem exec_scheduleActivation {s : State} {n : Nat} {c : Ctx} (ok : Bool) (hr : s.holdsReady n c true 0xC6) :
    exec (.scheduleActivation n ok) s = .next { s with head := s.head.schedule c ok } :=
  State.act_of (f := fun h => h.ready n true 0xC6 fun c => h.schedule c ok) (ready_of_holds hr _)

/-- Settles O16, command by command. -/
theorem firmwareDownloadCommitSchedule : Obligations.FirmwareDownloadCommitSchedule := by
  unfold Obligations.FirmwareDownloadCommitSchedule
  refine ⟨?misaligned, ?block, ?commit, ?schedule⟩
  case misaligned =>
    rintro s n c data ⟨hr, hs⟩ ho
    exact completes_of_exec (by rw [exec_firmwareImageDownload data hr, Head.download_misaligned data ho]) hs
  case block =>
    rintro s n c data ⟨hr, hs⟩ ho hn he hb ht
    refine ⟨fun hd => ⟨_, exec_firmwareImageDownload data hr, ?opened⟩, fun hd hu hsch htr =>
      ⟨_, exec_firmwareImageDownload data hr, ?first⟩⟩
    case opened =>
      rw [Head.download_block data ho hn he hb ht (by simp [hd]), if_pos hd]
      dsimp only
      rw [complete_fwu]
      exact ⟨rfl, Head.putBlock_bctl .., Head.mem_putBlock_dlBlocks ..⟩
    case first =>
      rw [Head.download_block data ho hn he hb ht fun _ => hu, if_neg (by simp [hd]), Head.openDownload_free _ hsch htr]
      dsimp only
      rw [complete_fwu]
      refine ⟨complete_completedAfter _ _ ?_ hs, rfl, rfl, rfl, s.head.voidSlot_isValid, rfl⟩
      show s.head.voidSlot.out = s.head.out
      rw [Head.voidSlot, Head.putBctl_frame]
  case commit =>
    rintro s n c v ⟨hr, hs⟩
    refine ⟨fun ha => ?_, fun slot ha hu hslot h2 hact hv => ⟨_, exec_firmwareCommit v hr, ?_⟩⟩
    · exact completes_of_exec (by rw [exec_firmwareCommit v hr, Head.firmwareCommit_badAction v ha]) hs
    · rw [Head.firmwareCommit_select v ha hu hslot h2 hact hv]
      dsimp only
      rw [complete_fwu]
      exact ⟨rfl, Head.selectTrial_trial ..⟩
  case schedule =>
    rintro s n c ok e p ⟨hr, hs⟩ hp hslot hact hv hl ht hn hu ho rfl
    refine ⟨_, exec_scheduleActivation ok hr, ?_⟩
    rw [Head.schedule_accepted hp hslot hact hv hl ht hn hu ho]
    dsimp only
    rw [complete_fwu, complete_src]
    exact ⟨complete_completedAfter _ _ (Head.scheduled_out ..) hs, Head.scheduled_schedule .., Head.scheduled_src ..⟩

end Sys2Proof.Machine
end

section
/-!
SUPPORT. Steps (01_head_architecture.md; 17_package_pins_electrical.md R369): what a step runs, and that every command within the
package's limits completes and leaves the commands that wait as they are.
-/

namespace Sys2Proof.Machine

open Sys2Proof

/-! ## A step -/

theorem step_idle {s : State} (hp : s.pending = []) : step s = .next { s with head := s.head.tick } := by
  simp [step, hp]

theorem step_front (s : State) (c : Instr) (rest : List Instr) :
    step { s with pending := c :: rest } = exec c { s with pending := rest } := rfl

/-- Settles O52, by the step's case of a command in front. -/
theorem stepRunsTheFrontCommand : Obligations.StepRunsTheFrontCommand := by
  unfold Obligations.StepRunsTheFrontCommand
  exact step_front

/-- Settles O53, by the step's case of an empty queue. -/
theorem idleStepAdvancesTimeAlone : Obligations.IdleStepAdvancesTimeAlone := by
  unfold Obligations.IdleStepAdvancesTimeAlone
  exact fun s hp => step_idle hp

/-! ## The operations that reach head memory leave the waiting commands -/

/-- Steps that each leave the waiting commands leave them together. -/
theorem foldl_pending {α : Type} {f : State → α → State} (hf : ∀ s a, (f s a).pending = s.pending) (l : List α) (s : State) :
    (l.foldl f s).pending = s.pending := by
  induction l generalizing s with
  | nil => rfl
  | cons a l ih => exact (ih _).trans (hf s a)

theorem ite_pending {c : Prop} [Decidable c] {s t : State} {l : List Instr} (hs : s.pending = l) (ht : t.pending = l) :
    (if c then s else t).pending = l := by
  split
  · exact hs
  · exact ht

@[simp] theorem State.evict_pending (s : State) (slot : Option (Nat × Nat × Nat)) : (s.evict slot).pending = s.pending := by
  unfold State.evict
  split
  · rfl
  · split
    · rfl
    · exact ite_pending rfl rfl

@[simp] theorem State.prefetch_pending (s : State) (cls stream a line : Nat) : (s.prefetch cls stream a line).pending = s.pending := by
  refine ite_pending rfl ?_
  split
  · rfl
  · exact State.evict_pending ..

@[simp] theorem State.advance_pending (s : State) (cls stream a : Nat) : (s.advance cls stream a).pending = s.pending := by
  unfold State.advance
  dsimp only
  split
  · rfl
  · refine ite_pending rfl (foldl_pending (fun s i => ?_) _ _)
    exact ite_pending rfl (State.prefetch_pending ..)

@[simp] theorem State.store_pending (s : State) (a : Nat) (w : Option Bytes) : (s.store a w).pending = s.pending := by
  cases w <;> rfl

@[simp] theorem State.hit_pending (s : State) (l : Line) (cls stream a : Nat) (w : Option Bytes) :
    (s.hit l cls stream a w).pending = s.pending := by
  unfold State.hit
  extract_lets through first clock touched counted stored
  have hs : stored.pending = s.pending := ite_pending (State.store_pending ..) rfl
  exact ite_pending ((State.advance_pending ..).trans hs) hs

@[simp] theorem State.miss_pending (s : State) (cls stream a : Nat) (w : Option Bytes) : (s.miss cls stream a w).pending = s.pending :=
  (State.advance_pending ..).trans (State.evict_pending ..)

@[simp] theorem State.access_pending (s : State) (cls stream a : Nat) (w : Option Bytes) :
    (s.access cls stream a w).pending = s.pending := by
  refine ite_pending rfl (ite_pending rfl (ite_pending (State.store_pending ..) ?_))
  split
  · exact ite_pending rfl (State.hit_pending ..)
  · exact ite_pending rfl (ite_pending (State.store_pending ..) (State.miss_pending ..))

@[simp] theorem State.land_pending (s : State) (f : Fill) : (s.land f).pending = s.pending := by
  unfold State.land
  dsimp only
  split
  · split <;> rfl
  · split
    · exact ite_pending rfl rfl
    · rfl

@[simp] theorem State.lineFill_pending (s : State) (a : Nat) : (s.lineFill a).pending = s.pending := by
  unfold State.lineFill
  split
  · rfl
  · exact ite_pending rfl ((foldl_pending (fun s x => State.access_pending ..) _ _).trans (State.land_pending ..))

@[simp] theorem State.dma_pending (s : State) (a len : Nat) (w : Option Bytes) : (s.dma a len w).pending = s.pending := by
  refine ite_pending rfl (ite_pending rfl ?_)
  cases w with
  | some bs => rfl
  | none => exact ite_pending rfl rfl

@[simp] theorem State.drained_pending (s : State) : s.drained.pending = s.pending := ite_pending rfl rfl

@[simp] theorem State.newSlices_pending (s : State) (banks : List Nat) : (s.newSlices banks).pending = s.pending := ite_pending rfl rfl

@[simp] theorem State.jobEnd_pending (s : State) (r : JobResult) : (s.jobEnd r).pending = s.pending := by
  have hw : (s.jobWrite r.output).pending = s.pending := State.dma_pending ..
  exact ite_pending rfl (ite_pending rfl (ite_pending hw (ite_pending hw hw)))

@[simp] theorem State.jobStart_pending (s : State) : s.jobStart.pending = s.pending := by
  refine ite_pending rfl ?_
  dsimp only
  split
  · rfl
  · exact ite_pending rfl (ite_pending (ite_pending (State.jobEnd_pending ..) rfl) (ite_pending rfl (State.dma_pending ..)))

@[simp] theorem State.chanRunEnd_pending (s : State) (n : Nat) : (s.chanRunEnd n).pending = s.pending := by
  unfold State.chanRunEnd
  dsimp only
  split
  · rfl
  · refine ite_pending rfl (ite_pending rfl ?_)
    split <;> exact State.dma_pending ..

@[simp] theorem State.quoteDone_pending (s : State) (sig : Bytes) : (s.quoteDone sig).pending = s.pending := by
  unfold State.quoteDone
  extract_lets hd q stored
  have hs : stored.pending = s.pending := State.dma_pending ..
  clear_value stored q hd
  exact ite_pending rfl (ite_pending rfl hs)

@[simp] theorem State.tsiLoad_pending (s : State) : s.tsiLoad.pending = s.pending := ite_pending rfl rfl

@[simp] theorem State.imageApply_pending (s : State) : s.imageApply.pending = s.pending := by
  unfold State.imageApply
  dsimp only
  split
  · rfl
  · exact State.newSlices_pending ..

@[simp] theorem State.flushIfWritten_pending (s : State) : s.flushIfWritten.pending = s.pending := ite_pending rfl rfl

@[simp] theorem State.regLoads_pending (s : State) (a : Nat) (v : Word) : (s.regLoads a v).pending = s.pending :=
  ite_pending (State.tsiLoad_pending s) (ite_pending (State.jobStart_pending s) rfl)

/-! ## Every command within the package's limits completes -/

/-- An answer is a next state in which the commands that wait are the ones of a list. -/
def CompletesKeeping (o : Host.Outcome State Fault Refusal) (l : List Instr) : Prop := ∃ t, o = .next t ∧ t.pending = l

section completes
variable {l : List Instr}

theorem CompletesKeeping.next {t : State} (ht : t.pending = l) : CompletesKeeping (.next t) l := ⟨t, rfl, ht⟩

theorem CompletesKeeping.ite {c : Prop} [Decidable c] {o o' : Host.Outcome State Fault Refusal} (ho : CompletesKeeping o l)
    (ho' : CompletesKeeping o' l) : CompletesKeeping (if c then o else o') l := by
  split
  · exact ho
  · exact ho'

end completes

theorem execRegisterWrite_completes (core a : Nat) (v : Word) (s : State) :
    CompletesKeeping (execRegisterWrite core a v s) s.pending := by
  refine .ite (.next rfl) ?_
  split
  · exact .next rfl
  · exact .ite (.next (State.regLoads_pending ..)) (.next rfl)

theorem execPortsPowerDown_completes (s : State) : CompletesKeeping (execPortsPowerDown s) s.pending := by
  unfold execPortsPowerDown
  split
  · exact .next rfl
  · exact .ite (.next rfl) (.ite (.next rfl) (.next rfl))

/-- A sample beyond the limits stops, as the spec guarantees no behaviour there (R369); any other completes. -/
theorem exec_powerSample (p : PowerSample) (s : State) : exec (.powerSample p) s =
    if limitsExceeded p then .fault .limitExceeded
    else s.act fun h => if h.awake then (h.modStg fun g => { g with tripping := p.tripping }).powerSample p else h := rfl

theorem exec_holdupUpdate (v : Nat) (s : State) : exec (.holdupUpdate v) s =
    if 65000 < v then .fault .limitExceeded else s.act fun h => if h.awake then h.holdupUpdate v else h := rfl

/-- Every command within the limits completes and leaves the commands that wait as they are: the two reports of a sample, the rows that
reach head memory, and the others, which act on the head's record alone. -/
theorem exec_completes_of_withinLimits {i : Instr} (hi : withinLimits i = true) (s : State) : CompletesKeeping (exec i s) s.pending := by
  cases i with
  | powerSample p =>
    rw [exec_powerSample, if_neg (by simpa [withinLimits] using hi)]
    exact .next rfl
  | holdupUpdate v =>
    rw [exec_holdupUpdate, if_neg (by simpa [withinLimits] using hi)]
    exact .next rfl
  | registerWrite core a v => exact execRegisterWrite_completes core a v s
  | pantryAccess => exact .next (State.access_pending ..)
  | pantryLineFill => exact .next (State.lineFill_pending ..)
  | dmaSnoop => exact .next (State.dma_pending ..)
  | pantryDrained => exact .next (State.drained_pending s)
  | cmpJobStart => exact .next (State.jobStart_pending s)
  | cmpJobEnd r => exact .next (ite_pending (State.jobEnd_pending s r) rfl)
  | dgtRunEnd => exact .next (State.chanRunEnd_pending ..)
  | attestationQuoteDone => exact .next (State.quoteDone_pending ..)
  | tsiLoad => exact .next (State.tsiLoad_pending s)
  | imageApply => exact .next (State.imageApply_pending s)
  | memberCompletion => exact .next (State.flushIfWritten_pending _)
  | memberLate => exact .next (State.flushIfWritten_pending _)
  | flushTrigger => exact .ite (.next (State.flushIfWritten_pending _)) (.next rfl)
  | thermalTrip => exact .ite (.next rfl) (.next rfl)
  | portsPowerDown => exact execPortsPowerDown_completes s
  | vinBelowCellar => exact .ite (.next rfl) (.next rfl)
  | lossOfBothSupplies => exact .next rfl
  | _ => exact .next rfl

/-- Only the reports of a supply and of a temperature can be outside the limits, and such a report stops. -/
theorem exec_fault_of_not_withinLimits {i : Instr} (hi : withinLimits i = false) (s : State) : exec i s = .fault .limitExceeded := by
  cases i with
  | powerSample p => rw [exec_powerSample, if_pos (by simpa [withinLimits] using hi)]
  | holdupUpdate v => rw [exec_holdupUpdate, if_pos (by simpa [withinLimits] using hi)]
  | _ => cases hi

/-- Settles O56: each row within the limits completes, and only the two reports of a sample can lie outside them. -/
theorem onlyThePackageLimitsStop : Obligations.OnlyThePackageLimitsStop := by
  unfold Obligations.OnlyThePackageLimitsStop
  exact ⟨fun i s hi => exec_completes_of_withinLimits hi s, fun i s hi => exec_fault_of_not_withinLimits hi s⟩

end Sys2Proof.Machine
end
